-- ==== Sys2Proof/Word.lean ====
section
/-! DEFINITION. The word types of the machine (00 R4: bits are numbered from the least significant, bytes are little-endian). -/

namespace Sys2Proof

/-- A 64-bit scalar register value (01 R17). -/
abbrev Word := BitVec 64

/-- One byte. -/
abbrev Byte := BitVec 8

end Sys2Proof
end

