-- ==== Sys2Proof/Config.lean ====
section
/-! DEFINITION. What the spec leaves to an implementation or leaves open: constants with no value in the model. -/

namespace Sys2Proof.Config

/-- A free value for every number: the choices the spec leaves open, taken in turn by the counter `State.free`. (DESIGN CHOICE, log 1) -/
opaque freeNat : Nat → Nat

/-- How a tie into a binary8 format of precision 1 rounds (05 R105 names no even neighbour there), by the lower code. (DESIGN CHOICE, log 8) -/
opaque p1TieUp : Nat → Bool

/-- Where a page of a context's flash region lies: 16 times its HBF stack plus its channel (15 R304): not in the spec. (DESIGN CHOICE, log 7) -/
opaque flashPlace : Nat → Nat → Nat

/-- The number of the first handle that a kernel image declares (02 R56 counts from it; no byte of the image holds it). (DEDUCED, log 29) -/
opaque firstHandle : List Byte → Nat

/-- The Winder firmware that the package carries, with its signature, component r then s, and the key that verifies it (24 R418). (DEDUCED, log 39) -/
opaque firmware : List Byte
opaque firmwareSig : List Byte
opaque firmwareKey : List Byte

/-- The fused SHA-512 hash of that key (24 R418). (DEDUCED, log 39) -/
opaque fusedHash : BitVec 512

/-- The private half of the device identity key (24 R418), which never leaves the root of trust. (DEDUCED, log 39) -/
opaque identityKey : Nat

end Sys2Proof.Config
end

