-- ==== Sys2Proof/Machine/Num.lean ====
section
/-! DEFINITION. Exact numbers, rounding and the element formats (05 R98 to R110). -/

namespace Sys2Proof.Machine

/-- An exact value (05 R115): `fin` is `m / d * 2 ^ e` with its sign; a NaN carries its fraction left-aligned in 23 bits. -/
inductive Num where
  | zero (neg : Bool)
  | fin (neg : Bool) (m d : Nat) (e : Int)
  | inf (neg : Bool)
  | nan (neg : Bool) (frac : Nat) (sig : Bool)
  deriving DecidableEq, Repr

/-- FPSTAT's sticky flags (05 R111), bit 0 NV to bit 6 NP. -/
abbrev Flags := BitVec 7

namespace Fl
/-- invalid -/
def nv : Flags := 1
/-- division by zero -/
def dz : Flags := 2
/-- overflow -/
def of : Flags := 4
/-- underflow -/
def uf : Flags := 8
/-- inexact -/
def nx : Flags := 16
/-- saturated -/
def sat : Flags := 32
/-- a NaN produced -/
def np : Flags := 64
end Fl

/-- The canonical NaN (05 R108). -/
def Num.canon : Num := .nan false 0x400000 false

def Num.isNan : Num → Bool
  | .nan .. => true
  | _ => false

def Num.isSig : Num → Bool
  | .nan _ _ s => s
  | _ => false

def Num.isInf : Num → Bool
  | .inf _ => true
  | _ => false

def Num.isZero : Num → Bool
  | .zero _ => true
  | _ => false

def Num.neg? : Num → Bool
  | .zero n => n
  | .fin n .. => n
  | .inf n => n
  | .nan n .. => n

def Num.negate : Num → Num
  | .zero n => .zero (!n)
  | .fin n m d e => .fin (!n) m d e
  | .inf n => .inf (!n)
  | .nan n f s => .nan (!n) f s

/-- quiet(n) of 05 R115. -/
def Num.quiet : Num → Num
  | .nan n f _ => .nan n (f ||| 0x400000) false
  | x => x

/-- The first NaN of a list, quieted (05 R108). -/
def pickNan (l : List Num) : Num := ((l.find? Num.isNan).getD .canon).quiet

/-- NV when an operand is signalling (05 R108). -/
def sigFlags (l : List Num) : Flags := if l.any Num.isSig then Fl.nv else 0

/-- 2 ^ e for a non-negative exponent, 1 otherwise. -/
def pow2 (e : Int) : Nat := 2 ^ e.toNat

/-- The exact value of an integer. -/
def Num.ofInt (i : Int) : Num := if i = 0 then .zero false else .fin (decide (i < 0)) i.natAbs 1 0

/-- The numerator and denominator of a magnitude. -/
def ratio (m d : Nat) (e : Int) : Nat × Nat := (m * pow2 e, d * pow2 (-e))

/-- floor(log2 (n / d)) for positive n and d. -/
def flog2Ratio (n d : Nat) : Int :=
  let g : Int := (Nat.log2 n : Int) - (Nat.log2 d : Int)
  if n * pow2 (-g) < d * pow2 g then g - 1 else g

/-- flog2 of 05 R115; 0 for a value that has none. -/
def Num.flog2 : Num → Int
  | .fin _ m d e => flog2Ratio m d + e
  | _ => 0

/-- A value scaled by a power of two. -/
def Num.scale (x : Num) (k : Int) : Num :=
  match x with
  | .fin n m d e => .fin n m d (e + k)
  | y => y

/-- The exact product of finite values with its sign; zero times infinity is the caller's (05 R108). -/
def Num.mul (a b : Num) : Num :=
  let n := a.neg? != b.neg?
  match a, b with
  | .fin _ m1 d1 e1, .fin _ m2 d2 e2 => .fin n (m1 * m2) (d1 * d2) (e1 + e2)
  | .inf _, _ => .inf n
  | _, .inf _ => .inf n
  | _, _ => .zero n

/-- The exact quotient of finite values, b not zero. -/
def Num.div (a b : Num) : Num :=
  let n := a.neg? != b.neg?
  match a, b with
  | .fin _ m1 d1 e1, .fin _ m2 d2 e2 => .fin n (m1 * d2) (d1 * m2) (e1 - e2)
  | .inf _, _ => .inf n
  | _, _ => .zero n

/-- The exact sum of finite values (07 R137): an exact zero of two zeros of one sign keeps it, any other takes +0, or -0
under RDN. -/
def Num.add (a b : Num) (rdn : Bool) : Num :=
  match a, b with
  | .zero x, .zero y => if x = y then .zero x else .zero rdn
  | .zero _, y => y
  | x, .zero _ => x
  | .inf x, _ => .inf x
  | _, .inf y => .inf y
  | .fin n1 m1 d1 e1, .fin n2 m2 d2 e2 =>
    let e := min e1 e2
    let x : Int := (m1 * d2 * pow2 (e1 - e) : Nat)
    let y : Int := (m2 * d1 * pow2 (e2 - e) : Nat)
    let s := (if n1 then -x else x) + (if n2 then -y else y)
    if s = 0 then .zero rdn else .fin (decide (s < 0)) s.natAbs (d1 * d2) e
  | x, _ => x

/-- Comparison of two values that are no NaN; -0 equals +0. -/
def Num.cmp (a b : Num) : Ordering :=
  match a, b with
  | .zero _, .zero _ => .eq
  | .inf x, .inf y => if x = y then .eq else if x then .lt else .gt
  | .inf x, _ => if x then .lt else .gt
  | _, .inf y => if y then .gt else .lt
  | a, b =>
    match a.add b.negate false with
    | .zero _ => .eq
    | r => if r.neg? then .lt else .gt

/-- Rounding modes of 05 R105 by code. -/
structure Rnd where
  rm : BitVec 3
  sat : Bool
  sr : Word
  deriving DecidableEq, Repr

/-- Round to nearest even, no saturation. -/
def Rnd.rne : Rnd := ⟨0, false, 0⟩

/-- Rounding of n / d to an integer magnitude for a value of the given sign (05 R105, R110): the integer and whether it is
inexact; `p1` is the tie rule between two values of a precision that leaves no even one. (DESIGN CHOICE, log 8) -/
def roundRatio (r : Rnd) (neg : Bool) (n d : Nat) (p1 : Option Nat) : Nat × Bool :=
  let k := n / d
  let rem := n % d
  if rem = 0 then (k, false)
  else
    let up : Bool :=
      match r.rm.toNat with
      | 0 => if 2 * rem = d then (match p1 with | some c => Config.p1TieUp c | none => k % 2 == 1) else decide (d < 2 * rem)
      | 1 => false
      | 2 => neg
      | 3 => !neg
      | _ => decide (r.sr.toNat * d < rem * 2 ^ 64)
    (if up then k + 1 else k, true)

/-- rnd(x, rm) of 05 R115 for a finite value. -/
def Num.rnd (x : Num) (r : Rnd) : Int × Bool :=
  match x with
  | .fin n m d e =>
    let (a, b) := ratio m d e
    let (k, ix) := roundRatio r n a b none
    (if n then -(k : Int) else k, ix)
  | _ => (0, false)

/-- A floating format: width, precision with the hidden bit, smallest normal exponent, largest finite code, infinity and
NaN codes; `ieee` for FP32, BF16 and FP16, `signed` false for unsigned binary8 (05 R99, R100). -/
structure FFmt where
  w : Nat
  p : Nat
  emin : Int
  maxCode : Nat
  inf : Option Nat
  nan : Nat
  ieee : Bool
  signed : Bool
  deriving DecidableEq, Repr

def FFmt.fp32 : FFmt := ⟨32, 24, -126, 0x7F7FFFFF, some 0x7F800000, 0x7FC00000, true, true⟩
def FFmt.bf16 : FFmt := ⟨16, 8, -126, 0x7F7F, some 0x7F80, 0x7FC0, true, true⟩
def FFmt.fp16 : FFmt := ⟨16, 11, -14, 0x7BFF, some 0x7C00, 0x7E00, true, true⟩

/-- The binary8 format of precision P (05 R100). -/
def FFmt.b8 (p : Nat) (uns fin : Bool) : FFmt :=
  { w := 8, p := p, emin := 1 - (2 ^ (7 - p) : Nat),
    maxCode := if uns then (if fin then 0xFE else 0xFD) else (if fin then 0x7F else 0x7E),
    inf := if fin then none else some (if uns then 0xFE else 0x7F),
    nan := if uns then 0xFF else 0x80, ieee := false, signed := !uns }

/-- The sign bit of a signed format. -/
def FFmt.signBit (f : FFmt) : Nat := 2 ^ (f.w - 1)

/-- decode of 05 R99, R100 for a floating format. -/
def FFmt.decode (f : FFmt) (bits : Nat) : Num :=
  if f.ieee then
    let neg := decide (f.signBit ≤ bits)
    let c := bits % f.signBit
    let t := 2 ^ (f.p - 1)
    if f.maxCode < c then
      if c % t = 0 then .inf neg
      else .nan neg (c % t * 2 ^ (24 - f.p)) (decide (c % t < t / 2))
    else if c = 0 then .zero neg
    else if c < t then .fin neg c 1 (f.emin - (f.p - 1 : Nat))
    else .fin neg (t + c % t) 1 (f.emin + (c / t : Nat) - 1 - (f.p - 1 : Nat))
  else if bits = f.nan then .canon
  else
    let neg := f.signed && decide (128 ≤ bits)
    let c := if f.signed then bits % 128 else bits
    let t := 2 ^ (f.p - 1)
    if f.inf = some c then .inf neg
    else if c = 0 then .zero false
    else if c < t then .fin neg c 1 (f.emin - (f.p - 1 : Nat))
    else .fin neg (t + c % t) 1 (f.emin + (c / t : Nat) - 1 - (f.p - 1 : Nat))

/-- A code with its sign. -/
def FFmt.withSign (f : FFmt) (neg : Bool) (c : Nat) : Nat :=
  if neg && f.signed && (f.ieee || c ≠ 0) then f.signBit + c else c

/-- encode of 05 R106, R108 into a floating format: the bits and the flags raised. (DESIGN CHOICE, log 8) -/
def FFmt.encode (f : FFmt) (x : Num) (r : Rnd) : Nat × Flags :=
  match x with
  | .nan n fr s =>
    let fl := if s then Fl.nv else 0
    if f.ieee then
      let t := 2 ^ (f.p - 1)
      (f.withSign n ((f.maxCode / t + 1) * t + ((fr / 2 ^ (24 - f.p)) ||| (t / 2))), fl)
    else (f.nan, fl)
  | .zero n => (f.withSign n 0, 0)
  | .inf n =>
    if n && !f.signed then (if r.sat then (0, Fl.sat) else (f.nan, Fl.nv ||| Fl.np))
    else if r.sat then (f.withSign n f.maxCode, Fl.sat)
    else match f.inf with
      | some c => (f.withSign n c, 0)
      | none => (f.nan, Fl.nv ||| Fl.np)
  | .fin n m d e =>
    let ex := max (flog2Ratio m d + e) f.emin
    let q := ex - (f.p - 1 : Nat)
    let (a, b) := ratio m d (e - q)
    let base := ((ex - f.emin).toNat) * 2 ^ (f.p - 1)
    let (k, ix) := roundRatio r n a b (if f.p = 1 ∧ base + a / b ≠ 0 then some (base + a / b) else none)
    let c := base + k
    if n && !f.signed then
      if c = 0 then (0, Fl.nx ||| Fl.uf)
      else if r.sat then (0, Fl.sat) else (f.nan, Fl.nv ||| Fl.np)
    else if f.maxCode < c then
      if r.sat then (f.withSign n f.maxCode, Fl.sat ||| Fl.nx)
      else
        let toInf : Bool := r.rm = 0 || r.rm = 4 || (r.rm = 2 && n) || (r.rm = 3 && !n)
        if toInf then
          match f.inf with
          | some i => (f.withSign n i, Fl.of ||| Fl.nx)
          | none => (f.nan, Fl.of ||| Fl.nx ||| Fl.np)
        else (f.withSign n f.maxCode, Fl.of ||| Fl.nx)
    else
      (f.withSign n c, (if ix then Fl.nx else 0) ||| (if ix && c < 2 ^ (f.p - 1) then Fl.uf else 0))

/-- An element type: an integer of a width and signedness, or a float (05 R98, 07 R130). -/
inductive Elem where
  | int (w : Nat) (signed : Bool)
  | flt (f : FFmt)
  deriving DecidableEq, Repr

def Elem.width : Elem → Nat
  | .int w _ => w
  | .flt f => f.w

def Elem.isFloat : Elem → Bool
  | .flt _ => true
  | _ => false

/-- The smallest and largest integer of a width and signedness. -/
def intLo (w : Nat) (signed : Bool) : Int := if signed then -(2 ^ (w - 1) : Nat) else 0
def intHi (w : Nat) (signed : Bool) : Int := if signed then (2 ^ (w - 1) : Nat) - 1 else (2 ^ w : Nat) - 1

/-- clamp of 05 R115. -/
def clampInt (x lo hi : Int) : Int := if x < lo then lo else if hi < x then hi else x

/-- The low w bits of an integer's two's complement. -/
def intBits (w : Nat) (x : Int) : Nat := (x % (2 ^ w : Nat)).toNat

/-- The integer that w bits stand for. -/
def bitsInt (w : Nat) (signed : Bool) (b : Nat) : Int :=
  if signed && decide (2 ^ (w - 1) ≤ b) then (b : Int) - (2 ^ w : Nat) else b

/-- decode of an element. -/
def Elem.decode : Elem → Nat → Num
  | .int w s, b => .ofInt (bitsInt w s b)
  | .flt f, b => f.decode b

/-- encode of an element; `fromInt` selects the integer-source row of 05 R106. -/
def Elem.encode (el : Elem) (x : Num) (r : Rnd) (fromInt : Bool := false) : Nat × Flags :=
  match el with
  | .flt f => f.encode x r
  | .int w s =>
    match x with
    | .nan .. => (0, Fl.nv)
    | .inf n => (intBits w (if n then intLo w s else intHi w s), if r.sat then Fl.sat else Fl.nv)
    | .zero _ => (0, 0)
    | .fin .. =>
      let (k, ix) := x.rnd r
      let c := clampInt k (intLo w s) (intHi w s)
      if c = k then (intBits w k, if ix then Fl.nx else 0)
      else if fromInt && !r.sat then (intBits w k, 0)
      else (intBits w c, if r.sat then Fl.sat else Fl.nv)

/-- The element type of a 4-bit ty code (07 R130). -/
def tyElem (t : Nat) : Elem :=
  match t with
  | 0 => .int 32 true
  | 1 => .int 32 false
  | 2 => .int 16 true
  | 3 => .int 16 false
  | 4 => .int 8 true
  | 5 => .int 8 false
  | 6 => .int 4 true
  | 7 => .int 4 false
  | 8 => .flt .fp32
  | 9 => .flt .bf16
  | 10 => .flt .fp16
  | 11 => .flt (.b8 3 false false)
  | 12 => .flt (.b8 4 false false)
  | 13 => .flt (.b8 5 false false)
  | 14 => .flt (.b8 3 false true)
  | _ => .flt (.b8 4 false true)

/-- The element format of MXB8 by AUX (05 R98). -/
def mxb8Elem (aux : Nat) : FFmt := .b8 (3 + aux % 3) false (decide (3 ≤ aux))

/-- The element type behind a format code (05 R98); none for RAW, E8M0, SPINT8, SPINT4 and reserved codes. -/
def fmtElem (code : Nat) (aux : Nat) : Option Elem :=
  match code with
  | 0x01 => some (.int 8 true)
  | 0x02 => some (.int 8 false)
  | 0x03 => some (.int 4 true)
  | 0x04 => some (.int 16 true)
  | 0x05 => some (.int 32 true)
  | 0x10 => some (.flt .fp32)
  | 0x11 => some (.flt .bf16)
  | 0x12 => some (.flt .fp16)
  | 0x40 => some (.int 8 true)
  | 0x41 => some (.flt (mxb8Elem aux))
  | 0x42 => some (.int 4 true)
  | 0x50 => some (.int 8 true)
  | 0x51 => some (.int 4 true)
  | c => if 0x20 ≤ c ∧ c < 0x40 ∧ c % 8 ≠ 7 then
           some (.flt (.b8 (c % 8 + 1) (decide (0x30 ≤ c)) (decide (8 ≤ c % 16)))) else none

/-- Whether a format code and AUX are assigned (05 R98). -/
def fmtLegal (code aux : Nat) : Bool :=
  match code with
  | 0x00 => true
  | 0x41 => decide (aux < 6)
  | 0x60 => decide (aux < 4)
  | 0x61 => decide (aux < 4)
  | 0x48 => decide (aux = 0)
  | c => (fmtElem c 0).isSome && decide (aux = 0)

/-- Whether a format is a block format (05 R102). -/
def isBlockFmt (code : Nat) : Bool := code = 0x40 || code = 0x41 || code = 0x42

/-- The width in bits of an element of a format; 8 for RAW, E8M0 and compressed weights. -/
def fmtWidth (code : Nat) : Nat := if code = 0x61 then 4 else ((fmtElem code 0).map Elem.width).getD 8

/-- The value of an E8M0 scale as an exponent; none for NaN (05 R101). -/
def e8m0 (s : Nat) : Option Int := if s = 255 then none else some (s - 127)

/-- The exponent by which the element integers of a block format are scaled (05 R101). -/
def blockShift (code : Nat) : Int := if code = 0x40 then -6 else if code = 0x42 then -2 else 0

/-- An element of a block format under its scale (05 R101). -/
def decodeBlock (code aux bits scale : Nat) : Num :=
  match e8m0 scale, fmtElem code aux with
  | some k, some el => (el.decode bits).scale (k + blockShift code)
  | _, _ => .canon

/-- emax of 05 R107. -/
def blockEmax (code aux : Nat) : Int :=
  if code = 0x41 then ((mxb8Elem aux).decode (mxb8Elem aux).maxCode).flog2 else 0

/-- One element of a narrowed block (05 R107), for a scale exponent e (biased by 127). -/
def narrowElem (code aux : Nat) (e : Int) (x : Num) : Nat × Flags :=
  let y := x.scale (127 - e)
  if code = 0x41 then (mxb8Elem aux).encode y ⟨0, true, 0⟩
  else
    let (k, ix) := (y.scale (-(blockShift code))).rnd .rne
    let hi : Int := if code = 0x40 then 127 else 7
    let c := clampInt k (-hi) hi
    (intBits (if code = 0x40 then 8 else 4) c, (if c = k then 0 else Fl.sat) ||| (if ix || c ≠ k then Fl.nx else 0))

/-- The largest magnitude's exponent among finite values; none when all are zero. -/
def maxFlog2 (xs : List Num) : Option Int :=
  xs.foldl (fun a x => match x with
    | .fin .. => some (match a with | some m => max m x.flog2 | none => x.flog2)
    | _ => a) none

/-- Narrowing of a block (05 R107): the scale written (none when the scale source fixes it), the elements, the flags, NV for a signalling
NaN among them (05 R108). -/
def narrowBlock (code aux : Nat) (fixed : Bool) (xs : List Num) : Option Nat × List Nat × Flags :=
  if xs.any (fun x => x.isNan || x.isInf) then
    (if fixed then none else some 255, xs.map (fun _ => 0), (if xs.any Num.isInf then Fl.nv else 0) ||| sigFlags xs)
  else match maxFlog2 xs with
    | none => (if fixed then none else some 0, xs.map (fun _ => 0), 0)
    | some g =>
      let e0 := g - blockEmax code aux + 127
      let e : Int := if fixed then 127 else if e0 < 0 then 0 else if 254 < e0 then 254 else e0
      let ovf : Flags := if !fixed && decide (254 < e0) then Fl.of else 0
      let es := xs.map (narrowElem code aux e)
      (if fixed then none else some e.toNat, es.map Prod.fst, es.foldl (fun f p => f ||| p.2) ovf)

/-- 64-bit rotation left (05 R115). -/
def rotl64 (v : Word) (n : Nat) : Word := v.rotateLeft (n % 64)

/-- The part of srword that does not depend on the element (05 R110). -/
def srBaseOf (key : Word) (core : Nat) (pc slot : Nat) (idx : List (BitVec 32)) : Word :=
  let z := key ^^^ BitVec.ofNat 64 core
  let z := z ^^^ (BitVec.ofNat 64 pc <<< 48) ^^^ (BitVec.ofNat 64 slot <<< 61)
  (idx.zipIdx.foldl (fun z p => z ^^^ rotl64 (p.1.setWidth 64) (8 * p.2 + 16)) z)

/-- The finishing mix of 05 R110 and 08 R177. -/
def mix64 (z : Word) : Word :=
  let z := (z ^^^ (z >>> 30)) * 0xBF58476D1CE4E5B9
  let z := (z ^^^ (z >>> 27)) * 0x94D049BB133F11EB
  z ^^^ (z >>> 31)

/-- srword of 05 R110. -/
def srword (base : Word) (e : Nat) : Word := mix64 (base ^^^ rotl64 (BitVec.ofNat 64 e) 32)

/-- The block size of a rotation block code (06 R117). -/
def tagB (code : Nat) : Nat := if code = 0 ∨ 4 < code then 1 else 8 * 2 ^ code

/-- One butterfly stage over blocks of 2 ^ (t + 1) (06 R120). -/
def butterfly (t : Nat) (q : List Int) : List Int :=
  q.zipIdx.map fun (a, i) =>
    if i / 2 ^ t % 2 = 0 then a + q.getD (i + 2 ^ t) 0 else q.getD (i - 2 ^ t) 0 - a

/-- The rotation of one block (06 R120), before the narrowing of R121: the exact results and the flags. -/
def rotateBlock (code : Nat) (mask : BitVec 128) (fwd : Bool) (xs : List Num) : List Num × Flags :=
  if xs.any Num.isNan then (xs.map fun _ => pickNan xs, sigFlags xs)
  else if xs.any Num.isInf then (xs.map fun _ => .canon, Fl.nv ||| Fl.np)
  else
    let us := xs.zipIdx.map fun (x, j) => if fwd && mask.getLsbD j then x.negate else x
    let align (f : Int) := us.map fun u => (u.scale f).rnd .rne
    let f0 : Int := match maxFlog2 us with | none => 0 | some g => 29 - g
    let q0 := align f0
    let wide := q0.any fun p => p.1.natAbs = 2 ^ 30
    let f := if wide then f0 - 1 else f0
    let q1 := if wide then align f else q0
    let ix := q1.any Prod.snd
    let q := (List.range (code + 3)).foldl (fun q t => butterfly t q) (q1.map Prod.fst)
    let ys := q.zipIdx.map fun (y, j) =>
      if fwd then (Num.ofInt y).scale (-f)
      else (Num.ofInt (if mask.getLsbD j then -y else y)).scale (-(f + (code + 3 : Nat)))
    (ys, if ix then Fl.nx else 0)

/-- The rotation of a row made of whole blocks. -/
def rotateRow (code : Nat) (mask : BitVec 128) (fwd : Bool) (xs : List Num) : List Num × Flags :=
  let b := tagB code
  (List.range (xs.length / b)).foldl (fun acc i =>
    let r := rotateBlock code mask fwd ((xs.drop (i * b)).take b)
    (acc.1 ++ r.1, acc.2 ||| r.2)) ([], 0)

/-! The element functions of 07 R158, by fixed-point enclosures. -/

/-- Fixed-point precision of the enclosures, in bits. -/
def fpN : Nat := 400

/-- One in fixed point. -/
def fpOne : Int := (2 ^ fpN : Nat)

/-- exp of a fixed-point value in [0, 1], by its series, rounded down; the error is below 2 * 150 units. -/
def fpExp (x : Int) : Int :=
  ((List.range 110).foldl (fun (acc : Int × Int) (i : Nat) =>
    let t := acc.1 * x / fpOne / ((i : Int) + 1)
    (t, acc.2 + t)) (fpOne, fpOne)).2

/-- 2 atanh(z) for a fixed-point z in [0, 1/3], rounded down. -/
def fpLnRatio (z : Int) : Int :=
  let z2 := z * z / fpOne
  2 * ((List.range 135).foldl (fun (acc : Int × Int) (i : Nat) =>
    (acc.1 * z2 / fpOne, acc.2 + acc.1 / (2 * (i : Int) + 1))) (z, 0)).2

/-- ln 2 in fixed point. -/
def fpLn2 : Int := fpLnRatio (fpOne / 3)

/-- erf of a fixed-point value of magnitude at most 16 by its series, with 600 further bits. -/
def fpErf (x : Int) : Int :=
  let k : Nat := 600
  let one : Int := fpOne * (2 ^ k : Nat)
  let x1 := x * (2 ^ k : Nat)
  let x2 := x1 * x1 / one
  let s := ((List.range 1100).foldl (fun (acc : Int × Int) (n : Nat) =>
    (-(acc.1 * x2 / one / ((n : Int) + 1)), acc.2 + acc.1 / (2 * (n : Int) + 1))) (x1, 0)).2
  -- 2 / sqrt(pi) with pi by Machin's formula
  let atanInv (q : Int) : Int := ((List.range 400).foldl (fun (acc : Int × Int) (n : Nat) =>
    (-(acc.1 / (q * q)), acc.2 + acc.1 / (2 * (n : Int) + 1))) (one / q, 0)).2
  let pi := 4 * (4 * atanInv 5 - atanInv 239)
  let rt : Int := (Nat.sqrt (pi * one).toNat : Int)
  2 * s * one / rt / (2 ^ k : Nat)

/-- A positive value known to lie strictly within fixed-point [lo, hi], as a value that rounds as it does: its leading
bits with a sticky bit below. -/
def sticky (neg : Bool) (v : Int) : Num := .fin neg (2 * (v.toNat / 2 ^ 100) + 1) 1 (101 - 1 - fpN - 1)

/-- The value of a magnitude in fixed point, rounded down. -/
def toFixed (m d : Nat) (e : Int) : Int := let (a, b) := ratio m d (e + fpN); (a / b : Nat)

/-- The element functions of 07 R157. -/
inductive FnOp where
  | exp2 | log2 | rcp | rsq | sigm | tanh | erf
  deriving DecidableEq, Repr

/-- 2 ^ x for a finite x: the exact value where it is a power of two, else a value that rounds alike. -/
def exp2Num (neg : Bool) (m d : Nat) (e : Int) : Num :=
  if 11 ≤ flog2Ratio m d + e then .fin false 3 1 (if neg then -2000 else 2000)
  else
    let (a, b) := ratio m d e
    let fl : Int := if neg then -((a + b - 1) / b : Nat) else (a / b : Nat)
    if a % b = 0 then .fin false 1 1 fl
    else
      let fr : Int := if neg then ((a + b - 1) / b * b - a : Nat) else (a % b : Nat)
      (sticky false (fpExp (fr * fpLn2 / b))).scale fl

/-- exp(-|x|) in fixed point for |x| below 2^9, else 0. -/
def fpExpNeg (m d : Nat) (e : Int) : Int :=
  if 9 ≤ flog2Ratio m d + e then 0
  else
    let x := toFixed m d e
    let k := x / fpLn2
    let r := x - k * fpLn2
    fpOne * fpOne / fpExp r / (2 ^ k.toNat : Nat)

/-- The exact function value of 07 R158 for a finite nonzero operand in the function's domain, as a value that rounds as
the exact one does. -/
def fnFinite (op : FnOp) (neg : Bool) (m d : Nat) (e : Int) : Num :=
  let tiny := decide (flog2Ratio m d + e < -60)
  match op with
  | .exp2 => if tiny then (if neg then .fin false (2 ^ 200 - 1) 1 (-200) else .fin false (2 ^ 200 + 1) 1 (-200))
             else exp2Num neg m d e
  | .log2 =>
    let g := flog2Ratio m d
    let (a, b) := ratio m d (-g)
    let z : Int := ((a - b) * 2 ^ fpN / (a + b) : Nat)
    let l := fpLnRatio z * fpOne / fpLn2
    let v := l + (g + e) * fpOne
    if a = b then .ofInt (g + e) else if v < 0 then sticky true (-v) else sticky false v
  | .rcp => .fin neg d m (-e)
  | .rsq =>
    let e' := if e % 2 = 0 then e else e - 1
    let m' := if e % 2 = 0 then m else 2 * m
    let v := Nat.sqrt (d * 2 ^ 400 / m')
    if v * v * m' = d * 2 ^ 400 then .fin false v 1 (-200 - e' / 2)
    else .fin false (2 * v + 1) 1 (-201 - e' / 2)
  | .sigm =>
    if tiny then .fin false (if neg then 2 ^ 200 - 1 else 2 ^ 200 + 1) 1 (-201)
    else
      let t := fpExpNeg m d e
      if t = 0 then (if neg then .fin false 1 1 (-300) else .fin false (2 ^ 300 - 1) 1 (-300))
      else if neg then sticky false (t * fpOne / (fpOne + t)) else sticky false (fpOne * fpOne / (fpOne + t))
  | .tanh =>
    if tiny then (Num.fin neg m d e).mul (.fin false (2 ^ 100 - 1) 1 (-100))
    else
      let t := fpExpNeg m d (e + 1)
      if t = 0 then .fin neg (2 ^ 300 - 1) 1 (-300) else sticky neg ((fpOne - t) * fpOne / (fpOne + t))
  | .erf =>
    if 4 ≤ flog2Ratio m d + e then .fin neg (2 ^ 300 - 1) 1 (-300)
    else if tiny then
      (Num.fin neg m d e).mul (.fin false ((fpErf (2 ^ 320) / 2 ^ 120).toNat) 1 (-200))
    else sticky neg (fpErf (toFixed m d e))

/-- An element function with its special operands (07 R158): the value and the flags it raises before rounding. -/
def fnEval (op : FnOp) (x : Num) : Num × Flags :=
  match x with
  | .nan .. => (x.quiet, sigFlags [x])
  | .inf n =>
    match op with
    | .exp2 => (if n then .zero false else .inf false, 0)
    | .log2 => if n then (.canon, Fl.nv ||| Fl.np) else (.inf false, 0)
    | .rcp => (.zero n, 0)
    | .rsq => if n then (.canon, Fl.nv ||| Fl.np) else (.zero false, 0)
    | .sigm => (if n then .zero false else .ofInt 1, 0)
    | .tanh => (.ofInt (if n then -1 else 1), 0)
    | .erf => (.ofInt (if n then -1 else 1), 0)
  | .zero n =>
    match op with
    | .exp2 => (.ofInt 1, 0)
    | .log2 => (.inf true, Fl.dz)
    | .rcp => (.inf n, Fl.dz)
    | .rsq => (.inf n, Fl.dz)
    | .sigm => (.fin false 1 1 (-1), 0)
    | .tanh => (.zero n, 0)
    | .erf => (.zero n, 0)
  | .fin n m d e =>
    if n && (op = .log2 || op = .rsq) then (.canon, Fl.nv ||| Fl.np) else (fnFinite op n m d e, 0)

end Sys2Proof.Machine
end

