-- ==== Sys2Proof/Syntax.lean ====
section
/-! DEFINITION. The instruction syntax: one constructor for each row of the opcode table, slot instructions first, then
the events by which engines, the Winder, the host port and the other agents act. -/

namespace Sys2Proof

/-- The guard field of a slot word (01 R20, 02 R31, R32): `neg` is bit [24], `pred` bits [23:21]. -/
structure Guard where
  neg : BitVec 1
  pred : BitVec 3
  deriving DecidableEq, Repr

/-- The engine options of format ME (02 R38): token bits, acquire, release, scope, promise, SYSTEM. -/
structure EngOpt where
  tpp : BitVec 1
  tpn : BitVec 1
  thp : BitVec 1
  thn : BitVec 1
  acq : BitVec 1
  rel : BitVec 1
  scope : BitVec 2
  p : BitVec 1
  y : BitVec 1
  deriving DecidableEq, Repr

/-- Every instruction and event of the opcode table. The letters of a slot instruction's fields are those of its row. -/
inductive Instr where
  /-- R45. The all-zero slot word does nothing in any slot class. -/
  | nop
  /-- R60. Writes the 64-bit sum of two scalar operands. -/
  | add (g : Guard) (d a b : BitVec 5)
  /-- R60. Writes the 64-bit difference of two scalar operands. -/
  | sub (g : Guard) (d a b : BitVec 5)
  /-- R60. Writes the low 64 bits of the product, latency 3. -/
  | mul (g : Guard) (d a b : BitVec 5)
  /-- R60. Writes the high 64 bits of the signed 128-bit product. -/
  | mulh (g : Guard) (d a b : BitVec 5)
  /-- R60. Writes the high 64 bits of the unsigned 128-bit product. -/
  | mulhu (g : Guard) (d a b : BitVec 5)
  /-- R62. Writes the signed quotient rounded toward zero, latency 20, without trapping on zero. -/
  | div (g : Guard) (d a b : BitVec 5)
  /-- R62. Writes the unsigned quotient, latency 20. -/
  | divU (g : Guard) (d a b : BitVec 5)
  /-- R62. Writes the signed remainder with the sign of the dividend. -/
  | rem (g : Guard) (d a b : BitVec 5)
  /-- R62. Writes the unsigned remainder. -/
  | remU (g : Guard) (d a b : BitVec 5)
  /-- R60. Bitwise AND of two scalars. -/
  | and (g : Guard) (d a b : BitVec 5)
  /-- R60. Bitwise OR of two scalars. -/
  | or (g : Guard) (d a b : BitVec 5)
  /-- R60. Bitwise XOR of two scalars. -/
  | xor (g : Guard) (d a b : BitVec 5)
  /-- R60. Shifts left by b[5:0]. -/
  | shl (g : Guard) (d a b : BitVec 5)
  /-- R60. Shifts right logically by b[5:0]. -/
  | shr (g : Guard) (d a b : BitVec 5)
  /-- R60. Shifts right arithmetically by b[5:0]. -/
  | sar (g : Guard) (d a b : BitVec 5)
  /-- R60. Rotates left by b[5:0]. -/
  | rotl (g : Guard) (d a b : BitVec 5)
  /-- R60. Writes the signed minimum. -/
  | min (g : Guard) (d a b : BitVec 5)
  /-- R60. Writes the signed maximum. -/
  | max (g : Guard) (d a b : BitVec 5)
  /-- R60. Writes the unsigned minimum. -/
  | minu (g : Guard) (d a b : BitVec 5)
  /-- R60. Writes the unsigned maximum. -/
  | maxu (g : Guard) (d a b : BitVec 5)
  /-- R60. Counts leading zero bits. -/
  | clz (g : Guard) (d a : BitVec 5)
  /-- R60. Counts set bits. -/
  | popc (g : Guard) (d a : BitVec 5)
  /-- R61. Selects one of two scalars by a predicate, popping both operands. -/
  | sel (g : Guard) (d a b : BitVec 5) (k : BitVec 3)
  /-- R60. Adds a sign-extended 11-bit immediate. -/
  | addi (g : Guard) (d a : BitVec 5) (i : BitVec 11)
  /-- R60. Bitwise AND with an immediate. -/
  | andi (g : Guard) (d a : BitVec 5) (i : BitVec 11)
  /-- R60. Bitwise OR with an immediate. -/
  | ori (g : Guard) (d a : BitVec 5) (i : BitVec 11)
  /-- R60. Bitwise XOR with an immediate. -/
  | xori (g : Guard) (d a : BitVec 5) (i : BitVec 11)
  /-- R60. Shifts left by an immediate amount. -/
  | shli (g : Guard) (d a : BitVec 5) (i : BitVec 6)
  /-- R60. Shifts right logically by an immediate amount. -/
  | shri (g : Guard) (d a : BitVec 5) (i : BitVec 6)
  /-- R60. Shifts right arithmetically by an immediate amount. -/
  | sari (g : Guard) (d a : BitVec 5) (i : BitVec 6)
  /-- R63. Writes a sign-extended 16-bit immediate. -/
  | movi (g : Guard) (d : BitVec 5) (i : BitVec 16)
  /-- R63. Shifts the destination left 16 bits and ORs in an immediate. -/
  | movhi (g : Guard) (d : BitVec 5) (i : BitVec 16)
  /-- R64. Writes a predicate true when the operands are equal. -/
  | cmpEq (g : Guard) (d : BitVec 3) (a b : BitVec 5)
  /-- R64. Writes a predicate true when the operands differ. -/
  | cmpNe (g : Guard) (d : BitVec 3) (a b : BitVec 5)
  /-- R64. Writes a predicate for signed less-than. -/
  | cmpLt (g : Guard) (d : BitVec 3) (a b : BitVec 5)
  /-- R64. Writes a predicate for unsigned less-than. -/
  | cmpLtu (g : Guard) (d : BitVec 3) (a b : BitVec 5)
  /-- R64. Writes a predicate for signed greater-or-equal. -/
  | cmpGe (g : Guard) (d : BitVec 3) (a b : BitVec 5)
  /-- R64. Writes a predicate for unsigned greater-or-equal. -/
  | cmpGeu (g : Guard) (d : BitVec 3) (a b : BitVec 5)
  /-- R64. Compares with an immediate for equality. -/
  | cmpiEq (g : Guard) (d : BitVec 3) (a : BitVec 5) (i : BitVec 11)
  /-- R64. Compares with an immediate for inequality. -/
  | cmpiNe (g : Guard) (d : BitVec 3) (a : BitVec 5) (i : BitVec 11)
  /-- R64. Compares with an immediate, signed less-than. -/
  | cmpiLt (g : Guard) (d : BitVec 3) (a : BitVec 5) (i : BitVec 11)
  /-- R64. Compares with a sign-extended immediate read as unsigned, less-than. -/
  | cmpiLtu (g : Guard) (d : BitVec 3) (a : BitVec 5) (i : BitVec 11)
  /-- R64. Compares with an immediate, signed greater-or-equal. -/
  | cmpiGe (g : Guard) (d : BitVec 3) (a : BitVec 5) (i : BitVec 11)
  /-- R64. Compares with an immediate read as unsigned, greater-or-equal. -/
  | cmpiGeu (g : Guard) (d : BitVec 3) (a : BitVec 5) (i : BitVec 11)
  /-- R65. ANDs two predicates. -/
  | pand (g : Guard) (d a b : BitVec 3)
  /-- R65. ORs two predicates. -/
  | por (g : Guard) (d a b : BitVec 3)
  /-- R65. XORs two predicates. -/
  | pxor (g : Guard) (d a b : BitVec 3)
  /-- R65. Negates a predicate. -/
  | pnot (g : Guard) (d a : BitVec 3)
  /-- R65. Copies one predicate to another. -/
  | pmovPp (g : Guard) (d a : BitVec 3)
  /-- R65. Sets a predicate from whether a scalar is non-zero. -/
  | pmovPs (g : Guard) (d : BitVec 3) (a : BitVec 5)
  /-- R65. Writes 1 or 0 to a scalar from a predicate. -/
  | pmovSp (g : Guard) (d : BitVec 5) (a : BitVec 3)
  /-- R66. Reads a queue's head entry without popping it. -/
  | qpeek (g : Guard) (d a : BitVec 5)
  /-- R66. Reads a queue's fill count. -/
  | qcnt (g : Guard) (d a : BitVec 5)
  /-- R66. Discards every landed entry of a queue, keeping pushes in flight. -/
  | qclr (g : Guard) (a : BitVec 5)
  /-- R68. Branches to PC plus a signed offset after two delay bundles. -/
  | br (g : Guard) (o : BitVec 21)
  /-- R68. Branches with two delay bundles and links P + 3 in s23. -/
  | call (g : Guard) (o : BitVec 21)
  /-- R68. Transfers to the bundle in a scalar after two delay bundles. -/
  | ret (g : Guard) (a : BitVec 5)
  /-- R68. Transfers to the bundle in a scalar after two delay bundles and links P + 3. -/
  | jmp (g : Guard) (d a : BitVec 5)
  /-- R70. Pushes a loop level with a count from a scalar, or skips the body when zero. -/
  | loop (g : Guard) (l : BitVec 13) (c : BitVec 5)
  /-- R70. Pushes a loop level with an immediate count. -/
  | loopi (g : Guard) (l : BitVec 13) (c : BitVec 8)
  /-- R70. Opens a replay loop with a scalar count and a stage count. -/
  | loopr (g : Guard) (l : BitVec 13) (s : BitVec 3) (c : BitVec 5)
  /-- R71. Pops the n innermost loop levels after its bundle. -/
  | lbrk (g : Guard) (n : BitVec 3)
  /-- R72. Reads the index of a live loop level counted from the outermost. -/
  | lidx (g : Guard) (d : BitVec 5) (l : BitVec 3)
  /-- R72. Reads the index of a live loop level counted from the innermost. -/
  | lidxIn (g : Guard) (d : BitVec 5) (l : BitVec 3)
  /-- R73. Writes an entry of the delta table. -/
  | dtld (g : Guard) (d : BitVec 5) (e : BitVec 6)
  /-- R74. Reads a system register. -/
  | sysr (g : Guard) (d : BitVec 5) (r : BitVec 10)
  /-- R74. Writes a system register field by field. -/
  | sysw (g : Guard) (d : BitVec 5) (r : BitVec 10)
  /-- R74. Sets RW bits and clears W1C bits of a system register. -/
  | syss (g : Guard) (d : BitVec 5) (r : BitVec 10)
  /-- R74. Clears RW bits of a system register. -/
  | sysc (g : Guard) (d : BitVec 5) (r : BitVec 10)
  /-- R75. Raises the software trap after its bundle takes effect. -/
  | trap (g : Guard) (n : BitVec 15)
  /-- R75. Stops the core and sends the Winder a service request until released. -/
  | trapSys (g : Guard) (n : BitVec 15)
  /-- R370. Returns from a trap, restoring levels, mode and restarting or dropping faulted commands. -/
  | eret (g : Guard)
  /-- R77. Stops issue and ends the record with normal completion. -/
  | halt (g : Guard)
  /-- R77. Stops issue and ends the record with an abort code. -/
  | haltAbort (g : Guard) (a : BitVec 5)
  /-- R79. Holds its bundle before issue until the outstanding counters fall to their bounds. -/
  | waitc (g : Guard) (l s c t : BitVec 4)
  /-- R80. Stops issue until CYCLE reaches a wake cycle, possibly a promise. -/
  | sleep (g : Guard) (a : BitVec 5)
  /-- R78. Writes the current CYCLE value. -/
  | cyc (g : Guard) (d : BitVec 5)
  /-- R82. Waits for instruction-scratchpad writes, discards prefetched bundles and returns the segment status word. -/
  | isync (g : Guard) (d : BitVec 5)
  /-- R81. Starts the background copy of a segment into its target half. -/
  | segmark (g : Guard) (a : BitVec 5)
  /-- R83. Transfers into a freshly loaded half after checking its copy and CRC. -/
  | bswap (g : Guard) (a : BitVec 5)
  /-- R136. Element-wise addition of two vector registers. -/
  | vadd (g : Guard) (v a b t : BitVec 4) (k : BitVec 3) (f : BitVec 2)
  /-- R136. Element-wise subtraction of two vector registers. -/
  | vsub (g : Guard) (v a b t : BitVec 4) (k : BitVec 3) (f : BitVec 2)
  /-- R136. Element-wise multiplication of two vector registers. -/
  | vmul (g : Guard) (v a b t : BitVec 4) (k : BitVec 3) (f : BitVec 2)
  /-- R136. Element-wise fused multiply-add into the destination. -/
  | vfma (g : Guard) (v a b t : BitVec 4) (k : BitVec 3) (f : BitVec 2)
  /-- R138. Element-wise minimum. -/
  | vmin (g : Guard) (v a b t : BitVec 4) (k : BitVec 3)
  /-- R138. Element-wise maximum. -/
  | vmax (g : Guard) (v a b t : BitVec 4) (k : BitVec 3)
  /-- R138. Element-wise absolute value. -/
  | vabs (g : Guard) (v a t : BitVec 4) (k : BitVec 3) (f : BitVec 1)
  /-- R138. Element-wise negation. -/
  | vneg (g : Guard) (v a t : BitVec 4) (k : BitVec 3) (f : BitVec 1)
  /-- R139. Element-wise bitwise AND. -/
  | vand (g : Guard) (v a b t : BitVec 4) (k : BitVec 3)
  /-- R139. Element-wise bitwise OR. -/
  | vor (g : Guard) (v a b t : BitVec 4) (k : BitVec 3)
  /-- R139. Element-wise bitwise XOR. -/
  | vxor (g : Guard) (v a b t : BitVec 4) (k : BitVec 3)
  /-- R139. Element-wise left shift. -/
  | vshl (g : Guard) (v a b t : BitVec 4) (k : BitVec 3)
  /-- R139. Element-wise logical right shift. -/
  | vshr (g : Guard) (v a b t : BitVec 4) (k : BitVec 3)
  /-- R139. Element-wise arithmetic right shift. -/
  | vsar (g : Guard) (v a b t : BitVec 4) (k : BitVec 3)
  /-- R140. Writes a mask of element-wise equality. -/
  | vcmpEq (g : Guard) (d : BitVec 3) (a b t : BitVec 4) (k : BitVec 3)
  /-- R140. Writes a mask of element-wise inequality. -/
  | vcmpNe (g : Guard) (d : BitVec 3) (a b t : BitVec 4) (k : BitVec 3)
  /-- R140. Writes a mask of element-wise less-than. -/
  | vcmpLt (g : Guard) (d : BitVec 3) (a b t : BitVec 4) (k : BitVec 3)
  /-- R140. Writes a mask of unsigned or unordered less-than. -/
  | vcmpLtu (g : Guard) (d : BitVec 3) (a b t : BitVec 4) (k : BitVec 3)
  /-- R140. Writes a mask of element-wise greater-or-equal. -/
  | vcmpGe (g : Guard) (d : BitVec 3) (a b t : BitVec 4) (k : BitVec 3)
  /-- R140. Writes a mask of unsigned or unordered greater-or-equal. -/
  | vcmpGeu (g : Guard) (d : BitVec 3) (a b t : BitVec 4) (k : BitVec 3)
  /-- R141. Selects elements of two registers by a mask. -/
  | vsel (g : Guard) (v a b t : BitVec 4) (k : BitVec 3)
  /-- R142. Converts every element between types, applying a rotation under its tag mode. -/
  | vcvt (g : Guard) (v a s t : BitVec 4) (k : BitVec 3) (f : BitVec 2)
  /-- R143. Rotates a register forward into a tag taken from a sign register. -/
  | vrot (g : Guard) (v a : BitVec 4) (n : BitVec 3) (t : BitVec 4) (k : BitVec 3) (f : BitVec 2)
  /-- R144. Applies the inverse rotation to an unrotated destination. -/
  | virot (g : Guard) (v a t : BitVec 4) (k : BitVec 3)
  /-- R145. Sums each row or column into one element. -/
  | vredSum (g : Guard) (v a t : BitVec 4) (k : BitVec 3) (u x : BitVec 1)
  /-- R145. Takes each row's or column's maximum. -/
  | vredMax (g : Guard) (v a t : BitVec 4) (k : BitVec 3) (x : BitVec 1)
  /-- R145. Takes each row's or column's minimum. -/
  | vredMin (g : Guard) (v a t : BitVec 4) (k : BitVec 3) (x : BitVec 1)
  /-- R146. Writes the transpose of a register. -/
  | vtrn (g : Guard) (v a t : BitVec 4) (k : BitVec 3)
  /-- R151. ANDs two vector masks. -/
  | kand (g : Guard) (d a b : BitVec 3)
  /-- R151. ORs two vector masks. -/
  | kor (g : Guard) (d a b : BitVec 3)
  /-- R151. Negates a vector mask. -/
  | knot (g : Guard) (d a : BitVec 3)
  /-- R136. Adds a broadcast scalar to every element. -/
  | vaddScalar (g : Guard) (v a : BitVec 4) (s : BitVec 5) (t : BitVec 4) (k : BitVec 3) (f : BitVec 1)
  /-- R136. Subtracts a broadcast scalar from every element. -/
  | vsubScalar (g : Guard) (v a : BitVec 4) (s : BitVec 5) (t : BitVec 4) (k : BitVec 3) (f : BitVec 1)
  /-- R136. Multiplies every element by a broadcast scalar. -/
  | vmulScalar (g : Guard) (v a : BitVec 4) (s : BitVec 5) (t : BitVec 4) (k : BitVec 3) (f : BitVec 1)
  /-- R136. Fused multiply-add with a broadcast scalar. -/
  | vfmaScalar (g : Guard) (v a : BitVec 4) (s : BitVec 5) (t : BitVec 4) (k : BitVec 3) (f : BitVec 1)
  /-- R138. Minimum against a broadcast scalar. -/
  | vminScalar (g : Guard) (v a : BitVec 4) (s : BitVec 5) (t : BitVec 4) (k : BitVec 3)
  /-- R138. Maximum against a broadcast scalar. -/
  | vmaxScalar (g : Guard) (v a : BitVec 4) (s : BitVec 5) (t : BitVec 4) (k : BitVec 3)
  /-- R139. Bitwise AND with a broadcast scalar. -/
  | vandScalar (g : Guard) (v a : BitVec 4) (s : BitVec 5) (t : BitVec 4) (k : BitVec 3)
  /-- R139. Bitwise OR with a broadcast scalar. -/
  | vorScalar (g : Guard) (v a : BitVec 4) (s : BitVec 5) (t : BitVec 4) (k : BitVec 3)
  /-- R139. Bitwise XOR with a broadcast scalar. -/
  | vxorScalar (g : Guard) (v a : BitVec 4) (s : BitVec 5) (t : BitVec 4) (k : BitVec 3)
  /-- R139. Left shift by a broadcast scalar amount. -/
  | vshlScalar (g : Guard) (v a : BitVec 4) (s : BitVec 5) (t : BitVec 4) (k : BitVec 3)
  /-- R139. Logical right shift by a broadcast scalar amount. -/
  | vshrScalar (g : Guard) (v a : BitVec 4) (s : BitVec 5) (t : BitVec 4) (k : BitVec 3)
  /-- R139. Arithmetic right shift by a broadcast scalar amount. -/
  | vsarScalar (g : Guard) (v a : BitVec 4) (s : BitVec 5) (t : BitVec 4) (k : BitVec 3)
  /-- R140. Mask of equality with a broadcast scalar. -/
  | vcmpEqScalar (g : Guard) (d : BitVec 3) (a : BitVec 4) (s : BitVec 5) (t : BitVec 4) (k : BitVec 3)
  /-- R140. Mask of inequality with a broadcast scalar. -/
  | vcmpNeScalar (g : Guard) (d : BitVec 3) (a : BitVec 4) (s : BitVec 5) (t : BitVec 4) (k : BitVec 3)
  /-- R140. Mask of less-than a broadcast scalar. -/
  | vcmpLtScalar (g : Guard) (d : BitVec 3) (a : BitVec 4) (s : BitVec 5) (t : BitVec 4) (k : BitVec 3)
  /-- R140. Mask of unsigned or unordered less-than a broadcast scalar. -/
  | vcmpLtuScalar (g : Guard) (d : BitVec 3) (a : BitVec 4) (s : BitVec 5) (t : BitVec 4) (k : BitVec 3)
  /-- R140. Mask of greater-or-equal a broadcast scalar. -/
  | vcmpGeScalar (g : Guard) (d : BitVec 3) (a : BitVec 4) (s : BitVec 5) (t : BitVec 4) (k : BitVec 3)
  /-- R140. Mask of unsigned or unordered greater-or-equal a broadcast scalar. -/
  | vcmpGeuScalar (g : Guard) (d : BitVec 3) (a : BitVec 4) (s : BitVec 5) (t : BitVec 4) (k : BitVec 3)
  /-- R147. Broadcasts a row, a column or a scalar to every element. -/
  | vbcast (g : Guard) (v a : BitVec 4) (s : BitVec 5) (t : BitVec 4) (k : BitVec 3) (f : BitVec 1)
  /-- R148. Writes a scalar plus the element or column index to each element. -/
  | viota (g : Guard) (v : BitVec 4) (s : BitVec 5) (t : BitVec 4) (k : BitVec 3) (c : BitVec 1)
  /-- R149. Pushes one element of a register into a queue register. -/
  | vext (g : Guard) (q : BitVec 3) (a : BitVec 4) (s : BitVec 5) (x : BitVec 1)
  /-- R149. Writes a scalar into one element of a register. -/
  | vins (g : Guard) (v : BitVec 4) (s : BitVec 5)
  /-- R150. Writes the shape register VSHAPE. -/
  | vshp (g : Guard) (s : BitVec 5)
  /-- R152. Builds a band mask from lo, hi and slope fields. -/
  | kwin (g : Guard) (d : BitVec 3) (s : BitVec 5) (k : BitVec 3)
  /-- R158. Computes 2^x per element, rounded once. -/
  | fexp2 (g : Guard) (v a t : BitVec 4) (k : BitVec 3)
  /-- R158. Computes log2 x per element. -/
  | flog2 (g : Guard) (v a t : BitVec 4) (k : BitVec 3)
  /-- R158. Computes 1/x per element. -/
  | frcp (g : Guard) (v a t : BitVec 4) (k : BitVec 3)
  /-- R158. Computes 1/sqrt x per element. -/
  | frsq (g : Guard) (v a t : BitVec 4) (k : BitVec 3)
  /-- R159. Computes the logistic sigmoid through a landing slot. -/
  | fsigm (g : Guard) (v a t : BitVec 4) (k : BitVec 3)
  /-- R159. Computes tanh through a landing slot. -/
  | ftanh (g : Guard) (v a t : BitVec 4) (k : BitVec 3)
  /-- R159. Computes erf through a landing slot. -/
  | ferf (g : Guard) (v a t : BitVec 4) (k : BitVec 3)
  /-- R160. Selects the k largest elements of each row as indices or values. -/
  | ftopk (g : Guard) (v a : BitVec 4) (s : BitVec 5) (t : BitVec 4) (k : BitVec 3) (l : BitVec 1)
  /-- R161. Pushes a chained fingerprint of 16 elements of a row into a queue. -/
  | fhkey (g : Guard) (q : BitVec 3) (a : BitVec 4) (s : BitVec 5) (r : BitVec 6)
  /-- R67. Loads one byte zero-extended from the scratchpad. -/
  | ld8 (g : Guard) (d : BitVec 5) (h : BitVec 8) (o : BitVec 5) (j : BitVec 3)
  /-- R67. Loads two bytes zero-extended. -/
  | ld16 (g : Guard) (d : BitVec 5) (h : BitVec 8) (o : BitVec 5) (j : BitVec 3)
  /-- R67. Loads four bytes zero-extended. -/
  | ld32 (g : Guard) (d : BitVec 5) (h : BitVec 8) (o : BitVec 5) (j : BitVec 3)
  /-- R67. Loads eight bytes. -/
  | ld64 (g : Guard) (d : BitVec 5) (h : BitVec 8) (o : BitVec 5) (j : BitVec 3)
  /-- R67. Loads one byte sign-extended. -/
  | ld8s (g : Guard) (d : BitVec 5) (h : BitVec 8) (o : BitVec 5) (j : BitVec 3)
  /-- R67. Loads two bytes sign-extended. -/
  | ld16s (g : Guard) (d : BitVec 5) (h : BitVec 8) (o : BitVec 5) (j : BitVec 3)
  /-- R67. Loads four bytes sign-extended. -/
  | ld32s (g : Guard) (d : BitVec 5) (h : BitVec 8) (o : BitVec 5) (j : BitVec 3)
  /-- R67. Stores one byte in the issue cycle. -/
  | st8 (g : Guard) (d : BitVec 5) (h : BitVec 8) (o : BitVec 5) (j : BitVec 3)
  /-- R67. Stores two bytes in the issue cycle. -/
  | st16 (g : Guard) (d : BitVec 5) (h : BitVec 8) (o : BitVec 5) (j : BitVec 3)
  /-- R67. Stores four bytes in the issue cycle. -/
  | st32 (g : Guard) (d : BitVec 5) (h : BitVec 8) (o : BitVec 5) (j : BitVec 3)
  /-- R67. Stores eight bytes in the issue cycle. -/
  | st64 (g : Guard) (d : BitVec 5) (h : BitVec 8) (o : BitVec 5) (j : BitVec 3)
  /-- R154. Loads a tile into a vector register through a tensor map, optionally converting or transposing. -/
  | vld (g : Guard) (v m : BitVec 4) (s : BitVec 5) (k : BitVec 3) (c x : BitVec 1)
  /-- R155. Stores a vector register to a tile through a tensor map. -/
  | vst (g : Guard) (v m : BitVec 4) (s : BitVec 5) (k : BitVec 3) (c x : BitVec 1)
  /-- R241. Indivisibly adds to a local scratchpad word and returns the old value. -/
  | atomAdd (g : Guard) (d : BitVec 5) (h : BitVec 8) (o : BitVec 5) (u w : BitVec 1)
  /-- R241. Indivisibly takes the minimum of a local word. -/
  | atomMin (g : Guard) (d : BitVec 5) (h : BitVec 8) (o : BitVec 5) (u w : BitVec 1)
  /-- R241. Indivisibly takes the maximum of a local word. -/
  | atomMax (g : Guard) (d : BitVec 5) (h : BitVec 8) (o : BitVec 5) (u w : BitVec 1)
  /-- R241. Indivisibly swaps a local word. -/
  | atomSwap (g : Guard) (d : BitVec 5) (h : BitVec 8) (o : BitVec 5) (u w : BitVec 1)
  /-- R241. Indivisibly compares and swaps a local word. -/
  | atomCas (g : Guard) (d : BitVec 5) (h : BitVec 8) (o : BitVec 5) (u w : BitVec 1)
  /-- R242. Ships an indivisible add to a remote core's bank; the old value lands later. -/
  | ratomAdd (g : Guard) (d : BitVec 5) (h : BitVec 8) (o : BitVec 5) (f u w : BitVec 1)
  /-- R242. Ships an indivisible minimum to a remote bank. -/
  | ratomMin (g : Guard) (d : BitVec 5) (h : BitVec 8) (o : BitVec 5) (f u w : BitVec 1)
  /-- R242. Ships an indivisible maximum to a remote bank. -/
  | ratomMax (g : Guard) (d : BitVec 5) (h : BitVec 8) (o : BitVec 5) (f u w : BitVec 1)
  /-- R242. Ships an indivisible swap to a remote bank. -/
  | ratomSwap (g : Guard) (d : BitVec 5) (h : BitVec 8) (o : BitVec 5) (f u w : BitVec 1)
  /-- R242. Ships an indivisible compare-and-swap to a remote bank. -/
  | ratomCas (g : Guard) (d : BitVec 5) (h : BitVec 8) (o : BitVec 5) (f u w : BitVec 1)
  /-- R244. Looks up a key in the core's tag table. -/
  | tlook (g : Guard) (d a : BitVec 5)
  /-- R245. Probes another core's tag table through a landing slot. -/
  | tlookR (g : Guard) (d a b : BitVec 5)
  /-- R244. Writes a key and payload into a tag-table slot and returns a status. -/
  | tset (g : Guard) (d a b : BitVec 5)
  /-- R244. Invalidates an unpinned tag-table slot. -/
  | tdel (g : Guard) (d a : BitVec 5)
  /-- R244. Increments a tag-table slot's pin count. -/
  | tpin (g : Guard) (d a : BitVec 5)
  /-- R244. Decrements a tag-table slot's pin count. -/
  | tunpin (g : Guard) (d a : BitVec 5)
  /-- R247. Loads a 64-byte tensor-map register image from the scratchpad. -/
  | tmld (g : Guard) (m : BitVec 4) (h : BitVec 8) (o : BitVec 5) (z : BitVec 4)
  /-- R247. Stores a tensor-map register image to the scratchpad. -/
  | tmst (g : Guard) (m : BitVec 4) (h : BitVec 8) (o : BitVec 5) (z : BitVec 4)
  /-- R248. Writes one selected field of a tensor-map register. -/
  | tmset (g : Guard) (m : BitVec 4) (a : BitVec 5) (x : BitVec 6)
  /-- R248. Clears all 512 bits of a tensor-map register. -/
  | tmsetClear (g : Guard) (m : BitVec 4)
  /-- R248. Adds to the base or an origin of a tensor-map register. -/
  | tmadd (g : Guard) (m : BitVec 4) (a : BitVec 5) (x : BitVec 6)
  /-- R249. Loads a sign register from a sign-table entry, waiting for HBM data. -/
  | sgset (g : Guard) (d : BitVec 3) (a b : BitVec 5)
  /-- R250. Places markers that hold later commands and remote effects until earlier ones are visible at the scope. -/
  | fenceScope (g : Guard) (s : BitVec 3)
  /-- R251. Orders earlier local stores before the core's later engine reads of its scratchpad. -/
  | fenceX (g : Guard)
  /-- R253. Sends an increment by n to a semaphore. -/
  | semsig (g : Guard) (a : BitVec 5) (n : BitVec 6)
  /-- R254. Requests a decrement and holds its bundle until the flag store grants it. -/
  | semwait (g : Guard) (a : BitVec 5)
  /-- R255. Arrives at a group barrier and waits for its release status. -/
  | barr (g : Guard) (d : BitVec 3) (s : BitVec 2)
  /-- R256. Pushes a value into a token queue, reporting success through a landing. -/
  | tqpush (g : Guard) (d : BitVec 3) (a b : BitVec 5)
  /-- R256. Pops a token queue head, delivering value and status through a landing. -/
  | tqpop (g : Guard) (d a : BitVec 5) (k : BitVec 3)
  /-- R204. Requests fusion into a gang with the cores of a mask and stops issue. -/
  | fuse (g : Guard) (m : BitVec 4)
  /-- R205. Decouples every member of a fused gang. -/
  | decouple (g : Guard)
  /-- R205. Waits until every gang member rejoins, then resumes fused. -/
  | rejoin (g : Guard)
  /-- R259. Reads a loop record and puts it into the die's task store, parked or ready. -/
  | taskput (g : Guard) (d : BitVec 3) (a b : BitVec 5)
  /-- R260. Reads a future or weight handle, or squashes the record when it is not FULL. -/
  | futrd (g : Guard) (d a : BitVec 5)
  /-- R261. Fences remote effects and sends a fill of a future to its entry home. -/
  | futfill (g : Guard) (a b : BitVec 5)
  /-- R184. Requests the face lease for up to n matrix commands. -/
  | mlease (g : Guard) (n : BitVec 8) (e : EngOpt)
  /-- R185. Ends the core's face lease. -/
  | mfree (g : Guard) (e : EngOpt)
  /-- R186. Loads a weight plane of the face from a source map. -/
  | mldw (g : Guard) (a : BitVec 4) (l u : BitVec 1) (c : BitVec 3) (e : EngOpt)
  /-- R188. Multiplies A rows by a plane into accumulator rows. -/
  | mrun (g : Guard) (a b : BitVec 4) (f h k : BitVec 1) (e : EngOpt)
  /-- R189. Scales, optionally rotates and narrows accumulator rows into a destination map. -/
  | mdrain (g : Guard) (a b : BitVec 4) (h k : BitVec 1) (e : EngOpt)
  /-- R190. Clears accumulator rows to kind CLEAR. -/
  | mclr (g : Guard) (b : BitVec 4) (e : EngOpt)
  /-- R191. Runs a known-answer test of a plane against a constant. -/
  | massay (g : Guard) (a b : BitVec 4) (l : BitVec 1) (e : EngOpt)
  /-- R337. Copies and converts elements along dimension 0 from a source map to a destination map. -/
  | copy (g : Guard) (a b : BitVec 4) (e : EngOpt)
  /-- R334. Copies over five dimensions, optionally transposing or gathering. -/
  | copy2 (g : Guard) (a b : BitVec 4) (t : BitVec 1) (e : EngOpt)
  /-- R335. Gathers rows selected by an index list into a destination map. -/
  | gath (g : Guard) (a b : BitVec 4) (e : EngOpt)
  /-- R339. Copies a source into the scratchpad of every group member. -/
  | mcast (g : Guard) (a b : BitVec 4) (f : BitVec 1) (l : BitVec 2) (e : EngOpt)
  /-- R340. Establishes a stream subscription that places packets into a ring. -/
  | subs (g : Guard) (a b : BitVec 4) (l : BitVec 1) (e : EngOpt)
  /-- R344. Ends the live subscription of a ring. -/
  | unsub (g : Guard) (a : BitVec 4) (e : EngOpt)
  /-- R345. Returns ring bytes to the producer. -/
  | rfree (g : Guard) (a b : BitVec 4) (e : EngOpt)
  /-- R346. Requests staging of a weight handle, optionally waiting for FULL. -/
  | hfetch (g : Guard) (a : BitVec 4) (l : BitVec 1) (e : EngOpt)
  /-- R347. Hands logits and candidates to the Prospector and returns the outcome word. -/
  | prosp (g : Guard) (a b : BitVec 4) (c : BitVec 3) (e : EngOpt)
  /-- R348. Rebinds a weight handle to another installed page. -/
  | hrebind (g : Guard) (a b : BitVec 4) (e : EngOpt)
  /-- R349. Submits a JPEG decode job descriptor to a decode unit. -/
  | decj (g : Guard) (a : BitVec 4) (c : BitVec 3) (e : EngOpt)
  /-- R350. Advances the context's version counter in host memory after a flushing read. -/
  | publish (g : Guard) (c : BitVec 3) (e : EngOpt)
  /-- R369. Takes a pending kind B or S event at a bundle boundary, entering the handler or halting. -/
  | trapEntry (c : Fin 256)
  /-- R288. A sleeping core wakes when CYCLE reaches its wake cycle and checks any promise. -/
  | sleepWake (c : Fin 256)
  /-- R289. A variable-latency result arrives, waiting in the landing buffer or ending a freeze. -/
  | landingArrival (m : Nat)
  /-- R289. A landing freeze lasting 4,096 cycles raises the fatal landing-watchdog trap. -/
  | landingWatchdog (c : Fin 256)
  /-- R228. The shadow context completes a handle-cache fill and the frozen bundle issues. -/
  | handleFill (c : Fin 256)
  /-- R228. A fill not completed within 65,536 cycles raises the fatal handle-fill trap. -/
  | handleFillTimeout (c : Fin 256)
  /-- R282. A queued engine command starts once its predecessor, resources, tokens, fences and acquire allow, after its start checks. -/
  | engineCommandStart (c : Fin 256) (q : Fin 3)
  /-- R284. An engine command completes, setting flags, pushing tokens, releasing and leaving its counters. -/
  | engineCommandComplete (c : Fin 256) (q : Fin 3) (n : Nat)
  /-- R169. The last A group enters the row buffer and an MRUN with C makes its release. -/
  | aTileConsumed (c : Fin 256) (n : Nat)
  /-- R164. The face grants its lease round-robin to a waiting request. -/
  | faceLeaseGrant (f : Fin 64)
  /-- R164. A lease expires after n commands or 65,536 cycles. -/
  | leaseExpiry (f : Fin 64)
  /-- R164. An expired or freed lease ends once every matrix command of the holder has completed. -/
  | leaseEnd (f : Fin 64)
  /-- R207. An increment from SEMSIG or a release reaches the flag store and is applied. -/
  | semaphoreIncrement (m : Nat)
  /-- R254. The flag store grants a waiting decrement and the waiting bundle or command proceeds. -/
  | semaphoreDecrementGrant (d : Fin 4) (f : Fin 4096)
  /-- R209. A token-queue push reaches the flag store and succeeds or fails. -/
  | tokenQueuePush (m : Nat)
  /-- R209. A token-queue pop reaches the flag store and takes the head or fails. -/
  | tokenQueuePop (m : Nat)
  /-- R202. A member's arrival reaches the group table and sets its ARRIVED bit. -/
  | barrierArrival (m : Nat)
  /-- R255. A release reaches a waiting member, which resumes with the status. -/
  | barrierResume (m : Nat)
  /-- R204. In the cycle after every named core has issued FUSE, all resume fused. -/
  | gangFuse (k : Fin 64) (mask : BitVec 4)
  /-- R204. A FUSE or REJOIN pending 65,536 cycles raises the gang trap with the timeout sub-cause. -/
  | gangTimeout (c : Fin 256)
  /-- R205. When every current member has issued REJOIN, the gang resumes fused. -/
  | gangRejoin (k : Fin 64)
  /-- R242. A remote atomic step is applied at the owner's bank at the end of its cycle. -/
  | ratomStep (m : Nat)
  /-- R245. A TLOOK.R probe is made at the end of a cycle of the target core. -/
  | remoteTagProbe (m : Nat)
  /-- R261. The entry home applies a fill, making the future FULL and lowering DEPC of parked records. -/
  | futureFillApply (m : Nat)
  /-- R261. The home's answer reaches the core and the FUTFILL bundle issues or traps. -/
  | futfillAnswer (m : Nat)
  /-- R309. A staging-fetch request reaches its die's fetch queue. -/
  | fetchRequest (m : Nat)
  /-- R309. The fetch queue serves a request, taking a slot and starting a flash read or satisfying it. -/
  | fetchQueueServe (d : Fin 4)
  /-- R308. The last byte of a staged copy is visible and the weight handle becomes FULL. -/
  | stagingFetchComplete (x : Fin 64) (slot : Nat)
  /-- R313. The Prospector ends selection and requests staging of the selected handles. -/
  | prospectorSelection (d : Fin 4)
  /-- R316. A rebinding change is applied or refused at the handle entry's home. -/
  | hrebindApply (m : Nat)
  /-- R81. A segment copy lands and its CRC result is recorded in the segment status word. -/
  | segmentCopyLand (c : Fin 256)
  /-- R295. The stream engine places a packet into a ring once room allows and increments the release flag. -/
  | packetPlace (c : Fin 256) (n : Nat)
  /-- R342. The stream engine rereads a LIST record whose VALID is 0. -/
  | listRecordReread (c : Fin 256) (n : Nat)
  /-- R349. A decode unit accepts a job into its FIFO and the DECJ starts. -/
  | decodeJobAccept (c : Fin 256)
  /-- R320. A lane finishes or fails one chunk of a job. -/
  | decodeChunkFinish (u : Fin 2)
  /-- R327. A job completes and its status word lands in the result queue. -/
  | decodeJobComplete (u : Fin 2)
  /-- R276. A flushing read's completion returns and the waiting SYSTEM release increments. -/
  | hostFlushReadComplete (m : Nat)
  /-- R279. A peer acknowledges placed packets, allowing a SYSTEM-scope release. -/
  | netAckReceive (m : Nat)
  /-- R417. An inbound RMA write is placed in a receive window and acknowledged, or refused. -/
  | netPacketReceive (x : Fin 64) (window : Fin 64) (offset : Nat) (bytes : List (BitVec 8))
  /-- R30. Reset leaves every core halted with its reset state. -/
  | powerOnReset
  /-- R410. Each 128-cycle frame polls doorbells, takes queue entries and writes bind records. -/
  | winderFrame
  /-- R197. The dispatch hardware carries out a START bind record and starts a record on a core. -/
  | start (c : Fin 256)
  /-- R375. A RESUME bind record restores a pre-empted record on its core. -/
  | resume (c : Fin 256)
  /-- R374. A PREEMPT bind record delivers a pre-emption request to a core. -/
  | preempt (c : Fin 256)
  /-- R375. At an honour point the core drains and saves its context to HBM and becomes idle. -/
  | preemptHonour (c : Fin 256)
  /-- R419. A cluster idle for 1,024 cycles enters CLOCK, or RETAIN when STAY is 0. -/
  | clusterClockGate (k : Fin 64)
  /-- R419. A cluster leaves CLOCK after 16 cycles. -/
  | clusterClockWake (k : Fin 64)
  /-- R419. A cluster leaving RETAIN ends its 2,100-cycle wake handshake and its waiting bind is carried out. -/
  | retainWakeHandshake (k : Fin 64)
  /-- R420. Throttling changes a die's clock step at a frame boundary and reports THERMAL. -/
  | thermalStepChange (d : Fin 4) (v : BitVec 2)
  /-- R390. At each window boundary counts reset, suspicion scores halve and FHCBIT rolls over. -/
  | countingWindowBoundary
  /-- R394. A repair engine starts a row, bank-row or lane step onto a spare. -/
  | repairStepStart (stack : Fin 12) (pch : Fin 32) (res : Fin 3) (unit : Nat) (len : Nat)
  /-- R395. A repair step ends, releasing stalled accesses and lowering SPAREBUDGET. -/
  | repairStepEnd (stack : Fin 12) (pch : Fin 32)
  /-- R400. A page retirement takes effect at cut T. -/
  | retirementCut (x : Fin 64) (va : BitVec 40) (res : BitVec 2) (stack : Fin 12) (finder : Nat)
  /-- R399. The Winder writes a retirement-list entry and raises the RETIRE event. -/
  | retirementReport (x : Fin 64)
  /-- R392. A scheduled structural test of an idle core or lease-free face starts. -/
  | targetedTestStart (u : Fin 320)
  /-- R392. A targeted test ends, clearing the score or quarantining the cluster. -/
  | targetedTestEnd (u : Fin 320) (pass : BitVec 1)
  /-- R393. A quarantined cluster is fenced once no record runs on it. -/
  | clusterFence (k : Fin 64)
  /-- R194. A LAUNCH entry checks a launch record, assigns a number and launches a kernel image on a core set. -/
  | launch (q : Fin 1024)
  /-- R412. A POST entry puts a loop record into its launch's home-die task store. -/
  | post (q : Fin 1024)
  /-- R302. An INSTALL entry verifies and writes a model image into the context's flash region. -/
  | install (q : Fin 1024)
  /-- R317. An UNINSTALL entry removes a model that no binding of a pinned handle names. -/
  | uninstall (q : Fin 1024)
  /-- R412. A RELEASE entry resumes a core held by TRAP.SYS. -/
  | release (q : Fin 1024)
  /-- R418. An ATTEST entry writes a signed attestation report. -/
  | attest (q : Fin 1024)
  /-- R414. A CONTEXT entry with OP 1 creates a context and maps its Winder areas. -/
  | contextCreate (q : Fin 1024)
  /-- R414. A CONTEXT entry with OP 2 destroys a context once no launch runs. -/
  | contextDestroy (q : Fin 1024)
  /-- R415. A WINDOW entry sets a host or network window of the context. -/
  | window (q : Fin 1024)
  /-- R412. A KILL entry ends every record of a launch. -/
  | kill (q : Fin 1024)
  /-- R416. A MAP entry with OP 1 maps fresh zeroed HBM pages. -/
  | map (q : Fin 1024)
  /-- R416. A MAP entry with OP 2 clears and frees HBM pages. -/
  | unmap (q : Fin 1024)
  /-- R416. An XFER entry with ARG[63] 0 copies host bytes into context HBM. -/
  | xferToDevice (q : Fin 1024)
  /-- R416. An XFER entry with ARG[63] 1 copies context HBM bytes to the host. -/
  | xferToHost (q : Fin 1024)
  /-- R412. An entry with an unknown kind or non-zero zero field completes with STATUS 1. -/
  | badkindEntry (q : Fin 1024)
  /-- R409. A doorbell write sets a host queue's producer count, or is refused as an overrun. -/
  | doorbell (src : Nat) (q : Fin 1024) (v : BitVec 64)
  /-- R408. A task-register write reads a loop record and puts it into a die's task store. -/
  | taskRegister (src : Nat) (d : Fin 4) (l : Fin 256) (v : BitVec 64)
  /-- R419. A cluster wake register write sets STAY, waking a cluster from RETAIN when 1. -/
  | clusterWakeRegister (src : Nat) (k : Fin 64) (v : BitVec 64)
  /-- R406. A write sets the counting-window shift, taking effect at the next aligned boundary. -/
  | winshift (v : BitVec 64)
  /-- R406. A write-one-to-clear write lowers the dropped wake-write count. -/
  | wakeerr (v : BitVec 64)
  /-- R404. A write to a device register with no behaviour of its own, ignored where unlisted. -/
  | registerWrite (src : Nat) (bar : Nat) (offset : Nat) (bytes : List (BitVec 8))
  /-- R249. The 32 bytes of an HBM sign-table entry arrive, and the SGSET bundle that waited before issue now issues with its checks. -/
  | signTableReadArrival (c : Fin 256)
  /-- R304. The flash translation layer rewrites a block under read disturb, raising FHRDR.REFRESH and possibly retiring a bad block onto a spare. -/
  | readDisturbRefresh (stack : Fin 8) (bad : BitVec 1)
  /-- R304. The flash translation layer moves data between blocks to level wear, changing FHWEAR and possibly retiring blocks onto spares or setting NOWRITE. -/
  | wearLevelling (stack : Fin 8) (meanPe : BitVec 32) (maxPe : BitVec 32) (bad : Nat)
  /-- R420. A compute die's temperature crosses its throttle threshold, setting or clearing THERM.HOT. -/
  | throttleThresholdCrossing (d : Fin 4) (hot : BitVec 1)
  deriving DecidableEq, Repr

/-- The slot classes of 02 R46 to R48; SB refuses the instructions that exist only in SA. -/
inductive SlotClass where
  | sa | sb | vector | fn | mem
  deriving DecidableEq, Repr

end Sys2Proof
end

