-- ==== Sys2Proof/WellFormed.lean ====
section
/-! DEFINITION. Which values of used fields the spec reserves (02 R42): a well-formed instruction has none of them. -/

namespace Sys2Proof

/-- 02 R40: Y = 1 needs SCOPE = 0b11. -/
abbrev EngOpt.yOk (e : EngOpt) : Prop := e.y = 0 ∨ e.scope = 3

/-- The reserved-value rules of the used fields: 03 R63 to R72, 07 R135, R142, R157, 09 R179, 12 R239, R240, R248, R250, 16 R329. -/
def Instr.wf : Instr → Bool
  | .nop => true
  | .add _ _ _ _ => true
  | .sub _ _ _ _ => true
  | .mul _ _ _ _ => true
  | .mulh _ _ _ _ => true
  | .mulhu _ _ _ _ => true
  | .div _ _ _ _ => true
  | .divU _ _ _ _ => true
  | .rem _ _ _ _ => true
  | .remU _ _ _ _ => true
  | .and _ _ _ _ => true
  | .or _ _ _ _ => true
  | .xor _ _ _ _ => true
  | .shl _ _ _ _ => true
  | .shr _ _ _ _ => true
  | .sar _ _ _ _ => true
  | .rotl _ _ _ _ => true
  | .min _ _ _ _ => true
  | .max _ _ _ _ => true
  | .minu _ _ _ _ => true
  | .maxu _ _ _ _ => true
  | .clz _ _ _ => true
  | .popc _ _ _ => true
  | .sel _ _ _ _ _ => true
  | .addi _ _ _ _ => true
  | .andi _ _ _ _ => true
  | .ori _ _ _ _ => true
  | .xori _ _ _ _ => true
  | .shli _ _ _ _ => true
  | .shri _ _ _ _ => true
  | .sari _ _ _ _ => true
  | .movi _ _ _ => true
  | .movhi _ d _ => decide (d.toNat < 24)
  | .cmpEq _ _ _ _ => true
  | .cmpNe _ _ _ _ => true
  | .cmpLt _ _ _ _ => true
  | .cmpLtu _ _ _ _ => true
  | .cmpGe _ _ _ _ => true
  | .cmpGeu _ _ _ _ => true
  | .cmpiEq _ _ _ _ => true
  | .cmpiNe _ _ _ _ => true
  | .cmpiLt _ _ _ _ => true
  | .cmpiLtu _ _ _ _ => true
  | .cmpiGe _ _ _ _ => true
  | .cmpiGeu _ _ _ _ => true
  | .pand _ _ _ _ => true
  | .por _ _ _ _ => true
  | .pxor _ _ _ _ => true
  | .pnot _ _ _ => true
  | .pmovPp _ _ _ => true
  | .pmovPs _ _ _ => true
  | .pmovSp _ _ _ => true
  | .qpeek _ _ a => decide (24 ≤ a.toNat)
  | .qcnt _ _ a => decide (24 ≤ a.toNat)
  | .qclr _ a => decide (24 ≤ a.toNat)
  | .br _ _ => true
  | .call _ _ => true
  | .ret _ _ => true
  | .jmp _ _ _ => true
  | .loop _ _ _ => true
  | .loopi _ _ _ => true
  | .loopr _ _ s _ => decide (s.toNat < 4)
  | .lbrk _ n => decide (n.toNat < 6)
  | .lidx _ _ l => decide (l.toNat < 6)
  | .lidxIn _ _ l => decide (l.toNat < 6)
  | .dtld _ _ _ => true
  | .sysr _ _ _ => true
  | .sysw _ _ _ => true
  | .syss _ _ _ => true
  | .sysc _ _ _ => true
  | .trap _ _ => true
  | .trapSys _ _ => true
  | .eret _ => true
  | .halt _ => true
  | .haltAbort _ _ => true
  | .waitc _ _ _ _ _ => true
  | .sleep _ _ => true
  | .cyc _ _ => true
  | .isync _ _ => true
  | .segmark _ _ => true
  | .bswap _ _ => true
  | .vadd _ _ _ _ t _ f => decide (f.toNat < 2 ∨ 8 ≤ t.toNat)
  | .vsub _ _ _ _ t _ f => decide (f.toNat < 2 ∨ 8 ≤ t.toNat)
  | .vmul _ _ _ _ t _ f => decide (f.toNat < 2 ∨ 8 ≤ t.toNat)
  | .vfma _ _ _ _ t _ f => decide (f.toNat < 2 ∨ 8 ≤ t.toNat)
  | .vmin _ _ _ _ _ _ => true
  | .vmax _ _ _ _ _ _ => true
  | .vabs _ _ _ t _ f => decide (f = 0 ∨ t.toNat < 8)
  | .vneg _ _ _ t _ f => decide (f = 0 ∨ t.toNat < 8)
  | .vand _ _ _ _ _ _ => true
  | .vor _ _ _ _ _ _ => true
  | .vxor _ _ _ _ _ _ => true
  | .vshl _ _ _ _ t _ => decide (t.toNat < 8)
  | .vshr _ _ _ _ t _ => decide (t.toNat < 8)
  | .vsar _ _ _ _ t _ => decide (t.toNat < 8)
  | .vcmpEq _ _ _ _ _ _ => true
  | .vcmpNe _ _ _ _ _ _ => true
  | .vcmpLt _ _ _ _ _ _ => true
  | .vcmpLtu _ _ _ _ _ _ => true
  | .vcmpGe _ _ _ _ _ _ => true
  | .vcmpGeu _ _ _ _ _ _ => true
  | .vsel _ _ _ _ _ _ => true
  | .vcvt _ _ _ _ _ _ f => decide (f.toNat < 3)
  | .vrot _ _ _ _ _ _ _ => true
  | .virot _ _ _ _ _ => true
  | .vredSum _ _ _ t _ u _ => decide (u = 0 ∨ t.toNat < 8)
  | .vredMax _ _ _ _ _ _ => true
  | .vredMin _ _ _ _ _ _ => true
  | .vtrn _ _ _ _ _ => true
  | .kand _ _ _ _ => true
  | .kor _ _ _ _ => true
  | .knot _ _ _ => true
  | .vaddScalar _ _ _ _ _ _ _ => true
  | .vsubScalar _ _ _ _ _ _ _ => true
  | .vmulScalar _ _ _ _ _ _ _ => true
  | .vfmaScalar _ _ _ _ _ _ _ => true
  | .vminScalar _ _ _ _ _ _ => true
  | .vmaxScalar _ _ _ _ _ _ => true
  | .vandScalar _ _ _ _ _ _ => true
  | .vorScalar _ _ _ _ _ _ => true
  | .vxorScalar _ _ _ _ _ _ => true
  | .vshlScalar _ _ _ _ t _ => decide (t.toNat < 8)
  | .vshrScalar _ _ _ _ t _ => decide (t.toNat < 8)
  | .vsarScalar _ _ _ _ t _ => decide (t.toNat < 8)
  | .vcmpEqScalar _ _ _ _ _ _ => true
  | .vcmpNeScalar _ _ _ _ _ _ => true
  | .vcmpLtScalar _ _ _ _ _ _ => true
  | .vcmpLtuScalar _ _ _ _ _ _ => true
  | .vcmpGeScalar _ _ _ _ _ _ => true
  | .vcmpGeuScalar _ _ _ _ _ _ => true
  | .vbcast _ _ a _ _ _ f => decide (f = 0 ∨ a = 0)
  | .viota _ _ _ t _ _ => decide (t.toNat < 8)
  | .vext _ _ _ _ _ => true
  | .vins _ _ _ => true
  | .vshp _ _ => true
  | .kwin _ _ _ _ => true
  | .fexp2 _ _ _ t _ => decide (8 ≤ t.toNat ∧ t.toNat ≤ 10)
  | .flog2 _ _ _ t _ => decide (8 ≤ t.toNat ∧ t.toNat ≤ 10)
  | .frcp _ _ _ t _ => decide (8 ≤ t.toNat ∧ t.toNat ≤ 10)
  | .frsq _ _ _ t _ => decide (8 ≤ t.toNat ∧ t.toNat ≤ 10)
  | .fsigm _ _ _ t _ => decide (8 ≤ t.toNat ∧ t.toNat ≤ 10)
  | .ftanh _ _ _ t _ => decide (8 ≤ t.toNat ∧ t.toNat ≤ 10)
  | .ferf _ _ _ t _ => decide (8 ≤ t.toNat ∧ t.toNat ≤ 10)
  | .ftopk _ _ _ _ _ _ _ => true
  | .fhkey _ _ _ _ _ => true
  | .ld8 _ _ _ _ _ => true
  | .ld16 _ _ _ _ _ => true
  | .ld32 _ _ _ _ _ => true
  | .ld64 _ _ _ _ _ => true
  | .ld8s _ _ _ _ _ => true
  | .ld16s _ _ _ _ _ => true
  | .ld32s _ _ _ _ _ => true
  | .st8 _ _ _ _ _ => true
  | .st16 _ _ _ _ _ => true
  | .st32 _ _ _ _ _ => true
  | .st64 _ _ _ _ _ => true
  | .vld _ _ _ _ _ _ _ => true
  | .vst _ _ _ _ _ _ _ => true
  | .atomAdd _ d _ _ _ _ => decide (d.toNat < 24)
  | .atomMin _ d _ _ _ _ => decide (d.toNat < 24)
  | .atomMax _ d _ _ _ _ => decide (d.toNat < 24)
  | .atomSwap _ d _ _ _ _ => decide (d.toNat < 24)
  | .atomCas _ d _ _ _ _ => decide (1 ≤ d.toNat ∧ d.toNat ≤ 22)
  | .ratomAdd _ d _ _ _ _ _ => decide (d.toNat < 24)
  | .ratomMin _ d _ _ _ _ _ => decide (d.toNat < 24)
  | .ratomMax _ d _ _ _ _ _ => decide (d.toNat < 24)
  | .ratomSwap _ d _ _ _ _ _ => decide (d.toNat < 24)
  | .ratomCas _ d _ _ _ _ _ => decide (1 ≤ d.toNat ∧ d.toNat ≤ 22)
  | .tlook _ _ _ => true
  | .tlookR _ _ _ _ => true
  | .tset _ _ _ _ => true
  | .tdel _ _ _ => true
  | .tpin _ _ _ => true
  | .tunpin _ _ _ => true
  | .tmld _ _ _ _ _ => true
  | .tmst _ _ _ _ _ => true
  | .tmset _ _ _ x => decide (x.toNat ≤ 4 ∨ (8 ≤ x.toNat ∧ x.toNat ≤ 12) ∨ (16 ≤ x.toNat ∧ x.toNat ≤ 20) ∨ (24 ≤ x.toNat ∧ x.toNat ≤ 28) ∨ x.toNat = 32)
  | .tmsetClear _ _ => true
  | .tmadd _ _ _ x => decide (x.toNat = 4 ∨ (16 ≤ x.toNat ∧ x.toNat ≤ 20))
  | .sgset _ _ _ _ => true
  | .fenceScope _ s => decide (s.toNat < 5)
  | .fenceX _ => true
  | .semsig _ _ _ => true
  | .semwait _ _ => true
  | .barr _ _ _ => true
  | .tqpush _ _ _ _ => true
  | .tqpop _ d _ _ => decide (d.toNat < 24)
  | .fuse _ _ => true
  | .decouple _ => true
  | .rejoin _ => true
  | .taskput _ _ _ _ => true
  | .futrd _ _ _ => true
  | .futfill _ _ _ => true
  | .mlease _ n e => decide (e.yOk ∧ e.p = 0 ∧ 1 ≤ n.toNat ∧ n.toNat ≤ 64)
  | .mfree _ e => decide (e.yOk ∧ e.p = 0)
  | .mldw _ _ _ _ c e => decide (e.yOk ∧ c.toNat < 4)
  | .mrun _ _ _ _ h _ e => decide (e.yOk ∧ (h = 0 ∨ e.rel = 1))
  | .mdrain _ _ _ _ _ e => decide (e.yOk)
  | .mclr _ _ e => decide (e.yOk)
  | .massay _ _ _ _ e => decide (e.yOk)
  | .copy _ _ _ e => decide (e.yOk)
  | .copy2 _ _ _ _ e => decide (e.yOk)
  | .gath _ _ _ e => decide (e.yOk ∧ e.tpp = 0 ∧ e.thp = 0)
  | .mcast _ _ _ _ _ e => decide (e.yOk ∧ e.tpn = 0 ∧ e.thn = 0)
  | .subs _ _ _ _ e => decide (e.yOk ∧ e.tpp = 0 ∧ e.thp = 0)
  | .unsub _ _ e => decide (e.yOk ∧ e.tpp = 0 ∧ e.thp = 0)
  | .rfree _ _ _ e => decide (e.yOk ∧ e.tpn = 0 ∧ e.thn = 0)
  | .hfetch _ _ _ e => decide (e.yOk ∧ e.tpp = 0 ∧ e.thp = 0)
  | .prosp _ _ _ c e => decide (e.yOk ∧ e.tpn = 0 ∧ e.thn = 0 ∧ c.toNat ≠ 6)
  | .hrebind _ _ _ e => decide (e.yOk ∧ e.tpn = 0 ∧ e.thn = 0)
  | .decj _ _ c e => decide (e.yOk ∧ e.p = 0 ∧ e.tpn = 0 ∧ e.thn = 0 ∧ c.toNat ≠ 6)
  | .publish _ c e => decide (e.yOk ∧ e.p = 0 ∧ e.tpn = 0 ∧ e.thn = 0 ∧ c.toNat ≠ 6)
  | .trapEntry _ => true
  | .sleepWake _ => true
  | .landingArrival _ => true
  | .landingWatchdog _ => true
  | .handleFill _ => true
  | .handleFillTimeout _ => true
  | .engineCommandStart _ _ => true
  | .engineCommandComplete _ _ _ => true
  | .aTileConsumed _ _ => true
  | .faceLeaseGrant _ => true
  | .leaseExpiry _ => true
  | .leaseEnd _ => true
  | .semaphoreIncrement _ => true
  | .semaphoreDecrementGrant _ _ => true
  | .tokenQueuePush _ => true
  | .tokenQueuePop _ => true
  | .barrierArrival _ => true
  | .barrierResume _ => true
  | .gangFuse _ _ => true
  | .gangTimeout _ => true
  | .gangRejoin _ => true
  | .ratomStep _ => true
  | .remoteTagProbe _ => true
  | .futureFillApply _ => true
  | .futfillAnswer _ => true
  | .fetchRequest _ => true
  | .fetchQueueServe _ => true
  | .stagingFetchComplete _ _ => true
  | .prospectorSelection _ => true
  | .hrebindApply _ => true
  | .segmentCopyLand _ => true
  | .packetPlace _ _ => true
  | .listRecordReread _ _ => true
  | .decodeJobAccept _ => true
  | .decodeChunkFinish _ => true
  | .decodeJobComplete _ => true
  | .hostFlushReadComplete _ => true
  | .netAckReceive _ => true
  | .netPacketReceive _ _ _ _ => true
  | .powerOnReset => true
  | .winderFrame => true
  | .start _ => true
  | .resume _ => true
  | .preempt _ => true
  | .preemptHonour _ => true
  | .clusterClockGate _ => true
  | .clusterClockWake _ => true
  | .retainWakeHandshake _ => true
  | .thermalStepChange _ _ => true
  | .countingWindowBoundary => true
  | .repairStepStart _ _ _ _ _ => true
  | .repairStepEnd _ _ => true
  | .retirementCut _ _ _ _ _ => true
  | .retirementReport _ => true
  | .targetedTestStart _ => true
  | .targetedTestEnd _ _ => true
  | .clusterFence _ => true
  | .launch _ => true
  | .post _ => true
  | .install _ => true
  | .uninstall _ => true
  | .release _ => true
  | .attest _ => true
  | .contextCreate _ => true
  | .contextDestroy _ => true
  | .window _ => true
  | .kill _ => true
  | .map _ => true
  | .unmap _ => true
  | .xferToDevice _ => true
  | .xferToHost _ => true
  | .badkindEntry _ => true
  | .doorbell _ _ _ => true
  | .taskRegister _ _ _ _ => true
  | .clusterWakeRegister _ _ _ => true
  | .winshift _ => true
  | .wakeerr _ => true
  | .registerWrite _ _ _ _ => true
  | .signTableReadArrival _ => true
  | .readDisturbRefresh _ _ => true
  | .wearLevelling _ _ _ _ => true
  | .throttleThresholdCrossing _ _ => true

/-- The classes of the opcode table's rows; an event has no slot word. -/
def Instr.slotClass : Instr → Option SlotClass
  | .nop => some .sa
  | .add _ _ _ _ => some .sa
  | .sub _ _ _ _ => some .sa
  | .mul _ _ _ _ => some .sa
  | .mulh _ _ _ _ => some .sa
  | .mulhu _ _ _ _ => some .sa
  | .div _ _ _ _ => some .sa
  | .divU _ _ _ _ => some .sa
  | .rem _ _ _ _ => some .sa
  | .remU _ _ _ _ => some .sa
  | .and _ _ _ _ => some .sa
  | .or _ _ _ _ => some .sa
  | .xor _ _ _ _ => some .sa
  | .shl _ _ _ _ => some .sa
  | .shr _ _ _ _ => some .sa
  | .sar _ _ _ _ => some .sa
  | .rotl _ _ _ _ => some .sa
  | .min _ _ _ _ => some .sa
  | .max _ _ _ _ => some .sa
  | .minu _ _ _ _ => some .sa
  | .maxu _ _ _ _ => some .sa
  | .clz _ _ _ => some .sa
  | .popc _ _ _ => some .sa
  | .sel _ _ _ _ _ => some .sa
  | .addi _ _ _ _ => some .sa
  | .andi _ _ _ _ => some .sa
  | .ori _ _ _ _ => some .sa
  | .xori _ _ _ _ => some .sa
  | .shli _ _ _ _ => some .sa
  | .shri _ _ _ _ => some .sa
  | .sari _ _ _ _ => some .sa
  | .movi _ _ _ => some .sa
  | .movhi _ _ _ => some .sa
  | .cmpEq _ _ _ _ => some .sa
  | .cmpNe _ _ _ _ => some .sa
  | .cmpLt _ _ _ _ => some .sa
  | .cmpLtu _ _ _ _ => some .sa
  | .cmpGe _ _ _ _ => some .sa
  | .cmpGeu _ _ _ _ => some .sa
  | .cmpiEq _ _ _ _ => some .sa
  | .cmpiNe _ _ _ _ => some .sa
  | .cmpiLt _ _ _ _ => some .sa
  | .cmpiLtu _ _ _ _ => some .sa
  | .cmpiGe _ _ _ _ => some .sa
  | .cmpiGeu _ _ _ _ => some .sa
  | .pand _ _ _ _ => some .sa
  | .por _ _ _ _ => some .sa
  | .pxor _ _ _ _ => some .sa
  | .pnot _ _ _ => some .sa
  | .pmovPp _ _ _ => some .sa
  | .pmovPs _ _ _ => some .sa
  | .pmovSp _ _ _ => some .sa
  | .qpeek _ _ _ => some .sa
  | .qcnt _ _ _ => some .sa
  | .qclr _ _ => some .sa
  | .br _ _ => some .sa
  | .call _ _ => some .sa
  | .ret _ _ => some .sa
  | .jmp _ _ _ => some .sa
  | .loop _ _ _ => some .sa
  | .loopi _ _ _ => some .sa
  | .loopr _ _ _ _ => some .sa
  | .lbrk _ _ => some .sa
  | .lidx _ _ _ => some .sa
  | .lidxIn _ _ _ => some .sa
  | .dtld _ _ _ => some .sa
  | .sysr _ _ _ => some .sa
  | .sysw _ _ _ => some .sa
  | .syss _ _ _ => some .sa
  | .sysc _ _ _ => some .sa
  | .trap _ _ => some .sa
  | .trapSys _ _ => some .sa
  | .eret _ => some .sa
  | .halt _ => some .sa
  | .haltAbort _ _ => some .sa
  | .waitc _ _ _ _ _ => some .sa
  | .sleep _ _ => some .sa
  | .cyc _ _ => some .sa
  | .isync _ _ => some .sa
  | .segmark _ _ => some .sa
  | .bswap _ _ => some .sa
  | .vadd _ _ _ _ _ _ _ => some .vector
  | .vsub _ _ _ _ _ _ _ => some .vector
  | .vmul _ _ _ _ _ _ _ => some .vector
  | .vfma _ _ _ _ _ _ _ => some .vector
  | .vmin _ _ _ _ _ _ => some .vector
  | .vmax _ _ _ _ _ _ => some .vector
  | .vabs _ _ _ _ _ _ => some .vector
  | .vneg _ _ _ _ _ _ => some .vector
  | .vand _ _ _ _ _ _ => some .vector
  | .vor _ _ _ _ _ _ => some .vector
  | .vxor _ _ _ _ _ _ => some .vector
  | .vshl _ _ _ _ _ _ => some .vector
  | .vshr _ _ _ _ _ _ => some .vector
  | .vsar _ _ _ _ _ _ => some .vector
  | .vcmpEq _ _ _ _ _ _ => some .vector
  | .vcmpNe _ _ _ _ _ _ => some .vector
  | .vcmpLt _ _ _ _ _ _ => some .vector
  | .vcmpLtu _ _ _ _ _ _ => some .vector
  | .vcmpGe _ _ _ _ _ _ => some .vector
  | .vcmpGeu _ _ _ _ _ _ => some .vector
  | .vsel _ _ _ _ _ _ => some .vector
  | .vcvt _ _ _ _ _ _ _ => some .vector
  | .vrot _ _ _ _ _ _ _ => some .vector
  | .virot _ _ _ _ _ => some .vector
  | .vredSum _ _ _ _ _ _ _ => some .vector
  | .vredMax _ _ _ _ _ _ => some .vector
  | .vredMin _ _ _ _ _ _ => some .vector
  | .vtrn _ _ _ _ _ => some .vector
  | .kand _ _ _ _ => some .vector
  | .kor _ _ _ _ => some .vector
  | .knot _ _ _ => some .vector
  | .vaddScalar _ _ _ _ _ _ _ => some .vector
  | .vsubScalar _ _ _ _ _ _ _ => some .vector
  | .vmulScalar _ _ _ _ _ _ _ => some .vector
  | .vfmaScalar _ _ _ _ _ _ _ => some .vector
  | .vminScalar _ _ _ _ _ _ => some .vector
  | .vmaxScalar _ _ _ _ _ _ => some .vector
  | .vandScalar _ _ _ _ _ _ => some .vector
  | .vorScalar _ _ _ _ _ _ => some .vector
  | .vxorScalar _ _ _ _ _ _ => some .vector
  | .vshlScalar _ _ _ _ _ _ => some .vector
  | .vshrScalar _ _ _ _ _ _ => some .vector
  | .vsarScalar _ _ _ _ _ _ => some .vector
  | .vcmpEqScalar _ _ _ _ _ _ => some .vector
  | .vcmpNeScalar _ _ _ _ _ _ => some .vector
  | .vcmpLtScalar _ _ _ _ _ _ => some .vector
  | .vcmpLtuScalar _ _ _ _ _ _ => some .vector
  | .vcmpGeScalar _ _ _ _ _ _ => some .vector
  | .vcmpGeuScalar _ _ _ _ _ _ => some .vector
  | .vbcast _ _ _ _ _ _ _ => some .vector
  | .viota _ _ _ _ _ _ => some .vector
  | .vext _ _ _ _ _ => some .vector
  | .vins _ _ _ => some .vector
  | .vshp _ _ => some .vector
  | .kwin _ _ _ _ => some .vector
  | .fexp2 _ _ _ _ _ => some .fn
  | .flog2 _ _ _ _ _ => some .fn
  | .frcp _ _ _ _ _ => some .fn
  | .frsq _ _ _ _ _ => some .fn
  | .fsigm _ _ _ _ _ => some .fn
  | .ftanh _ _ _ _ _ => some .fn
  | .ferf _ _ _ _ _ => some .fn
  | .ftopk _ _ _ _ _ _ _ => some .fn
  | .fhkey _ _ _ _ _ => some .fn
  | .ld8 _ _ _ _ _ => some .mem
  | .ld16 _ _ _ _ _ => some .mem
  | .ld32 _ _ _ _ _ => some .mem
  | .ld64 _ _ _ _ _ => some .mem
  | .ld8s _ _ _ _ _ => some .mem
  | .ld16s _ _ _ _ _ => some .mem
  | .ld32s _ _ _ _ _ => some .mem
  | .st8 _ _ _ _ _ => some .mem
  | .st16 _ _ _ _ _ => some .mem
  | .st32 _ _ _ _ _ => some .mem
  | .st64 _ _ _ _ _ => some .mem
  | .vld _ _ _ _ _ _ _ => some .mem
  | .vst _ _ _ _ _ _ _ => some .mem
  | .atomAdd _ _ _ _ _ _ => some .mem
  | .atomMin _ _ _ _ _ _ => some .mem
  | .atomMax _ _ _ _ _ _ => some .mem
  | .atomSwap _ _ _ _ _ _ => some .mem
  | .atomCas _ _ _ _ _ _ => some .mem
  | .ratomAdd _ _ _ _ _ _ _ => some .mem
  | .ratomMin _ _ _ _ _ _ _ => some .mem
  | .ratomMax _ _ _ _ _ _ _ => some .mem
  | .ratomSwap _ _ _ _ _ _ _ => some .mem
  | .ratomCas _ _ _ _ _ _ _ => some .mem
  | .tlook _ _ _ => some .mem
  | .tlookR _ _ _ _ => some .mem
  | .tset _ _ _ _ => some .mem
  | .tdel _ _ _ => some .mem
  | .tpin _ _ _ => some .mem
  | .tunpin _ _ _ => some .mem
  | .tmld _ _ _ _ _ => some .mem
  | .tmst _ _ _ _ _ => some .mem
  | .tmset _ _ _ _ => some .mem
  | .tmsetClear _ _ => some .mem
  | .tmadd _ _ _ _ => some .mem
  | .sgset _ _ _ _ => some .mem
  | .fenceScope _ _ => some .mem
  | .fenceX _ => some .mem
  | .semsig _ _ _ => some .mem
  | .semwait _ _ => some .mem
  | .barr _ _ _ => some .mem
  | .tqpush _ _ _ _ => some .mem
  | .tqpop _ _ _ _ => some .mem
  | .fuse _ _ => some .mem
  | .decouple _ => some .mem
  | .rejoin _ => some .mem
  | .taskput _ _ _ _ => some .mem
  | .futrd _ _ _ => some .mem
  | .futfill _ _ _ => some .mem
  | .mlease _ _ _ => some .mem
  | .mfree _ _ => some .mem
  | .mldw _ _ _ _ _ _ => some .mem
  | .mrun _ _ _ _ _ _ _ => some .mem
  | .mdrain _ _ _ _ _ _ => some .mem
  | .mclr _ _ _ => some .mem
  | .massay _ _ _ _ _ => some .mem
  | .copy _ _ _ _ => some .mem
  | .copy2 _ _ _ _ _ => some .mem
  | .gath _ _ _ _ => some .mem
  | .mcast _ _ _ _ _ _ => some .mem
  | .subs _ _ _ _ _ => some .mem
  | .unsub _ _ _ => some .mem
  | .rfree _ _ _ _ => some .mem
  | .hfetch _ _ _ _ => some .mem
  | .prosp _ _ _ _ _ => some .mem
  | .hrebind _ _ _ _ => some .mem
  | .decj _ _ _ _ => some .mem
  | .publish _ _ _ => some .mem
  | .trapEntry _ => none
  | .sleepWake _ => none
  | .landingArrival _ => none
  | .landingWatchdog _ => none
  | .handleFill _ => none
  | .handleFillTimeout _ => none
  | .engineCommandStart _ _ => none
  | .engineCommandComplete _ _ _ => none
  | .aTileConsumed _ _ => none
  | .faceLeaseGrant _ => none
  | .leaseExpiry _ => none
  | .leaseEnd _ => none
  | .semaphoreIncrement _ => none
  | .semaphoreDecrementGrant _ _ => none
  | .tokenQueuePush _ => none
  | .tokenQueuePop _ => none
  | .barrierArrival _ => none
  | .barrierResume _ => none
  | .gangFuse _ _ => none
  | .gangTimeout _ => none
  | .gangRejoin _ => none
  | .ratomStep _ => none
  | .remoteTagProbe _ => none
  | .futureFillApply _ => none
  | .futfillAnswer _ => none
  | .fetchRequest _ => none
  | .fetchQueueServe _ => none
  | .stagingFetchComplete _ _ => none
  | .prospectorSelection _ => none
  | .hrebindApply _ => none
  | .segmentCopyLand _ => none
  | .packetPlace _ _ => none
  | .listRecordReread _ _ => none
  | .decodeJobAccept _ => none
  | .decodeChunkFinish _ => none
  | .decodeJobComplete _ => none
  | .hostFlushReadComplete _ => none
  | .netAckReceive _ => none
  | .netPacketReceive _ _ _ _ => none
  | .powerOnReset => none
  | .winderFrame => none
  | .start _ => none
  | .resume _ => none
  | .preempt _ => none
  | .preemptHonour _ => none
  | .clusterClockGate _ => none
  | .clusterClockWake _ => none
  | .retainWakeHandshake _ => none
  | .thermalStepChange _ _ => none
  | .countingWindowBoundary => none
  | .repairStepStart _ _ _ _ _ => none
  | .repairStepEnd _ _ => none
  | .retirementCut _ _ _ _ _ => none
  | .retirementReport _ => none
  | .targetedTestStart _ => none
  | .targetedTestEnd _ _ => none
  | .clusterFence _ => none
  | .launch _ => none
  | .post _ => none
  | .install _ => none
  | .uninstall _ => none
  | .release _ => none
  | .attest _ => none
  | .contextCreate _ => none
  | .contextDestroy _ => none
  | .window _ => none
  | .kill _ => none
  | .map _ => none
  | .unmap _ => none
  | .xferToDevice _ => none
  | .xferToHost _ => none
  | .badkindEntry _ => none
  | .doorbell _ _ _ => none
  | .taskRegister _ _ _ _ => none
  | .clusterWakeRegister _ _ _ => none
  | .winshift _ => none
  | .wakeerr _ => none
  | .registerWrite _ _ _ _ => none
  | .signTableReadArrival _ => none
  | .readDisturbRefresh _ _ => none
  | .wearLevelling _ _ _ _ => none
  | .throttleThresholdCrossing _ _ => none

end Sys2Proof
end

