-- ==== Sys2Proof/Decode.lean ====
section
/-! DEFINITION. Decoding a slot word through the map of its slot's class (02 R31 to R48), and encoding back. -/

namespace Sys2Proof

/-- Why a slot word is refused: its opcode is unassigned in the class (02 R43 step 1), or a reserved field or value is
set (step 2). -/
inductive DecodeErr where
  | illegal
  | reserved
  deriving DecidableEq, Repr

/-- The `n` bits of `w` from bit `lo`. -/
def fld (w lo n : Nat) : Nat := w / 2 ^ lo % 2 ^ n

/-- The field as a bit vector. -/
def fb (w lo n : Nat) : BitVec n := BitVec.ofNat n (w / 2 ^ lo)

/-- The guard of a slot word (02 R31). -/
def guardOf (w : Nat) : Guard := ⟨fb w 24 1, fb w 21 3⟩

/-- The engine options of an ME word (02 R38). -/
def optOf (w : Nat) : EngOpt :=
  ⟨fb w 12 1, fb w 11 1, fb w 10 1, fb w 9 1, fb w 8 1, fb w 7 1, fb w 5 2, fb w 4 1, fb w 3 1⟩

/-- The scalar class map (02 R46), before reserved values are checked. -/
def rawScalar (w : Nat) : Except DecodeErr Instr :=
  match fld w 25 7 with
  | 0 =>
    if fld w 0 25 = 0 then .ok (.nop)
    else .error .reserved
  | 1 =>
    if fld w 0 6 = 0 then .ok (.add (guardOf w) (fb w 16 5) (fb w 11 5) (fb w 6 5))
    else .error .reserved
  | 2 =>
    if fld w 0 6 = 0 then .ok (.sub (guardOf w) (fb w 16 5) (fb w 11 5) (fb w 6 5))
    else .error .reserved
  | 3 =>
    if fld w 0 6 = 0 then .ok (.mul (guardOf w) (fb w 16 5) (fb w 11 5) (fb w 6 5))
    else .error .reserved
  | 4 =>
    if fld w 0 6 = 0 then .ok (.mulh (guardOf w) (fb w 16 5) (fb w 11 5) (fb w 6 5))
    else .error .reserved
  | 5 =>
    if fld w 0 6 = 0 then .ok (.mulhu (guardOf w) (fb w 16 5) (fb w 11 5) (fb w 6 5))
    else .error .reserved
  | 6 =>
    if fld w 0 6 = 0 then .ok (.div (guardOf w) (fb w 16 5) (fb w 11 5) (fb w 6 5))
    else if fld w 0 6 = 1 then .ok (.divU (guardOf w) (fb w 16 5) (fb w 11 5) (fb w 6 5))
    else .error .reserved
  | 7 =>
    if fld w 0 6 = 0 then .ok (.rem (guardOf w) (fb w 16 5) (fb w 11 5) (fb w 6 5))
    else if fld w 0 6 = 1 then .ok (.remU (guardOf w) (fb w 16 5) (fb w 11 5) (fb w 6 5))
    else .error .reserved
  | 8 =>
    if fld w 0 6 = 0 then .ok (.and (guardOf w) (fb w 16 5) (fb w 11 5) (fb w 6 5))
    else .error .reserved
  | 9 =>
    if fld w 0 6 = 0 then .ok (.or (guardOf w) (fb w 16 5) (fb w 11 5) (fb w 6 5))
    else .error .reserved
  | 10 =>
    if fld w 0 6 = 0 then .ok (.xor (guardOf w) (fb w 16 5) (fb w 11 5) (fb w 6 5))
    else .error .reserved
  | 11 =>
    if fld w 0 6 = 0 then .ok (.shl (guardOf w) (fb w 16 5) (fb w 11 5) (fb w 6 5))
    else .error .reserved
  | 12 =>
    if fld w 0 6 = 0 then .ok (.shr (guardOf w) (fb w 16 5) (fb w 11 5) (fb w 6 5))
    else .error .reserved
  | 13 =>
    if fld w 0 6 = 0 then .ok (.sar (guardOf w) (fb w 16 5) (fb w 11 5) (fb w 6 5))
    else .error .reserved
  | 14 =>
    if fld w 0 6 = 0 then .ok (.rotl (guardOf w) (fb w 16 5) (fb w 11 5) (fb w 6 5))
    else .error .reserved
  | 15 =>
    if fld w 0 6 = 0 then .ok (.min (guardOf w) (fb w 16 5) (fb w 11 5) (fb w 6 5))
    else .error .reserved
  | 16 =>
    if fld w 0 6 = 0 then .ok (.max (guardOf w) (fb w 16 5) (fb w 11 5) (fb w 6 5))
    else .error .reserved
  | 17 =>
    if fld w 0 6 = 0 then .ok (.minu (guardOf w) (fb w 16 5) (fb w 11 5) (fb w 6 5))
    else .error .reserved
  | 18 =>
    if fld w 0 6 = 0 then .ok (.maxu (guardOf w) (fb w 16 5) (fb w 11 5) (fb w 6 5))
    else .error .reserved
  | 19 =>
    if fld w 0 11 = 0 then .ok (.clz (guardOf w) (fb w 16 5) (fb w 11 5))
    else .error .reserved
  | 20 =>
    if fld w 0 11 = 0 then .ok (.popc (guardOf w) (fb w 16 5) (fb w 11 5))
    else .error .reserved
  | 21 =>
    if fld w 3 3 = 0 then .ok (.sel (guardOf w) (fb w 16 5) (fb w 11 5) (fb w 6 5) (fb w 0 3))
    else .error .reserved
  | 24 =>
    .ok (.addi (guardOf w) (fb w 16 5) (fb w 11 5) (fb w 0 11))
  | 25 =>
    .ok (.andi (guardOf w) (fb w 16 5) (fb w 11 5) (fb w 0 11))
  | 26 =>
    .ok (.ori (guardOf w) (fb w 16 5) (fb w 11 5) (fb w 0 11))
  | 27 =>
    .ok (.xori (guardOf w) (fb w 16 5) (fb w 11 5) (fb w 0 11))
  | 28 =>
    if fld w 6 5 = 0 then .ok (.shli (guardOf w) (fb w 16 5) (fb w 11 5) (fb w 0 6))
    else .error .reserved
  | 29 =>
    if fld w 6 5 = 0 then .ok (.shri (guardOf w) (fb w 16 5) (fb w 11 5) (fb w 0 6))
    else .error .reserved
  | 30 =>
    if fld w 6 5 = 0 then .ok (.sari (guardOf w) (fb w 16 5) (fb w 11 5) (fb w 0 6))
    else .error .reserved
  | 32 =>
    .ok (.movi (guardOf w) (fb w 16 5) (fb w 0 16))
  | 33 =>
    .ok (.movhi (guardOf w) (fb w 16 5) (fb w 0 16))
  | 40 =>
    if fld w 0 6 = 0 ∧ fld w 19 2 = 0 then .ok (.cmpEq (guardOf w) (fb w 16 3) (fb w 11 5) (fb w 6 5))
    else .error .reserved
  | 41 =>
    if fld w 0 6 = 0 ∧ fld w 19 2 = 0 then .ok (.cmpNe (guardOf w) (fb w 16 3) (fb w 11 5) (fb w 6 5))
    else .error .reserved
  | 42 =>
    if fld w 0 6 = 0 ∧ fld w 19 2 = 0 then .ok (.cmpLt (guardOf w) (fb w 16 3) (fb w 11 5) (fb w 6 5))
    else .error .reserved
  | 43 =>
    if fld w 0 6 = 0 ∧ fld w 19 2 = 0 then .ok (.cmpLtu (guardOf w) (fb w 16 3) (fb w 11 5) (fb w 6 5))
    else .error .reserved
  | 44 =>
    if fld w 0 6 = 0 ∧ fld w 19 2 = 0 then .ok (.cmpGe (guardOf w) (fb w 16 3) (fb w 11 5) (fb w 6 5))
    else .error .reserved
  | 45 =>
    if fld w 0 6 = 0 ∧ fld w 19 2 = 0 then .ok (.cmpGeu (guardOf w) (fb w 16 3) (fb w 11 5) (fb w 6 5))
    else .error .reserved
  | 48 =>
    if fld w 19 2 = 0 then .ok (.cmpiEq (guardOf w) (fb w 16 3) (fb w 11 5) (fb w 0 11))
    else .error .reserved
  | 49 =>
    if fld w 19 2 = 0 then .ok (.cmpiNe (guardOf w) (fb w 16 3) (fb w 11 5) (fb w 0 11))
    else .error .reserved
  | 50 =>
    if fld w 19 2 = 0 then .ok (.cmpiLt (guardOf w) (fb w 16 3) (fb w 11 5) (fb w 0 11))
    else .error .reserved
  | 51 =>
    if fld w 19 2 = 0 then .ok (.cmpiLtu (guardOf w) (fb w 16 3) (fb w 11 5) (fb w 0 11))
    else .error .reserved
  | 52 =>
    if fld w 19 2 = 0 then .ok (.cmpiGe (guardOf w) (fb w 16 3) (fb w 11 5) (fb w 0 11))
    else .error .reserved
  | 53 =>
    if fld w 19 2 = 0 then .ok (.cmpiGeu (guardOf w) (fb w 16 3) (fb w 11 5) (fb w 0 11))
    else .error .reserved
  | 56 =>
    if fld w 0 6 = 0 ∧ fld w 9 2 = 0 ∧ fld w 14 2 = 0 ∧ fld w 19 2 = 0 then .ok (.pand (guardOf w) (fb w 16 3) (fb w 11 3) (fb w 6 3))
    else .error .reserved
  | 57 =>
    if fld w 0 6 = 0 ∧ fld w 9 2 = 0 ∧ fld w 14 2 = 0 ∧ fld w 19 2 = 0 then .ok (.por (guardOf w) (fb w 16 3) (fb w 11 3) (fb w 6 3))
    else .error .reserved
  | 58 =>
    if fld w 0 6 = 0 ∧ fld w 9 2 = 0 ∧ fld w 14 2 = 0 ∧ fld w 19 2 = 0 then .ok (.pxor (guardOf w) (fb w 16 3) (fb w 11 3) (fb w 6 3))
    else .error .reserved
  | 59 =>
    if fld w 0 11 = 0 ∧ fld w 14 2 = 0 ∧ fld w 19 2 = 0 then .ok (.pnot (guardOf w) (fb w 16 3) (fb w 11 3))
    else .error .reserved
  | 60 =>
    if fld w 0 11 = 0 ∧ fld w 14 2 = 0 ∧ fld w 19 2 = 0 then .ok (.pmovPp (guardOf w) (fb w 16 3) (fb w 11 3))
    else if fld w 0 11 = 1 ∧ fld w 19 2 = 0 then .ok (.pmovPs (guardOf w) (fb w 16 3) (fb w 11 5))
    else if fld w 0 11 = 2 ∧ fld w 14 2 = 0 then .ok (.pmovSp (guardOf w) (fb w 16 5) (fb w 11 3))
    else .error .reserved
  | 61 =>
    if fld w 0 11 = 0 then .ok (.qpeek (guardOf w) (fb w 16 5) (fb w 11 5))
    else .error .reserved
  | 62 =>
    if fld w 0 11 = 0 then .ok (.qcnt (guardOf w) (fb w 16 5) (fb w 11 5))
    else .error .reserved
  | 63 =>
    if fld w 0 11 = 0 ∧ fld w 16 5 = 0 then .ok (.qclr (guardOf w) (fb w 11 5))
    else .error .reserved
  | 64 =>
    .ok (.br (guardOf w) (fb w 0 21))
  | 65 =>
    .ok (.call (guardOf w) (fb w 0 21))
  | 66 =>
    if fld w 0 11 = 0 ∧ fld w 16 5 = 0 then .ok (.ret (guardOf w) (fb w 11 5))
    else .error .reserved
  | 67 =>
    if fld w 0 11 = 0 then .ok (.jmp (guardOf w) (fb w 16 5) (fb w 11 5))
    else .error .reserved
  | 68 =>
    if fld w 5 3 = 0 then .ok (.loop (guardOf w) (fb w 8 13) (fb w 0 5))
    else .error .reserved
  | 69 =>
    .ok (.loopi (guardOf w) (fb w 8 13) (fb w 0 8))
  | 70 =>
    .ok (.loopr (guardOf w) (fb w 8 13) (fb w 5 3) (fb w 0 5))
  | 71 =>
    if fld w 3 18 = 0 then .ok (.lbrk (guardOf w) (fb w 0 3))
    else .error .reserved
  | 72 =>
    if fld w 3 13 = 0 then .ok (.lidx (guardOf w) (fb w 16 5) (fb w 0 3))
    else if fld w 3 13 = 1 then .ok (.lidxIn (guardOf w) (fb w 16 5) (fb w 0 3))
    else .error .reserved
  | 73 =>
    if fld w 6 10 = 0 then .ok (.dtld (guardOf w) (fb w 16 5) (fb w 0 6))
    else .error .reserved
  | 80 =>
    if fld w 10 6 = 0 then .ok (.sysr (guardOf w) (fb w 16 5) (fb w 0 10))
    else .error .reserved
  | 81 =>
    if fld w 10 6 = 0 then .ok (.sysw (guardOf w) (fb w 16 5) (fb w 0 10))
    else .error .reserved
  | 82 =>
    if fld w 10 6 = 0 then .ok (.syss (guardOf w) (fb w 16 5) (fb w 0 10))
    else .error .reserved
  | 83 =>
    if fld w 10 6 = 0 then .ok (.sysc (guardOf w) (fb w 16 5) (fb w 0 10))
    else .error .reserved
  | 84 =>
    if fld w 15 6 = 0 then .ok (.trap (guardOf w) (fb w 0 15))
    else if fld w 15 6 = 1 then .ok (.trapSys (guardOf w) (fb w 0 15))
    else .error .reserved
  | 85 =>
    if fld w 0 21 = 0 then .ok (.eret (guardOf w) )
    else .error .reserved
  | 86 =>
    if fld w 0 21 = 0 then .ok (.halt (guardOf w) )
    else if fld w 0 11 = 1 ∧ fld w 16 5 = 0 then .ok (.haltAbort (guardOf w) (fb w 11 5))
    else .error .reserved
  | 88 =>
    if fld w 16 5 = 0 then .ok (.waitc (guardOf w) (fb w 12 4) (fb w 8 4) (fb w 4 4) (fb w 0 4))
    else .error .reserved
  | 89 =>
    if fld w 0 11 = 0 ∧ fld w 16 5 = 0 then .ok (.sleep (guardOf w) (fb w 11 5))
    else .error .reserved
  | 90 =>
    if fld w 0 16 = 0 then .ok (.cyc (guardOf w) (fb w 16 5))
    else .error .reserved
  | 92 =>
    if fld w 0 16 = 0 then .ok (.isync (guardOf w) (fb w 16 5))
    else .error .reserved
  | 93 =>
    if fld w 0 11 = 0 ∧ fld w 16 5 = 0 then .ok (.segmark (guardOf w) (fb w 11 5))
    else .error .reserved
  | 94 =>
    if fld w 0 11 = 0 ∧ fld w 16 5 = 0 then .ok (.bswap (guardOf w) (fb w 11 5))
    else .error .reserved
  | _ => .error .illegal

/-- The vector class map (02 R47), before reserved values are checked. -/
def rawVector (w : Nat) : Except DecodeErr Instr :=
  match fld w 25 7 with
  | 0 =>
    if fld w 0 25 = 0 then .ok (.nop)
    else .error .reserved
  | 1 =>
    .ok (.vadd (guardOf w) (fb w 17 4) (fb w 13 4) (fb w 9 4) (fb w 5 4) (fb w 2 3) (fb w 0 2))
  | 2 =>
    .ok (.vsub (guardOf w) (fb w 17 4) (fb w 13 4) (fb w 9 4) (fb w 5 4) (fb w 2 3) (fb w 0 2))
  | 3 =>
    .ok (.vmul (guardOf w) (fb w 17 4) (fb w 13 4) (fb w 9 4) (fb w 5 4) (fb w 2 3) (fb w 0 2))
  | 4 =>
    .ok (.vfma (guardOf w) (fb w 17 4) (fb w 13 4) (fb w 9 4) (fb w 5 4) (fb w 2 3) (fb w 0 2))
  | 5 =>
    if fld w 0 2 = 0 then .ok (.vmin (guardOf w) (fb w 17 4) (fb w 13 4) (fb w 9 4) (fb w 5 4) (fb w 2 3))
    else .error .reserved
  | 6 =>
    if fld w 0 2 = 0 then .ok (.vmax (guardOf w) (fb w 17 4) (fb w 13 4) (fb w 9 4) (fb w 5 4) (fb w 2 3))
    else .error .reserved
  | 7 =>
    if fld w 1 1 = 0 ∧ fld w 9 4 = 0 then .ok (.vabs (guardOf w) (fb w 17 4) (fb w 13 4) (fb w 5 4) (fb w 2 3) (fb w 0 1))
    else .error .reserved
  | 8 =>
    if fld w 1 1 = 0 ∧ fld w 9 4 = 0 then .ok (.vneg (guardOf w) (fb w 17 4) (fb w 13 4) (fb w 5 4) (fb w 2 3) (fb w 0 1))
    else .error .reserved
  | 9 =>
    if fld w 0 2 = 0 then .ok (.vand (guardOf w) (fb w 17 4) (fb w 13 4) (fb w 9 4) (fb w 5 4) (fb w 2 3))
    else .error .reserved
  | 10 =>
    if fld w 0 2 = 0 then .ok (.vor (guardOf w) (fb w 17 4) (fb w 13 4) (fb w 9 4) (fb w 5 4) (fb w 2 3))
    else .error .reserved
  | 11 =>
    if fld w 0 2 = 0 then .ok (.vxor (guardOf w) (fb w 17 4) (fb w 13 4) (fb w 9 4) (fb w 5 4) (fb w 2 3))
    else .error .reserved
  | 12 =>
    if fld w 0 2 = 0 then .ok (.vshl (guardOf w) (fb w 17 4) (fb w 13 4) (fb w 9 4) (fb w 5 4) (fb w 2 3))
    else .error .reserved
  | 13 =>
    if fld w 0 2 = 0 then .ok (.vshr (guardOf w) (fb w 17 4) (fb w 13 4) (fb w 9 4) (fb w 5 4) (fb w 2 3))
    else .error .reserved
  | 14 =>
    if fld w 0 2 = 0 then .ok (.vsar (guardOf w) (fb w 17 4) (fb w 13 4) (fb w 9 4) (fb w 5 4) (fb w 2 3))
    else .error .reserved
  | 16 =>
    if fld w 0 2 = 0 ∧ fld w 20 1 = 0 then .ok (.vcmpEq (guardOf w) (fb w 17 3) (fb w 13 4) (fb w 9 4) (fb w 5 4) (fb w 2 3))
    else .error .reserved
  | 17 =>
    if fld w 0 2 = 0 ∧ fld w 20 1 = 0 then .ok (.vcmpNe (guardOf w) (fb w 17 3) (fb w 13 4) (fb w 9 4) (fb w 5 4) (fb w 2 3))
    else .error .reserved
  | 18 =>
    if fld w 0 2 = 0 ∧ fld w 20 1 = 0 then .ok (.vcmpLt (guardOf w) (fb w 17 3) (fb w 13 4) (fb w 9 4) (fb w 5 4) (fb w 2 3))
    else .error .reserved
  | 19 =>
    if fld w 0 2 = 0 ∧ fld w 20 1 = 0 then .ok (.vcmpLtu (guardOf w) (fb w 17 3) (fb w 13 4) (fb w 9 4) (fb w 5 4) (fb w 2 3))
    else .error .reserved
  | 20 =>
    if fld w 0 2 = 0 ∧ fld w 20 1 = 0 then .ok (.vcmpGe (guardOf w) (fb w 17 3) (fb w 13 4) (fb w 9 4) (fb w 5 4) (fb w 2 3))
    else .error .reserved
  | 21 =>
    if fld w 0 2 = 0 ∧ fld w 20 1 = 0 then .ok (.vcmpGeu (guardOf w) (fb w 17 3) (fb w 13 4) (fb w 9 4) (fb w 5 4) (fb w 2 3))
    else .error .reserved
  | 22 =>
    if fld w 0 2 = 0 then .ok (.vsel (guardOf w) (fb w 17 4) (fb w 13 4) (fb w 9 4) (fb w 5 4) (fb w 2 3))
    else .error .reserved
  | 24 =>
    .ok (.vcvt (guardOf w) (fb w 17 4) (fb w 13 4) (fb w 9 4) (fb w 5 4) (fb w 2 3) (fb w 0 2))
  | 25 =>
    if fld w 12 1 = 0 then .ok (.vrot (guardOf w) (fb w 17 4) (fb w 13 4) (fb w 9 3) (fb w 5 4) (fb w 2 3) (fb w 0 2))
    else .error .reserved
  | 26 =>
    if fld w 0 2 = 0 ∧ fld w 9 4 = 0 then .ok (.virot (guardOf w) (fb w 17 4) (fb w 13 4) (fb w 5 4) (fb w 2 3))
    else .error .reserved
  | 28 =>
    if fld w 9 4 = 0 then .ok (.vredSum (guardOf w) (fb w 17 4) (fb w 13 4) (fb w 5 4) (fb w 2 3) (fb w 1 1) (fb w 0 1))
    else .error .reserved
  | 29 =>
    if fld w 1 1 = 0 ∧ fld w 9 4 = 0 then .ok (.vredMax (guardOf w) (fb w 17 4) (fb w 13 4) (fb w 5 4) (fb w 2 3) (fb w 0 1))
    else .error .reserved
  | 30 =>
    if fld w 1 1 = 0 ∧ fld w 9 4 = 0 then .ok (.vredMin (guardOf w) (fb w 17 4) (fb w 13 4) (fb w 5 4) (fb w 2 3) (fb w 0 1))
    else .error .reserved
  | 32 =>
    if fld w 0 2 = 0 ∧ fld w 9 4 = 0 then .ok (.vtrn (guardOf w) (fb w 17 4) (fb w 13 4) (fb w 5 4) (fb w 2 3))
    else .error .reserved
  | 40 =>
    if fld w 0 9 = 0 ∧ fld w 12 1 = 0 ∧ fld w 16 1 = 0 ∧ fld w 20 1 = 0 then .ok (.kand (guardOf w) (fb w 17 3) (fb w 13 3) (fb w 9 3))
    else .error .reserved
  | 41 =>
    if fld w 0 9 = 0 ∧ fld w 12 1 = 0 ∧ fld w 16 1 = 0 ∧ fld w 20 1 = 0 then .ok (.kor (guardOf w) (fb w 17 3) (fb w 13 3) (fb w 9 3))
    else .error .reserved
  | 42 =>
    if fld w 0 13 = 0 ∧ fld w 16 1 = 0 ∧ fld w 20 1 = 0 then .ok (.knot (guardOf w) (fb w 17 3) (fb w 13 3))
    else .error .reserved
  | 65 =>
    .ok (.vaddScalar (guardOf w) (fb w 17 4) (fb w 13 4) (fb w 8 5) (fb w 4 4) (fb w 1 3) (fb w 0 1))
  | 66 =>
    .ok (.vsubScalar (guardOf w) (fb w 17 4) (fb w 13 4) (fb w 8 5) (fb w 4 4) (fb w 1 3) (fb w 0 1))
  | 67 =>
    .ok (.vmulScalar (guardOf w) (fb w 17 4) (fb w 13 4) (fb w 8 5) (fb w 4 4) (fb w 1 3) (fb w 0 1))
  | 68 =>
    .ok (.vfmaScalar (guardOf w) (fb w 17 4) (fb w 13 4) (fb w 8 5) (fb w 4 4) (fb w 1 3) (fb w 0 1))
  | 69 =>
    if fld w 0 1 = 0 then .ok (.vminScalar (guardOf w) (fb w 17 4) (fb w 13 4) (fb w 8 5) (fb w 4 4) (fb w 1 3))
    else .error .reserved
  | 70 =>
    if fld w 0 1 = 0 then .ok (.vmaxScalar (guardOf w) (fb w 17 4) (fb w 13 4) (fb w 8 5) (fb w 4 4) (fb w 1 3))
    else .error .reserved
  | 73 =>
    if fld w 0 1 = 0 then .ok (.vandScalar (guardOf w) (fb w 17 4) (fb w 13 4) (fb w 8 5) (fb w 4 4) (fb w 1 3))
    else .error .reserved
  | 74 =>
    if fld w 0 1 = 0 then .ok (.vorScalar (guardOf w) (fb w 17 4) (fb w 13 4) (fb w 8 5) (fb w 4 4) (fb w 1 3))
    else .error .reserved
  | 75 =>
    if fld w 0 1 = 0 then .ok (.vxorScalar (guardOf w) (fb w 17 4) (fb w 13 4) (fb w 8 5) (fb w 4 4) (fb w 1 3))
    else .error .reserved
  | 76 =>
    if fld w 0 1 = 0 then .ok (.vshlScalar (guardOf w) (fb w 17 4) (fb w 13 4) (fb w 8 5) (fb w 4 4) (fb w 1 3))
    else .error .reserved
  | 77 =>
    if fld w 0 1 = 0 then .ok (.vshrScalar (guardOf w) (fb w 17 4) (fb w 13 4) (fb w 8 5) (fb w 4 4) (fb w 1 3))
    else .error .reserved
  | 78 =>
    if fld w 0 1 = 0 then .ok (.vsarScalar (guardOf w) (fb w 17 4) (fb w 13 4) (fb w 8 5) (fb w 4 4) (fb w 1 3))
    else .error .reserved
  | 80 =>
    if fld w 0 1 = 0 ∧ fld w 20 1 = 0 then .ok (.vcmpEqScalar (guardOf w) (fb w 17 3) (fb w 13 4) (fb w 8 5) (fb w 4 4) (fb w 1 3))
    else .error .reserved
  | 81 =>
    if fld w 0 1 = 0 ∧ fld w 20 1 = 0 then .ok (.vcmpNeScalar (guardOf w) (fb w 17 3) (fb w 13 4) (fb w 8 5) (fb w 4 4) (fb w 1 3))
    else .error .reserved
  | 82 =>
    if fld w 0 1 = 0 ∧ fld w 20 1 = 0 then .ok (.vcmpLtScalar (guardOf w) (fb w 17 3) (fb w 13 4) (fb w 8 5) (fb w 4 4) (fb w 1 3))
    else .error .reserved
  | 83 =>
    if fld w 0 1 = 0 ∧ fld w 20 1 = 0 then .ok (.vcmpLtuScalar (guardOf w) (fb w 17 3) (fb w 13 4) (fb w 8 5) (fb w 4 4) (fb w 1 3))
    else .error .reserved
  | 84 =>
    if fld w 0 1 = 0 ∧ fld w 20 1 = 0 then .ok (.vcmpGeScalar (guardOf w) (fb w 17 3) (fb w 13 4) (fb w 8 5) (fb w 4 4) (fb w 1 3))
    else .error .reserved
  | 85 =>
    if fld w 0 1 = 0 ∧ fld w 20 1 = 0 then .ok (.vcmpGeuScalar (guardOf w) (fb w 17 3) (fb w 13 4) (fb w 8 5) (fb w 4 4) (fb w 1 3))
    else .error .reserved
  | 96 =>
    .ok (.vbcast (guardOf w) (fb w 17 4) (fb w 13 4) (fb w 8 5) (fb w 4 4) (fb w 1 3) (fb w 0 1))
  | 97 =>
    if fld w 13 4 = 0 then .ok (.viota (guardOf w) (fb w 17 4) (fb w 8 5) (fb w 4 4) (fb w 1 3) (fb w 0 1))
    else .error .reserved
  | 98 =>
    if fld w 1 7 = 0 ∧ fld w 20 1 = 0 then .ok (.vext (guardOf w) (fb w 17 3) (fb w 13 4) (fb w 8 5) (fb w 0 1))
    else .error .reserved
  | 99 =>
    if fld w 0 8 = 0 ∧ fld w 13 4 = 0 then .ok (.vins (guardOf w) (fb w 17 4) (fb w 8 5))
    else .error .reserved
  | 100 =>
    if fld w 0 8 = 0 ∧ fld w 13 8 = 0 then .ok (.vshp (guardOf w) (fb w 8 5))
    else .error .reserved
  | 101 =>
    if fld w 0 1 = 0 ∧ fld w 4 4 = 0 ∧ fld w 13 4 = 0 ∧ fld w 20 1 = 0 then .ok (.kwin (guardOf w) (fb w 17 3) (fb w 8 5) (fb w 1 3))
    else .error .reserved
  | _ => .error .illegal

/-- The special-function class map (02 R47), before reserved values are checked. -/
def rawFn (w : Nat) : Except DecodeErr Instr :=
  match fld w 25 7 with
  | 0 =>
    if fld w 0 25 = 0 then .ok (.nop)
    else .error .reserved
  | 1 =>
    if fld w 0 1 = 0 ∧ fld w 8 5 = 0 then .ok (.fexp2 (guardOf w) (fb w 17 4) (fb w 13 4) (fb w 4 4) (fb w 1 3))
    else .error .reserved
  | 2 =>
    if fld w 0 1 = 0 ∧ fld w 8 5 = 0 then .ok (.flog2 (guardOf w) (fb w 17 4) (fb w 13 4) (fb w 4 4) (fb w 1 3))
    else .error .reserved
  | 3 =>
    if fld w 0 1 = 0 ∧ fld w 8 5 = 0 then .ok (.frcp (guardOf w) (fb w 17 4) (fb w 13 4) (fb w 4 4) (fb w 1 3))
    else .error .reserved
  | 4 =>
    if fld w 0 1 = 0 ∧ fld w 8 5 = 0 then .ok (.frsq (guardOf w) (fb w 17 4) (fb w 13 4) (fb w 4 4) (fb w 1 3))
    else .error .reserved
  | 5 =>
    if fld w 0 1 = 0 ∧ fld w 8 5 = 0 then .ok (.fsigm (guardOf w) (fb w 17 4) (fb w 13 4) (fb w 4 4) (fb w 1 3))
    else .error .reserved
  | 6 =>
    if fld w 0 1 = 0 ∧ fld w 8 5 = 0 then .ok (.ftanh (guardOf w) (fb w 17 4) (fb w 13 4) (fb w 4 4) (fb w 1 3))
    else .error .reserved
  | 7 =>
    if fld w 0 1 = 0 ∧ fld w 8 5 = 0 then .ok (.ferf (guardOf w) (fb w 17 4) (fb w 13 4) (fb w 4 4) (fb w 1 3))
    else .error .reserved
  | 8 =>
    .ok (.ftopk (guardOf w) (fb w 17 4) (fb w 13 4) (fb w 8 5) (fb w 4 4) (fb w 1 3) (fb w 0 1))
  | 9 =>
    if fld w 6 2 = 0 ∧ fld w 20 1 = 0 then .ok (.fhkey (guardOf w) (fb w 17 3) (fb w 13 4) (fb w 8 5) (fb w 0 6))
    else .error .reserved
  | _ => .error .illegal

/-- The memory class map (02 R48), before reserved values are checked. -/
def rawMem (w : Nat) : Except DecodeErr Instr :=
  match fld w 25 7 with
  | 0 =>
    if fld w 0 25 = 0 then .ok (.nop)
    else .error .reserved
  | 1 =>
    .ok (.ld8 (guardOf w) (fb w 16 5) (fb w 8 8) (fb w 3 5) (fb w 0 3))
  | 2 =>
    .ok (.ld16 (guardOf w) (fb w 16 5) (fb w 8 8) (fb w 3 5) (fb w 0 3))
  | 3 =>
    .ok (.ld32 (guardOf w) (fb w 16 5) (fb w 8 8) (fb w 3 5) (fb w 0 3))
  | 4 =>
    .ok (.ld64 (guardOf w) (fb w 16 5) (fb w 8 8) (fb w 3 5) (fb w 0 3))
  | 5 =>
    .ok (.ld8s (guardOf w) (fb w 16 5) (fb w 8 8) (fb w 3 5) (fb w 0 3))
  | 6 =>
    .ok (.ld16s (guardOf w) (fb w 16 5) (fb w 8 8) (fb w 3 5) (fb w 0 3))
  | 7 =>
    .ok (.ld32s (guardOf w) (fb w 16 5) (fb w 8 8) (fb w 3 5) (fb w 0 3))
  | 8 =>
    .ok (.st8 (guardOf w) (fb w 16 5) (fb w 8 8) (fb w 3 5) (fb w 0 3))
  | 9 =>
    .ok (.st16 (guardOf w) (fb w 16 5) (fb w 8 8) (fb w 3 5) (fb w 0 3))
  | 10 =>
    .ok (.st32 (guardOf w) (fb w 16 5) (fb w 8 8) (fb w 3 5) (fb w 0 3))
  | 11 =>
    .ok (.st64 (guardOf w) (fb w 16 5) (fb w 8 8) (fb w 3 5) (fb w 0 3))
  | 12 =>
    if fld w 2 3 = 0 then .ok (.vld (guardOf w) (fb w 17 4) (fb w 13 4) (fb w 8 5) (fb w 5 3) (fb w 1 1) (fb w 0 1))
    else .error .reserved
  | 13 =>
    if fld w 2 3 = 0 then .ok (.vst (guardOf w) (fb w 17 4) (fb w 13 4) (fb w 8 5) (fb w 5 3) (fb w 1 1) (fb w 0 1))
    else .error .reserved
  | 16 =>
    if fld w 2 1 = 0 then .ok (.atomAdd (guardOf w) (fb w 16 5) (fb w 8 8) (fb w 3 5) (fb w 1 1) (fb w 0 1))
    else .error .reserved
  | 17 =>
    if fld w 2 1 = 0 then .ok (.atomMin (guardOf w) (fb w 16 5) (fb w 8 8) (fb w 3 5) (fb w 1 1) (fb w 0 1))
    else .error .reserved
  | 18 =>
    if fld w 2 1 = 0 then .ok (.atomMax (guardOf w) (fb w 16 5) (fb w 8 8) (fb w 3 5) (fb w 1 1) (fb w 0 1))
    else .error .reserved
  | 19 =>
    if fld w 2 1 = 0 then .ok (.atomSwap (guardOf w) (fb w 16 5) (fb w 8 8) (fb w 3 5) (fb w 1 1) (fb w 0 1))
    else .error .reserved
  | 20 =>
    if fld w 2 1 = 0 then .ok (.atomCas (guardOf w) (fb w 16 5) (fb w 8 8) (fb w 3 5) (fb w 1 1) (fb w 0 1))
    else .error .reserved
  | 24 =>
    .ok (.ratomAdd (guardOf w) (fb w 16 5) (fb w 8 8) (fb w 3 5) (fb w 2 1) (fb w 1 1) (fb w 0 1))
  | 25 =>
    .ok (.ratomMin (guardOf w) (fb w 16 5) (fb w 8 8) (fb w 3 5) (fb w 2 1) (fb w 1 1) (fb w 0 1))
  | 26 =>
    .ok (.ratomMax (guardOf w) (fb w 16 5) (fb w 8 8) (fb w 3 5) (fb w 2 1) (fb w 1 1) (fb w 0 1))
  | 27 =>
    .ok (.ratomSwap (guardOf w) (fb w 16 5) (fb w 8 8) (fb w 3 5) (fb w 2 1) (fb w 1 1) (fb w 0 1))
  | 28 =>
    .ok (.ratomCas (guardOf w) (fb w 16 5) (fb w 8 8) (fb w 3 5) (fb w 2 1) (fb w 1 1) (fb w 0 1))
  | 32 =>
    if fld w 0 11 = 0 then .ok (.tlook (guardOf w) (fb w 16 5) (fb w 11 5))
    else if fld w 0 6 = 1 then .ok (.tlookR (guardOf w) (fb w 16 5) (fb w 11 5) (fb w 6 5))
    else .error .reserved
  | 33 =>
    if fld w 0 6 = 0 then .ok (.tset (guardOf w) (fb w 16 5) (fb w 11 5) (fb w 6 5))
    else .error .reserved
  | 34 =>
    if fld w 0 11 = 0 then .ok (.tdel (guardOf w) (fb w 16 5) (fb w 11 5))
    else .error .reserved
  | 35 =>
    if fld w 0 11 = 0 then .ok (.tpin (guardOf w) (fb w 16 5) (fb w 11 5))
    else .error .reserved
  | 36 =>
    if fld w 0 11 = 0 then .ok (.tunpin (guardOf w) (fb w 16 5) (fb w 11 5))
    else .error .reserved
  | 40 =>
    .ok (.tmld (guardOf w) (fb w 17 4) (fb w 9 8) (fb w 4 5) (fb w 0 4))
  | 41 =>
    .ok (.tmst (guardOf w) (fb w 17 4) (fb w 9 8) (fb w 4 5) (fb w 0 4))
  | 42 =>
    if fld w 0 16 = 63 ∧ fld w 20 1 = 0 then .ok (.tmsetClear (guardOf w) (fb w 16 4))
    else if fld w 6 5 = 0 ∧ fld w 20 1 = 0 then .ok (.tmset (guardOf w) (fb w 16 4) (fb w 11 5) (fb w 0 6))
    else .error .reserved
  | 43 =>
    if fld w 6 5 = 0 ∧ fld w 20 1 = 0 then .ok (.tmadd (guardOf w) (fb w 16 4) (fb w 11 5) (fb w 0 6))
    else .error .reserved
  | 44 =>
    if fld w 0 6 = 0 ∧ fld w 19 2 = 0 then .ok (.sgset (guardOf w) (fb w 16 3) (fb w 11 5) (fb w 6 5))
    else .error .reserved
  | 48 =>
    if fld w 3 18 = 0 then .ok (.fenceScope (guardOf w) (fb w 0 3))
    else .error .reserved
  | 49 =>
    if fld w 0 21 = 0 then .ok (.fenceX (guardOf w) )
    else .error .reserved
  | 52 =>
    if fld w 6 5 = 0 ∧ fld w 16 5 = 0 then .ok (.semsig (guardOf w) (fb w 11 5) (fb w 0 6))
    else .error .reserved
  | 53 =>
    if fld w 0 11 = 0 ∧ fld w 16 5 = 0 then .ok (.semwait (guardOf w) (fb w 11 5))
    else .error .reserved
  | 54 =>
    if fld w 2 14 = 0 ∧ fld w 19 2 = 0 then .ok (.barr (guardOf w) (fb w 16 3) (fb w 0 2))
    else .error .reserved
  | 55 =>
    if fld w 0 6 = 0 ∧ fld w 19 2 = 0 then .ok (.tqpush (guardOf w) (fb w 16 3) (fb w 11 5) (fb w 6 5))
    else .error .reserved
  | 56 =>
    if fld w 3 8 = 0 then .ok (.tqpop (guardOf w) (fb w 16 5) (fb w 11 5) (fb w 0 3))
    else .error .reserved
  | 57 =>
    if fld w 4 17 = 0 then .ok (.fuse (guardOf w) (fb w 0 4))
    else .error .reserved
  | 58 =>
    if fld w 0 21 = 0 then .ok (.decouple (guardOf w) )
    else .error .reserved
  | 59 =>
    if fld w 0 21 = 0 then .ok (.rejoin (guardOf w) )
    else .error .reserved
  | 60 =>
    if fld w 0 6 = 0 ∧ fld w 19 2 = 0 then .ok (.taskput (guardOf w) (fb w 16 3) (fb w 11 5) (fb w 6 5))
    else .error .reserved
  | 61 =>
    if fld w 0 11 = 0 then .ok (.futrd (guardOf w) (fb w 16 5) (fb w 11 5))
    else .error .reserved
  | 62 =>
    if fld w 0 6 = 0 ∧ fld w 16 5 = 0 then .ok (.futfill (guardOf w) (fb w 11 5) (fb w 6 5))
    else .error .reserved
  | 64 =>
    if fld w 0 3 = 0 then .ok (.mlease (guardOf w) (fb w 13 8) (optOf w))
    else .error .reserved
  | 65 =>
    if fld w 0 3 = 0 ∧ fld w 13 8 = 0 then .ok (.mfree (guardOf w)  (optOf w))
    else .error .reserved
  | 66 =>
    if fld w 13 2 = 0 then .ok (.mldw (guardOf w) (fb w 17 4) (fb w 16 1) (fb w 15 1) (fb w 0 3) (optOf w))
    else .error .reserved
  | 67 =>
    .ok (.mrun (guardOf w) (fb w 17 4) (fb w 13 4) (fb w 2 1) (fb w 1 1) (fb w 0 1) (optOf w))
  | 68 =>
    if fld w 2 1 = 0 then .ok (.mdrain (guardOf w) (fb w 17 4) (fb w 13 4) (fb w 1 1) (fb w 0 1) (optOf w))
    else .error .reserved
  | 69 =>
    if fld w 0 3 = 0 ∧ fld w 17 4 = 0 then .ok (.mclr (guardOf w) (fb w 13 4) (optOf w))
    else .error .reserved
  | 70 =>
    if fld w 1 2 = 0 then .ok (.massay (guardOf w) (fb w 17 4) (fb w 13 4) (fb w 0 1) (optOf w))
    else .error .reserved
  | 72 =>
    if fld w 0 3 = 0 then .ok (.copy (guardOf w) (fb w 17 4) (fb w 13 4) (optOf w))
    else .error .reserved
  | 73 =>
    if fld w 1 2 = 0 then .ok (.copy2 (guardOf w) (fb w 17 4) (fb w 13 4) (fb w 0 1) (optOf w))
    else .error .reserved
  | 74 =>
    if fld w 0 3 = 0 then .ok (.gath (guardOf w) (fb w 17 4) (fb w 13 4) (optOf w))
    else .error .reserved
  | 75 =>
    .ok (.mcast (guardOf w) (fb w 17 4) (fb w 13 4) (fb w 2 1) (fb w 0 2) (optOf w))
  | 76 =>
    if fld w 1 2 = 0 then .ok (.subs (guardOf w) (fb w 17 4) (fb w 13 4) (fb w 0 1) (optOf w))
    else .error .reserved
  | 77 =>
    if fld w 0 3 = 0 ∧ fld w 13 4 = 0 then .ok (.unsub (guardOf w) (fb w 17 4) (optOf w))
    else .error .reserved
  | 78 =>
    if fld w 0 3 = 0 then .ok (.rfree (guardOf w) (fb w 17 4) (fb w 13 4) (optOf w))
    else .error .reserved
  | 80 =>
    if fld w 1 2 = 0 ∧ fld w 13 4 = 0 then .ok (.hfetch (guardOf w) (fb w 17 4) (fb w 0 1) (optOf w))
    else .error .reserved
  | 81 =>
    .ok (.prosp (guardOf w) (fb w 17 4) (fb w 13 4) (fb w 0 3) (optOf w))
  | 82 =>
    if fld w 0 3 = 0 then .ok (.hrebind (guardOf w) (fb w 17 4) (fb w 13 4) (optOf w))
    else .error .reserved
  | 84 =>
    if fld w 13 4 = 0 then .ok (.decj (guardOf w) (fb w 17 4) (fb w 0 3) (optOf w))
    else .error .reserved
  | 85 =>
    if fld w 13 8 = 0 then .ok (.publish (guardOf w) (fb w 0 3) (optOf w))
    else .error .reserved
  | _ => .error .illegal

/-- 02 R46: the opcodes that exist only in SA. -/
def saOnly (op : Nat) : Bool := op == 6 || op == 7 || (64 ≤ op && op ≤ 94)

/-- 02 R42: a reserved value of a used field refuses the word. -/
def checkWf : Except DecodeErr Instr → Except DecodeErr Instr
  | .ok i => if i.wf then .ok i else .error .reserved
  | .error e => .error e

/-- Decoding one slot word, total on every word (02 R43 steps 1 and 2). -/
def decodeSlot (c : SlotClass) (w : Nat) : Except DecodeErr Instr :=
  match c with
  | .sa => checkWf (rawScalar w)
  | .sb => if saOnly (fld w 25 7) then .error .illegal else checkWf (rawScalar w)
  | .vector => checkWf (rawVector w)
  | .fn => checkWf (rawFn w)
  | .mem => checkWf (rawMem w)

/-- The class of slot `n` in the order of 01 R10. -/
def slotClassOf (n : Nat) : SlotClass :=
  if n = 0 then .sa else if n = 1 then .sb else if n < 5 then .vector else if n = 5 then .fn else .mem

/-- One 32-bit slot word names an instruction only within its slot's class (02 R46): the classes are tried in the order
scalar, vector, special-function, memory. -/
def decodeTableSlot (w : Nat) : Option (SlotClass × Instr) :=
  match decodeSlot .sa w with
  | .ok i => some (.sa, i)
  | .error _ =>
    match decodeSlot .vector w with
    | .ok i => some (.vector, i)
    | .error _ =>
      match decodeSlot .fn w with
      | .ok i => some (.fn, i)
      | .error _ =>
        match decodeSlot .mem w with
        | .ok i => some (.mem, i)
        | .error _ => none

/-- The instruction read from the table's bits: a slot word has 32 bits, whatever shorter count the table gives. (DEDUCED, log 10) -/
def decodeTableWord (nbits w : Nat) : Option Instr :=
  if nbits ≤ 32 ∧ w < 2 ^ 32 then (decodeTableSlot w).map Prod.snd else none

/-- The guard's contribution to a slot word (02 R31). -/
def encGuard (g : Guard) : Nat := g.neg.toNat * 2 ^ 24 + g.pred.toNat * 2 ^ 21

/-- The engine options' contribution to an ME word (02 R38). -/
def encOpt (e : EngOpt) : Nat :=
  e.tpp.toNat * 2 ^ 12 + e.tpn.toNat * 2 ^ 11 + e.thp.toNat * 2 ^ 10 + e.thn.toNat * 2 ^ 9 + e.acq.toNat * 2 ^ 8 +
    e.rel.toNat * 2 ^ 7 + e.scope.toNat * 2 ^ 5 + e.p.toNat * 2 ^ 4 + e.y.toNat * 2 ^ 3

/-- A field's contribution to a word, its lowest bit at `lo`. -/
def put {n : Nat} (x : BitVec n) (lo : Nat) : Nat := x.toNat * 2 ^ lo

/-- A slot word: the opcode, the guard, the fixed bits of the row and the fields' contributions (02 R31). -/
def pack (op : Nat) (g : Guard) (fixed : Nat) (fields : List Nat) : Nat :=
  op * 2 ^ 25 + encGuard g + fixed + fields.foldr (fun a b => a + b) 0

/-- The slot word of an instruction (02 R31 to R48). An event has no word; 0 stands in its place. -/
def encode : Instr → Nat
  | .nop => 0
  | .add g d a b => pack 1 g 0 [put d 16, put a 11, put b 6]
  | .sub g d a b => pack 2 g 0 [put d 16, put a 11, put b 6]
  | .mul g d a b => pack 3 g 0 [put d 16, put a 11, put b 6]
  | .mulh g d a b => pack 4 g 0 [put d 16, put a 11, put b 6]
  | .mulhu g d a b => pack 5 g 0 [put d 16, put a 11, put b 6]
  | .div g d a b => pack 6 g 0 [put d 16, put a 11, put b 6]
  | .divU g d a b => pack 6 g 1 [put d 16, put a 11, put b 6]
  | .rem g d a b => pack 7 g 0 [put d 16, put a 11, put b 6]
  | .remU g d a b => pack 7 g 1 [put d 16, put a 11, put b 6]
  | .and g d a b => pack 8 g 0 [put d 16, put a 11, put b 6]
  | .or g d a b => pack 9 g 0 [put d 16, put a 11, put b 6]
  | .xor g d a b => pack 10 g 0 [put d 16, put a 11, put b 6]
  | .shl g d a b => pack 11 g 0 [put d 16, put a 11, put b 6]
  | .shr g d a b => pack 12 g 0 [put d 16, put a 11, put b 6]
  | .sar g d a b => pack 13 g 0 [put d 16, put a 11, put b 6]
  | .rotl g d a b => pack 14 g 0 [put d 16, put a 11, put b 6]
  | .min g d a b => pack 15 g 0 [put d 16, put a 11, put b 6]
  | .max g d a b => pack 16 g 0 [put d 16, put a 11, put b 6]
  | .minu g d a b => pack 17 g 0 [put d 16, put a 11, put b 6]
  | .maxu g d a b => pack 18 g 0 [put d 16, put a 11, put b 6]
  | .clz g d a => pack 19 g 0 [put d 16, put a 11]
  | .popc g d a => pack 20 g 0 [put d 16, put a 11]
  | .sel g d a b k => pack 21 g 0 [put d 16, put a 11, put b 6, put k 0]
  | .addi g d a i => pack 24 g 0 [put d 16, put a 11, put i 0]
  | .andi g d a i => pack 25 g 0 [put d 16, put a 11, put i 0]
  | .ori g d a i => pack 26 g 0 [put d 16, put a 11, put i 0]
  | .xori g d a i => pack 27 g 0 [put d 16, put a 11, put i 0]
  | .shli g d a i => pack 28 g 0 [put d 16, put a 11, put i 0]
  | .shri g d a i => pack 29 g 0 [put d 16, put a 11, put i 0]
  | .sari g d a i => pack 30 g 0 [put d 16, put a 11, put i 0]
  | .movi g d i => pack 32 g 0 [put d 16, put i 0]
  | .movhi g d i => pack 33 g 0 [put d 16, put i 0]
  | .cmpEq g d a b => pack 40 g 0 [put d 16, put a 11, put b 6]
  | .cmpNe g d a b => pack 41 g 0 [put d 16, put a 11, put b 6]
  | .cmpLt g d a b => pack 42 g 0 [put d 16, put a 11, put b 6]
  | .cmpLtu g d a b => pack 43 g 0 [put d 16, put a 11, put b 6]
  | .cmpGe g d a b => pack 44 g 0 [put d 16, put a 11, put b 6]
  | .cmpGeu g d a b => pack 45 g 0 [put d 16, put a 11, put b 6]
  | .cmpiEq g d a i => pack 48 g 0 [put d 16, put a 11, put i 0]
  | .cmpiNe g d a i => pack 49 g 0 [put d 16, put a 11, put i 0]
  | .cmpiLt g d a i => pack 50 g 0 [put d 16, put a 11, put i 0]
  | .cmpiLtu g d a i => pack 51 g 0 [put d 16, put a 11, put i 0]
  | .cmpiGe g d a i => pack 52 g 0 [put d 16, put a 11, put i 0]
  | .cmpiGeu g d a i => pack 53 g 0 [put d 16, put a 11, put i 0]
  | .pand g d a b => pack 56 g 0 [put d 16, put a 11, put b 6]
  | .por g d a b => pack 57 g 0 [put d 16, put a 11, put b 6]
  | .pxor g d a b => pack 58 g 0 [put d 16, put a 11, put b 6]
  | .pnot g d a => pack 59 g 0 [put d 16, put a 11]
  | .pmovPp g d a => pack 60 g 0 [put d 16, put a 11]
  | .pmovPs g d a => pack 60 g 1 [put d 16, put a 11]
  | .pmovSp g d a => pack 60 g 2 [put d 16, put a 11]
  | .qpeek g d a => pack 61 g 0 [put d 16, put a 11]
  | .qcnt g d a => pack 62 g 0 [put d 16, put a 11]
  | .qclr g a => pack 63 g 0 [put a 11]
  | .br g o => pack 64 g 0 [put o 0]
  | .call g o => pack 65 g 0 [put o 0]
  | .ret g a => pack 66 g 0 [put a 11]
  | .jmp g d a => pack 67 g 0 [put d 16, put a 11]
  | .loop g l c => pack 68 g 0 [put l 8, put c 0]
  | .loopi g l c => pack 69 g 0 [put l 8, put c 0]
  | .loopr g l s c => pack 70 g 0 [put l 8, put s 5, put c 0]
  | .lbrk g n => pack 71 g 0 [put n 0]
  | .lidx g d l => pack 72 g 0 [put d 16, put l 0]
  | .lidxIn g d l => pack 72 g 8 [put d 16, put l 0]
  | .dtld g d e => pack 73 g 0 [put d 16, put e 0]
  | .sysr g d r => pack 80 g 0 [put d 16, put r 0]
  | .sysw g d r => pack 81 g 0 [put d 16, put r 0]
  | .syss g d r => pack 82 g 0 [put d 16, put r 0]
  | .sysc g d r => pack 83 g 0 [put d 16, put r 0]
  | .trap g n => pack 84 g 0 [put n 0]
  | .trapSys g n => pack 84 g 32768 [put n 0]
  | .eret g => pack 85 g 0 []
  | .halt g => pack 86 g 0 []
  | .haltAbort g a => pack 86 g 1 [put a 11]
  | .waitc g l s c t => pack 88 g 0 [put l 12, put s 8, put c 4, put t 0]
  | .sleep g a => pack 89 g 0 [put a 11]
  | .cyc g d => pack 90 g 0 [put d 16]
  | .isync g d => pack 92 g 0 [put d 16]
  | .segmark g a => pack 93 g 0 [put a 11]
  | .bswap g a => pack 94 g 0 [put a 11]
  | .vadd g v a b t k f => pack 1 g 0 [put v 17, put a 13, put b 9, put t 5, put k 2, put f 0]
  | .vsub g v a b t k f => pack 2 g 0 [put v 17, put a 13, put b 9, put t 5, put k 2, put f 0]
  | .vmul g v a b t k f => pack 3 g 0 [put v 17, put a 13, put b 9, put t 5, put k 2, put f 0]
  | .vfma g v a b t k f => pack 4 g 0 [put v 17, put a 13, put b 9, put t 5, put k 2, put f 0]
  | .vmin g v a b t k => pack 5 g 0 [put v 17, put a 13, put b 9, put t 5, put k 2]
  | .vmax g v a b t k => pack 6 g 0 [put v 17, put a 13, put b 9, put t 5, put k 2]
  | .vabs g v a t k f => pack 7 g 0 [put v 17, put a 13, put t 5, put k 2, put f 0]
  | .vneg g v a t k f => pack 8 g 0 [put v 17, put a 13, put t 5, put k 2, put f 0]
  | .vand g v a b t k => pack 9 g 0 [put v 17, put a 13, put b 9, put t 5, put k 2]
  | .vor g v a b t k => pack 10 g 0 [put v 17, put a 13, put b 9, put t 5, put k 2]
  | .vxor g v a b t k => pack 11 g 0 [put v 17, put a 13, put b 9, put t 5, put k 2]
  | .vshl g v a b t k => pack 12 g 0 [put v 17, put a 13, put b 9, put t 5, put k 2]
  | .vshr g v a b t k => pack 13 g 0 [put v 17, put a 13, put b 9, put t 5, put k 2]
  | .vsar g v a b t k => pack 14 g 0 [put v 17, put a 13, put b 9, put t 5, put k 2]
  | .vcmpEq g d a b t k => pack 16 g 0 [put d 17, put a 13, put b 9, put t 5, put k 2]
  | .vcmpNe g d a b t k => pack 17 g 0 [put d 17, put a 13, put b 9, put t 5, put k 2]
  | .vcmpLt g d a b t k => pack 18 g 0 [put d 17, put a 13, put b 9, put t 5, put k 2]
  | .vcmpLtu g d a b t k => pack 19 g 0 [put d 17, put a 13, put b 9, put t 5, put k 2]
  | .vcmpGe g d a b t k => pack 20 g 0 [put d 17, put a 13, put b 9, put t 5, put k 2]
  | .vcmpGeu g d a b t k => pack 21 g 0 [put d 17, put a 13, put b 9, put t 5, put k 2]
  | .vsel g v a b t k => pack 22 g 0 [put v 17, put a 13, put b 9, put t 5, put k 2]
  | .vcvt g v a s t k f => pack 24 g 0 [put v 17, put a 13, put s 9, put t 5, put k 2, put f 0]
  | .vrot g v a n t k f => pack 25 g 0 [put v 17, put a 13, put n 9, put t 5, put k 2, put f 0]
  | .virot g v a t k => pack 26 g 0 [put v 17, put a 13, put t 5, put k 2]
  | .vredSum g v a t k u x => pack 28 g 0 [put v 17, put a 13, put t 5, put k 2, put u 1, put x 0]
  | .vredMax g v a t k x => pack 29 g 0 [put v 17, put a 13, put t 5, put k 2, put x 0]
  | .vredMin g v a t k x => pack 30 g 0 [put v 17, put a 13, put t 5, put k 2, put x 0]
  | .vtrn g v a t k => pack 32 g 0 [put v 17, put a 13, put t 5, put k 2]
  | .kand g d a b => pack 40 g 0 [put d 17, put a 13, put b 9]
  | .kor g d a b => pack 41 g 0 [put d 17, put a 13, put b 9]
  | .knot g d a => pack 42 g 0 [put d 17, put a 13]
  | .vaddScalar g v a s t k f => pack 65 g 0 [put v 17, put a 13, put s 8, put t 4, put k 1, put f 0]
  | .vsubScalar g v a s t k f => pack 66 g 0 [put v 17, put a 13, put s 8, put t 4, put k 1, put f 0]
  | .vmulScalar g v a s t k f => pack 67 g 0 [put v 17, put a 13, put s 8, put t 4, put k 1, put f 0]
  | .vfmaScalar g v a s t k f => pack 68 g 0 [put v 17, put a 13, put s 8, put t 4, put k 1, put f 0]
  | .vminScalar g v a s t k => pack 69 g 0 [put v 17, put a 13, put s 8, put t 4, put k 1]
  | .vmaxScalar g v a s t k => pack 70 g 0 [put v 17, put a 13, put s 8, put t 4, put k 1]
  | .vandScalar g v a s t k => pack 73 g 0 [put v 17, put a 13, put s 8, put t 4, put k 1]
  | .vorScalar g v a s t k => pack 74 g 0 [put v 17, put a 13, put s 8, put t 4, put k 1]
  | .vxorScalar g v a s t k => pack 75 g 0 [put v 17, put a 13, put s 8, put t 4, put k 1]
  | .vshlScalar g v a s t k => pack 76 g 0 [put v 17, put a 13, put s 8, put t 4, put k 1]
  | .vshrScalar g v a s t k => pack 77 g 0 [put v 17, put a 13, put s 8, put t 4, put k 1]
  | .vsarScalar g v a s t k => pack 78 g 0 [put v 17, put a 13, put s 8, put t 4, put k 1]
  | .vcmpEqScalar g d a s t k => pack 80 g 0 [put d 17, put a 13, put s 8, put t 4, put k 1]
  | .vcmpNeScalar g d a s t k => pack 81 g 0 [put d 17, put a 13, put s 8, put t 4, put k 1]
  | .vcmpLtScalar g d a s t k => pack 82 g 0 [put d 17, put a 13, put s 8, put t 4, put k 1]
  | .vcmpLtuScalar g d a s t k => pack 83 g 0 [put d 17, put a 13, put s 8, put t 4, put k 1]
  | .vcmpGeScalar g d a s t k => pack 84 g 0 [put d 17, put a 13, put s 8, put t 4, put k 1]
  | .vcmpGeuScalar g d a s t k => pack 85 g 0 [put d 17, put a 13, put s 8, put t 4, put k 1]
  | .vbcast g v a s t k f => pack 96 g 0 [put v 17, put a 13, put s 8, put t 4, put k 1, put f 0]
  | .viota g v s t k c => pack 97 g 0 [put v 17, put s 8, put t 4, put k 1, put c 0]
  | .vext g q a s x => pack 98 g 0 [put q 17, put a 13, put s 8, put x 0]
  | .vins g v s => pack 99 g 0 [put v 17, put s 8]
  | .vshp g s => pack 100 g 0 [put s 8]
  | .kwin g d s k => pack 101 g 0 [put d 17, put s 8, put k 1]
  | .fexp2 g v a t k => pack 1 g 0 [put v 17, put a 13, put t 4, put k 1]
  | .flog2 g v a t k => pack 2 g 0 [put v 17, put a 13, put t 4, put k 1]
  | .frcp g v a t k => pack 3 g 0 [put v 17, put a 13, put t 4, put k 1]
  | .frsq g v a t k => pack 4 g 0 [put v 17, put a 13, put t 4, put k 1]
  | .fsigm g v a t k => pack 5 g 0 [put v 17, put a 13, put t 4, put k 1]
  | .ftanh g v a t k => pack 6 g 0 [put v 17, put a 13, put t 4, put k 1]
  | .ferf g v a t k => pack 7 g 0 [put v 17, put a 13, put t 4, put k 1]
  | .ftopk g v a s t k l => pack 8 g 0 [put v 17, put a 13, put s 8, put t 4, put k 1, put l 0]
  | .fhkey g q a s r => pack 9 g 0 [put q 17, put a 13, put s 8, put r 0]
  | .ld8 g d h o j => pack 1 g 0 [put d 16, put h 8, put o 3, put j 0]
  | .ld16 g d h o j => pack 2 g 0 [put d 16, put h 8, put o 3, put j 0]
  | .ld32 g d h o j => pack 3 g 0 [put d 16, put h 8, put o 3, put j 0]
  | .ld64 g d h o j => pack 4 g 0 [put d 16, put h 8, put o 3, put j 0]
  | .ld8s g d h o j => pack 5 g 0 [put d 16, put h 8, put o 3, put j 0]
  | .ld16s g d h o j => pack 6 g 0 [put d 16, put h 8, put o 3, put j 0]
  | .ld32s g d h o j => pack 7 g 0 [put d 16, put h 8, put o 3, put j 0]
  | .st8 g d h o j => pack 8 g 0 [put d 16, put h 8, put o 3, put j 0]
  | .st16 g d h o j => pack 9 g 0 [put d 16, put h 8, put o 3, put j 0]
  | .st32 g d h o j => pack 10 g 0 [put d 16, put h 8, put o 3, put j 0]
  | .st64 g d h o j => pack 11 g 0 [put d 16, put h 8, put o 3, put j 0]
  | .vld g v m s k c x => pack 12 g 0 [put v 17, put m 13, put s 8, put k 5, put c 1, put x 0]
  | .vst g v m s k c x => pack 13 g 0 [put v 17, put m 13, put s 8, put k 5, put c 1, put x 0]
  | .atomAdd g d h o u w => pack 16 g 0 [put d 16, put h 8, put o 3, put u 1, put w 0]
  | .atomMin g d h o u w => pack 17 g 0 [put d 16, put h 8, put o 3, put u 1, put w 0]
  | .atomMax g d h o u w => pack 18 g 0 [put d 16, put h 8, put o 3, put u 1, put w 0]
  | .atomSwap g d h o u w => pack 19 g 0 [put d 16, put h 8, put o 3, put u 1, put w 0]
  | .atomCas g d h o u w => pack 20 g 0 [put d 16, put h 8, put o 3, put u 1, put w 0]
  | .ratomAdd g d h o f u w => pack 24 g 0 [put d 16, put h 8, put o 3, put f 2, put u 1, put w 0]
  | .ratomMin g d h o f u w => pack 25 g 0 [put d 16, put h 8, put o 3, put f 2, put u 1, put w 0]
  | .ratomMax g d h o f u w => pack 26 g 0 [put d 16, put h 8, put o 3, put f 2, put u 1, put w 0]
  | .ratomSwap g d h o f u w => pack 27 g 0 [put d 16, put h 8, put o 3, put f 2, put u 1, put w 0]
  | .ratomCas g d h o f u w => pack 28 g 0 [put d 16, put h 8, put o 3, put f 2, put u 1, put w 0]
  | .tlook g d a => pack 32 g 0 [put d 16, put a 11]
  | .tlookR g d a b => pack 32 g 1 [put d 16, put a 11, put b 6]
  | .tset g d a b => pack 33 g 0 [put d 16, put a 11, put b 6]
  | .tdel g d a => pack 34 g 0 [put d 16, put a 11]
  | .tpin g d a => pack 35 g 0 [put d 16, put a 11]
  | .tunpin g d a => pack 36 g 0 [put d 16, put a 11]
  | .tmld g m h o z => pack 40 g 0 [put m 17, put h 9, put o 4, put z 0]
  | .tmst g m h o z => pack 41 g 0 [put m 17, put h 9, put o 4, put z 0]
  | .tmset g m a x => pack 42 g 0 [put m 16, put a 11, put x 0]
  | .tmsetClear g m => pack 42 g 63 [put m 16]
  | .tmadd g m a x => pack 43 g 0 [put m 16, put a 11, put x 0]
  | .sgset g d a b => pack 44 g 0 [put d 16, put a 11, put b 6]
  | .fenceScope g s => pack 48 g 0 [put s 0]
  | .fenceX g => pack 49 g 0 []
  | .semsig g a n => pack 52 g 0 [put a 11, put n 0]
  | .semwait g a => pack 53 g 0 [put a 11]
  | .barr g d s => pack 54 g 0 [put d 16, put s 0]
  | .tqpush g d a b => pack 55 g 0 [put d 16, put a 11, put b 6]
  | .tqpop g d a k => pack 56 g 0 [put d 16, put a 11, put k 0]
  | .fuse g m => pack 57 g 0 [put m 0]
  | .decouple g => pack 58 g 0 []
  | .rejoin g => pack 59 g 0 []
  | .taskput g d a b => pack 60 g 0 [put d 16, put a 11, put b 6]
  | .futrd g d a => pack 61 g 0 [put d 16, put a 11]
  | .futfill g a b => pack 62 g 0 [put a 11, put b 6]
  | .mlease g n e => pack 64 g 0 [put n 13, encOpt e]
  | .mfree g e => pack 65 g 0 [encOpt e]
  | .mldw g a l u c e => pack 66 g 0 [put a 17, put l 16, put u 15, put c 0, encOpt e]
  | .mrun g a b f h k e => pack 67 g 0 [put a 17, put b 13, put f 2, put h 1, put k 0, encOpt e]
  | .mdrain g a b h k e => pack 68 g 0 [put a 17, put b 13, put h 1, put k 0, encOpt e]
  | .mclr g b e => pack 69 g 0 [put b 13, encOpt e]
  | .massay g a b l e => pack 70 g 0 [put a 17, put b 13, put l 0, encOpt e]
  | .copy g a b e => pack 72 g 0 [put a 17, put b 13, encOpt e]
  | .copy2 g a b t e => pack 73 g 0 [put a 17, put b 13, put t 0, encOpt e]
  | .gath g a b e => pack 74 g 0 [put a 17, put b 13, encOpt e]
  | .mcast g a b f l e => pack 75 g 0 [put a 17, put b 13, put f 2, put l 0, encOpt e]
  | .subs g a b l e => pack 76 g 0 [put a 17, put b 13, put l 0, encOpt e]
  | .unsub g a e => pack 77 g 0 [put a 17, encOpt e]
  | .rfree g a b e => pack 78 g 0 [put a 17, put b 13, encOpt e]
  | .hfetch g a l e => pack 80 g 0 [put a 17, put l 0, encOpt e]
  | .prosp g a b c e => pack 81 g 0 [put a 17, put b 13, put c 0, encOpt e]
  | .hrebind g a b e => pack 82 g 0 [put a 17, put b 13, encOpt e]
  | .decj g a c e => pack 84 g 0 [put a 17, put c 0, encOpt e]
  | .publish g c e => pack 85 g 0 [put c 0, encOpt e]
  | .trapEntry _ => 0
  | .sleepWake _ => 0
  | .landingArrival _ => 0
  | .landingWatchdog _ => 0
  | .handleFill _ => 0
  | .handleFillTimeout _ => 0
  | .engineCommandStart _ _ => 0
  | .engineCommandComplete _ _ _ => 0
  | .aTileConsumed _ _ => 0
  | .faceLeaseGrant _ => 0
  | .leaseExpiry _ => 0
  | .leaseEnd _ => 0
  | .semaphoreIncrement _ => 0
  | .semaphoreDecrementGrant _ _ => 0
  | .tokenQueuePush _ => 0
  | .tokenQueuePop _ => 0
  | .barrierArrival _ => 0
  | .barrierResume _ => 0
  | .gangFuse _ _ => 0
  | .gangTimeout _ => 0
  | .gangRejoin _ => 0
  | .ratomStep _ => 0
  | .remoteTagProbe _ => 0
  | .futureFillApply _ => 0
  | .futfillAnswer _ => 0
  | .fetchRequest _ => 0
  | .fetchQueueServe _ => 0
  | .stagingFetchComplete _ _ => 0
  | .prospectorSelection _ => 0
  | .hrebindApply _ => 0
  | .segmentCopyLand _ => 0
  | .packetPlace _ _ => 0
  | .listRecordReread _ _ => 0
  | .decodeJobAccept _ => 0
  | .decodeChunkFinish _ => 0
  | .decodeJobComplete _ => 0
  | .hostFlushReadComplete _ => 0
  | .netAckReceive _ => 0
  | .netPacketReceive _ _ _ _ => 0
  | .powerOnReset => 0
  | .winderFrame => 0
  | .start _ => 0
  | .resume _ => 0
  | .preempt _ => 0
  | .preemptHonour _ => 0
  | .clusterClockGate _ => 0
  | .clusterClockWake _ => 0
  | .retainWakeHandshake _ => 0
  | .thermalStepChange _ _ => 0
  | .countingWindowBoundary => 0
  | .repairStepStart _ _ _ _ _ => 0
  | .repairStepEnd _ _ => 0
  | .retirementCut _ _ _ _ _ => 0
  | .retirementReport _ => 0
  | .targetedTestStart _ => 0
  | .targetedTestEnd _ _ => 0
  | .clusterFence _ => 0
  | .launch _ => 0
  | .post _ => 0
  | .install _ => 0
  | .uninstall _ => 0
  | .release _ => 0
  | .attest _ => 0
  | .contextCreate _ => 0
  | .contextDestroy _ => 0
  | .window _ => 0
  | .kill _ => 0
  | .map _ => 0
  | .unmap _ => 0
  | .xferToDevice _ => 0
  | .xferToHost _ => 0
  | .badkindEntry _ => 0
  | .doorbell _ _ _ => 0
  | .taskRegister _ _ _ _ => 0
  | .clusterWakeRegister _ _ _ => 0
  | .winshift _ => 0
  | .wakeerr _ => 0
  | .registerWrite _ _ _ _ => 0
  | .signTableReadArrival _ => 0
  | .readDisturbRefresh _ _ => 0
  | .wearLevelling _ _ _ _ => 0
  | .throttleThresholdCrossing _ _ => 0

end Sys2Proof
end

