-- ==== Sys2Proof/Machine/State.lean ====
section
/-! DEFINITION. The state of the package as plain data, and its value after reset (01 R30). -/

namespace Sys2Proof.Machine

/-- A sparse table: number and value. -/
abbrev Table (α : Type) := List (Nat × α)

/-- A memory: bytes by address, addresses rising, no zero byte listed; an unlisted byte reads as zero. -/
abbrev Memory := List Host.Cell

/-- A rotation tag (06 R117). -/
structure Tag where
  code : BitVec 3 := 0
  id : BitVec 16 := 0
  deriving DecidableEq, Repr

/-- The cause codes of 21 R373. -/
inductive Cause where
  | illegalInstruction | reservedField | privilege | unassignedRegister | fetchRange | software | entryRegion | doubleTrap
  | queueUnderflow | queueOverflow | loopStackOverflow | loopStackUnderflow | loopCount | vectorShape | vectorIndex
  | landingWatchdog | syncIndex
  | misalignedAccess | tensorMap | handleFill | pinOverflow | future | taskRecord | signTable
  | missedPromise | replayHoldOverflow | lease | plane | matrixOperand | accumulatorKind | engineOperand | segment
  | flagOverflow
  | firstNan | format | tagMismatch | rotationShape | signMiss
  | poisonConsumption | exhaustedSpares | iterationOverrun | group | gang
  deriving DecidableEq, Repr

/-- A trap as its raiser gives it: cause, sub-cause and TVAL. -/
structure Trap where
  cause : Cause
  sub : BitVec 4 := 0
  tval : Word := 0
  deriving DecidableEq, Repr

/-- The kinds of trap of 21 R368; `F` is told by the cause. -/
inductive TrapKind where
  | i | a | b | s
  deriving DecidableEq, Repr

/-- A trap request: what CAUSE and TVAL will hold, and where the trapped code resumes. -/
structure TrapReq where
  trap : Trap
  kind : TrapKind
  slot : BitVec 3 := 0
  eng : Bool := false
  queue : BitVec 2 := 0
  commit : BitVec 20 := 0
  spec : BitVec 20 := 0
  /-- Of a first-NaN trap of an engine command: the cycle of its event and the element (05 R114). -/
  np : Option (Nat × Nat) := none
  deriving DecidableEq, Repr

/-- An entry of a queue register (01 R18): reserved at issue, held once its value has landed; `tag` is the hidden command
tag of q7 (14 R287). -/
structure QEntry where
  id : Nat
  val : Option Word := none
  tag : Option Nat := none
  deriving DecidableEq, Repr

/-- A live loop level (01 R7), with the replay stage count (04 R92; 0 for an ordinary loop). -/
structure Loop where
  start : BitVec 13
  fin : BitVec 13
  count : BitVec 32
  index : BitVec 32 := 0
  stages : Nat := 0
  deriving DecidableEq, Repr

/-- Where an NP event arose (05 R114). -/
structure NpInfo where
  unit : BitVec 4
  pc : BitVec 13
  row : BitVec 7 := 0
  col : BitVec 14 := 0
  kstep : BitVec 16 := 0
  slot : BitVec 3 := 0
  queue : Option (BitVec 2) := none
  deriving DecidableEq, Repr

/-- The system registers whose stored bits an instruction writes by SYSW, SYSS and SYSC (01 R22). -/
inductive SysReg where
  | status | cause | epc | tval | tvec | cycle | coreid | role | syncwin | fpstat | accstat | srkey | hostord
  | sparebudget | bankfmt (b : Fin 16)
  deriving DecidableEq, Repr

/-- A register write that becomes visible at the end of a cycle (01 R13). -/
inductive Write where
  | scalar (r : Nat) (v : Word)
  | pred (n : Nat) (b : Bool)
  | push (q : Nat) (id : Nat) (v : Word) (tag : Option Nat)
  | vec (r : Nat) (mask v : BitVec 65536) (tag : Tag)
  | kmask (r : Nat) (mask v : BitVec 16384)
  | tmap (r : Nat) (mask v : BitVec 512)
  | sign (r : Nat) (v : BitVec 144)
  | vshape (v : Word)
  | flags (f : BitVec 7) (np : Option NpInfo)
  | sys (r : SysReg) (v : Word) (clear : Word)
  /-- A violation sets STATUS.VIOL and TVAL (01 R27). -/
  | viol (tval : Word)
  | delta (e : Nat) (v : Word)
  deriving DecidableEq, Repr

/-- A pending write: it lands at the end of running cycle `due` (01 R13), in slot order (01 R16). -/
structure Pend where
  due : Nat
  slot : Nat
  w : Write
  deriving DecidableEq, Repr

/-- A result delivered through a landing slot (14 R289); `arrived` holds its writes once the result has come. -/
structure Landing where
  id : Nat
  due : Nat
  slot : Nat
  pc : BitVec 13
  arrived : Option (List Write) := none
  /-- A result that comes so many cycles of the core's die after its landing cycle, with its writes (07 R159). -/
  late : Option (Nat × List Write) := none
  deriving DecidableEq, Repr

/-- Scalar, queue and predicate registers (01 R17-R19). -/
structure RegFile where
  s : Vector Word 24
  p : BitVec 8
  q : Vector (List QEntry) 8
  nextQ : Nat
  deriving DecidableEq, Repr

/-- A vector register with its rotation tag (04 R84, R87). -/
structure VReg where
  bits : BitVec 65536 := 0
  tag : Tag := {}
  deriving DecidableEq, Repr

/-- Vector, mask, tensor-map and sign registers (04 R84-R89, 06 R119). -/
structure VecFile where
  v : Vector VReg 16
  k : Vector (BitVec 16384) 8
  vshape : Word
  tm : Vector (BitVec 512) 16
  sg : Vector (BitVec 144) 8
  deriving DecidableEq, Repr

/-- The stored system registers (01 R22); STATUS's other fields and ACCSTAT.LEASE are computed. -/
structure SysFile where
  mode : Bool
  pmode : Bool
  viol : Bool
  cause : Word
  epc : Word
  tval : Word
  tvec : Word
  role : Word
  syncwin : Word
  fpstat : Word
  accstat : Word
  srkey : Word
  hostord : Word
  bankfmt : Vector Word 16
  deriving DecidableEq, Repr

/-- What a core does in a cycle: issue, wait for an event, or nothing. -/
inductive RunMode where
  /-- Halted: issues nothing until a record starts (01 R30). -/
  | halted
  /-- Issuing bundles. -/
  | running
  /-- HALT's bundle has issued; pending writes complete first (01 R30). The code and the value of the completion entry (10 R199). -/
  | halting (code : BitVec 2) (value : Word)
  /-- Asleep until a cycle, with the promise its SLEEP popped (03 R80, 14 R288). -/
  | asleep (wake : Word) (promise : Option Nat)
  /-- A trap waits for pending writes to complete before its entry (21 R369). -/
  | trapping (req : TrapReq)
  /-- Frozen by handle-cache misses until a cycle (11 R228). -/
  | filling (since until_ : Nat) (handles : List Nat)
  /-- Frozen by a late landing since a cycle (14 R289). -/
  | frozen (since : Nat)
  /-- TRAP.SYS's bundle has issued; the service request follows once pending writes have completed (03 R75). -/
  | serving (n : BitVec 15)
  /-- Held by TRAP.SYS until the Winder releases it (03 R75). -/
  | held (n : BitVec 15)
  /-- At a barrier: the group, the predicate, the waited generation once the arrival has been applied (10 R202). -/
  | barrier (group : Nat) (pred : Nat) (gen : Option (BitVec 32)) (slot : Nat)
  /-- A FUSE pending since a cycle (10 R204). -/
  | fusing (mask : BitVec 4) (since : Nat) (slot : Nat)
  /-- A REJOIN pending since a cycle (10 R205). -/
  | rejoining (since : Nat) (slot : Nat)
  /-- The context is being saved (21 R375). -/
  | saving (until_ : Option Nat)
  /-- The context is being restored (21 R375). -/
  | restoring (until_ : Nat)
  deriving DecidableEq, Repr

/-- A transfer of control waiting for its delay bundles (03 R68). -/
structure Transfer where
  target : BitVec 13
  left : Nat
  deriving DecidableEq, Repr

/-- A rollback of a replay loop (22 R384-R387). -/
structure Rollback where
  iter : Nat
  drainEnd : Nat
  reentered : Bool
  closePass : Nat
  deriving DecidableEq, Repr

/-- The loop snapshot of a trap entry (21 R366), with the rollback that a handler leaves open (22 R387). -/
structure Snapshot where
  loops : List Loop := []
  passCycles : Nat := 0
  passOpen : Bool := false
  iterCycles : Nat := 0
  rollback : Option Rollback := none
  deriving DecidableEq, Repr

/-- A request of a bundle that waits before issue (12 R249, R254, R261), by its slot. -/
inductive SlotWait where
  /-- SEMWAIT's request is with the flag store, under its number. -/
  | semSent (slot die sem id : Nat)
  /-- The decrement is made; its grant reaches the core at a cycle. -/
  | semGranted (slot die sem at_ : Nat)
  /-- FUTFILL's change has been sent to the entry's home. -/
  | futSent (slot handle : Nat) (v : BitVec 32)
  /-- The home has answered: none for success, or the sub-cause. -/
  | futAnswer (slot : Nat) (r : Option (BitVec 4))
  /-- SGSET's table bytes are on their way until a cycle, from these rows of HBM. -/
  | sgSent (slot at_ : Nat) (rows : List Nat)
  /-- They have arrived. -/
  | sgArrived (slot : Nat)
  deriving DecidableEq, Repr

/-- A change of control that a bundle's SA instruction asks for. -/
inductive Control where
  | none
  /-- BR, CALL, JMP, RET, BSWAP: to the target after two delay bundles. -/
  | transfer (target : BitVec 13)
  /-- LOOP, LOOPI, LOOPR with a nonzero count. -/
  | push (l : Loop)
  /-- A loop instruction with a count of zero: fetch continues here. -/
  | skip (next : Nat)
  | lbrk (n : Nat)
  | eret
  | halt (code : BitVec 2) (value : Word)
  | sleep (wake : Word) (promise : Option Nat)
  | softTrap (n : BitVec 15)
  | service (n : BitVec 15)
  deriving DecidableEq, Repr

/-- Where a core stands in its program. (DESIGN CHOICE, log 3) -/
structure Seq where
  pc : BitVec 13
  loops : List Loop
  /-- A handler has cleared EPC.RPL over a live replay level (21 R366): STATUS.RPL is 0 while the level goes on. -/
  rplOff : Bool
  passCycles : Nat
  /-- A bundle of the current replay pass has issued (04 R97). -/
  passOpen : Bool
  iterCycles : Nat
  transfer : Option Transfer
  delayLeft : Nat
  delta : Vector Word 64
  taskEntered : Bool
  entryRegion : Bool
  mode : RunMode
  /-- The landing freeze ends, or a fill ends, into this mode. -/
  resume : RunMode
  /-- What the core waits for after its mode, in order: a bundle can ask for several waits. -/
  next : List RunMode
  /-- The change of control of a bundle whose last cycle a late landing has frozen (14 R289): it follows the landing. -/
  ending : Option Control
  rn : Nat
  pend : List Pend
  landings : List Landing
  nextLanding : Nat
  unitBusy : Vector Nat 8
  snap : Snapshot
  rollback : Option Rollback
  events : List TrapReq
  wait : List SlotWait
  /-- The slots of a frozen bundle that use its missing handles, by handle (21 R367). -/
  fillSlots : Table Nat
  preempt : Bool
  /-- The last cycle was a wait before issue at which a pre-emption request is honoured (21 R374). -/
  waitHonour : Bool
  deriving DecidableEq, Repr

/-- An entry of the tag table (11 R232). -/
structure TagEntry where
  v : Bool := false
  pins : BitVec 8 := 0
  payload : BitVec 32 := 0
  key : Word := 0
  deriving DecidableEq, Repr

/-- The kind of an accumulator row (08 R174). -/
inductive AccKind where
  | clear | int | fp
  deriving DecidableEq, Repr

/-- An accumulator row: its issue view of kind and tag (09 R181), and its elements. -/
structure AccRow where
  kind : AccKind := .clear
  tag : Tag := {}
  bits : BitVec 32768 := 0
  /-- The poisoned sectors of the row, 8 columns each (22 R379). -/
  poison : BitVec 128 := 0
  deriving DecidableEq, Repr

/-- The segment state of a core (03 R81, 14 R299). -/
structure SegState where
  status : Word := 0
  copy : Option (Nat × Nat × Nat) := none
  landed : Option Nat × Option Nat := (none, none)
  crcErr : Bool × Bool := (false, false)
  deriving DecidableEq, Repr

/-- An overwritten aligned word of a scratchpad: the number of its write, its address, its old bytes (13 R271), whether a .64 atomic wrote it,
whose 8 bytes stand whole (13 R264), and whether an engine wrote it. -/
structure OldWord where
  seq : Nat
  addr : Nat
  old : BitVec 32
  pair : Bool
  eng : Bool := false
  deriving DecidableEq, Repr

/-- The writes to its core's scratchpad that an engine command's reads follow: the core's stores before its FENCE.X (12 R251), and the writes of
engines that the core or the command has seen complete (13 R272), each as a number of writes. -/
structure Epoch where
  own : Nat := 0
  eng : Nat := 0
  deriving DecidableEq, Repr

/-- What a core stores: memories and tables next to the pipelines. (DESIGN CHOICE, log 3) -/
structure Store where
  spad : Memory
  poison : List Nat
  imem : Memory
  ipoison : List Nat
  acc : Vector AccRow 64
  tags : Vector TagEntry 64
  hcache : List (Nat × BitVec 256)
  seg : SegState
  old : List OldWord
  /-- Of words that engines have read, or that a remote step has written: no engine reads a value older than that before the write with this
  number (13 R266). -/
  seen : Table Nat
  storeSeq : Nat
  fenceX : Nat
  /-- The number of writes up to which the core has seen its engines' commands complete (13 R272). -/
  engSeen : Nat
  deriving DecidableEq, Repr

/-- A flag of a flag store: die and absolute number. -/
structure FlagRef where
  die : Nat
  sem : Nat
  rel : Nat := 0
  deriving DecidableEq, Repr

/-- A handle with the entry captured at issue (11 R229). -/
structure HInfo where
  h : Nat := 0
  e : BitVec 256 := 0
  deriving DecidableEq, Repr

/-- How the data behind a map decode: the holder's or, behind a RAW holder, the map's (06 R123). -/
structure Fmt where
  code : BitVec 8 := 0
  aux : BitVec 3 := 0
  ssrc : BitVec 2 := 3
  sh : HInfo := {}
  tag : Tag := {}
  deriving DecidableEq, Repr

/-- The fields of a plane, MALF and VALID apart (08 R163). -/
structure PlaneInfo where
  fmt : BitVec 8 := 0
  ncode : BitVec 3 := 0
  layout : BitVec 1 := 0
  ktag : Tag := {}
  kext : Nat := 0
  next : Nat := 0
  ctx : Nat := 0
  deriving DecidableEq, Repr

/-- A plane of a face (08 R163); weights by logical k row, then column; block scales by block, then column. -/
structure Plane where
  valid : Bool := false
  info : PlaneInfo := {}
  malf : Bool := false
  w : List (List Int) := []
  scale : List (List Nat) := []
  deriving DecidableEq, Repr

/-- What an engine command captures at issue (16 R331). -/
structure Cap where
  ma : BitVec 512 := 0
  mb : BitVec 512 := 0
  ha : HInfo := {}
  hb : HInfo := {}
  hc : HInfo := {}
  hd : HInfo := {}
  fa : Fmt := {}
  fb : Fmt := {}
  x : Word := 0
  y : Word := 0
  rm : BitVec 3 := 0
  sat : Bool := false
  mask : Option (BitVec 128) := none
  srBase : Word := 0
  hostord : Bool := false
  plane : PlaneInfo := {}
  epoch : Epoch := {}
  step : BitVec 2 := 0
  deriving DecidableEq, Repr

/-- The acquire of a command (14 R282). -/
inductive AcqState where
  | idle | sent (id : Nat) | granted (at_ : Nat)
  deriving DecidableEq, Repr

/-- The progress of a command. -/
structure Progress where
  start : Option Nat := none
  due : Option Nat := none
  acq : AcqState := .idle
  commit : Nat := 0
  spec : Nat := 0
  consumed : Bool := false
  repaired : Bool := false
  waiting : Bool := false
  leaseReq : Option Nat := none
  /-- The earliest start behind a FENCE.X, once chosen (12 R251). -/
  hold : Option Nat := none
  /-- A repair stall: when it began and the cycles left after it (22 R395). -/
  stall : Option (Nat × Nat) := none
  /-- Dropped out of its fault slot (21 R371): it completes without effect. -/
  dropped : Bool := false
  /-- It has started before: its tokens are popped and its acquire is made (21 R372). -/
  begun : Bool := false
  /-- A fault that waits for its queue's fault slot, which an earlier command occupies (21 R371). -/
  pending : Option TrapReq := none
  outcome : Word := 0
  tile : List (List (Int × Nat)) := []
  bad : Option (Nat × Word) := none
  /-- The TVAL of a violation that the command has met, written when it completes (11 R230). -/
  viol : Option Word := none
  /-- The handles for which the command has logged its violation (11 R230). -/
  logged : List Nat := []
  /-- The flags that it has raised, and its first NP event with the element, shown when it completes (05 R112, R114). -/
  flags : BitVec 7 := 0
  np : Option (NpInfo × Nat) := none
  /-- The sectors of its source, by offset, that an error in the engine's buffers has poisoned (22 R379). -/
  struck : List Nat := []
  /-- The page tables of its context as it started, which translate its accesses (11 R236). -/
  pages : Option (Table (BitVec 64) × Table (BitVec 64)) := none
  deriving DecidableEq, Repr

/-- An engine command in its queue (14 R281). -/
structure Cmd where
  id : Nat
  op : BitVec 7
  pc : BitVec 13
  slot : BitVec 3
  queue : Nat
  tpp : Bool
  tpn : Bool
  thp : Bool
  thn : Bool
  acq : Option FlagRef
  rel : Option FlagRef
  scope : BitVec 3
  cf : BitVec 3
  rq : Option (Nat × Nat)
  after : Nat
  /-- The writes to the host and to peers that a FENCE.SYSTEM before it makes it wait for (12 R250). -/
  afterSys : Nat
  remote : Nat
  ctx : Nat
  launch : Nat
  cap : Cap
  /-- The q7 entry of a held command's promise, computed at its release (14 R287). -/
  promise : Option Nat := none
  prog : Progress := {}
  deriving DecidableEq, Repr

/-- An effect held until its replay pass retires (04 R95). -/
inductive HeldEff where
  | store (writes : List Host.Cell)
  /-- Bytes that a handler's own store has written while effects are held: the core's own loads read them from the banks. -/
  | own (addrs : List Nat)
  /-- The bank write of an ATOM: what the core's own loads see of it, and the step that its release makes (12 R241, 13 R273). -/
  | atom (view : List Host.Cell) (op : BitVec 3) (u : Bool) (v new : Nat)
  | cmd (c : Cmd)
  /-- A FENCE.scope, and whether its scope is SYSTEM. -/
  | fence (sys : Bool)
  | fenceX
  deriving DecidableEq, Repr

/-- A held effect with the source iteration of its instruction (22 R385). -/
structure Held where
  iter : Nat
  eff : HeldEff
  deriving DecidableEq, Repr

/-- A subscription (14 R293-R296, 16 R340-R343). -/
structure Sub where
  id : Nat
  ring : HInfo
  cmd : Cmd
  list : Bool
  next : Nat
  stream : BitVec 16
  seq0 : BitVec 32
  wrtot : Word
  freetot : Word
  suspended : Bool
  endReq : Bool
  at_ : Nat
  /-- The cycle in which the next packet is placed where nothing delays it (14 R295), which a promise counts with. -/
  unl : Nat
  ready : Bool
  /-- The handles for which the subscription has logged its violation (11 R230). -/
  logged : List Nat
  deriving DecidableEq, Repr

/-- Writes of a command to the host or to a peer that are not visible at SYSTEM scope yet (13 R276, R279): its number, its number as a
remote effect, and whether the host's flushing read is still out; the peer's acknowledgements stand in `netOut`. -/
structure SysOut where
  cmd : Nat
  remote : Nat
  flush : Bool
  deriving DecidableEq, Repr

/-- A core's engines (14 R281-R284, 21 R371). (DESIGN CHOICE, log 3) -/
structure Eng where
  queues : Vector (List Cmd) 3
  fault : Vector (Option Cmd) 3
  tokens : Vector Nat 4
  nextCmd : Nat
  held : List Held
  remote : List Nat
  nextRemote : Nat
  fenceAt : Nat
  sysOut : List SysOut
  fenceSys : Nat
  lastStart : Vector Nat 3
  subs : List Sub
  leaseLeft : Nat
  deriving DecidableEq, Repr

/-- The record that a core runs (10 R197, R212). -/
structure RunRec where
  launch : Nat
  ctx : Nat
  ker : BitVec 13
  epi : BitVec 13
  trip : BitVec 32
  tgrp : BitVec 8
  prio : BitVec 8
  record : BitVec 512
  maxiter : Nat
  deriving DecidableEq, Repr

/-- One core. -/
structure Core where
  regs : RegFile
  vec : VecFile
  sys : SysFile
  seq : Seq
  sto : Store
  eng : Eng
  run : Option RunRec
  lastLaunch : Option Nat
  suspicion : BitVec 8
  /-- A targeted test is scheduled; one runs since a cycle (22 R391, R392). -/
  testDue : Bool
  testing : Option Nat
  deriving DecidableEq, Repr

/-- A waiting or granted lease request of a cluster's core (08 R164). -/
structure LeaseReq where
  k : Nat
  n : Nat
  cmd : Option Nat
  /-- The member whose command asks. -/
  who : Nat
  deriving DecidableEq, Repr

/-- The lease of a face (08 R164). -/
structure Lease where
  k : Nat
  mask : BitVec 4
  left : Nat
  expiry : Nat
  expired : Bool := false
  freed : Bool := false
  deriving DecidableEq, Repr

/-- A face (08 R162-R164). -/
structure Face where
  planes : Vector Plane 2
  lease : Option Lease
  lastGrant : Option Nat
  waiting : List LeaseReq
  endedAt : Option Nat
  suspicion : BitVec 8
  testDue : Bool
  testing : Option Nat
  quarantined : Bool
  deriving DecidableEq, Repr

/-- A semaphore (10 R206). -/
structure Sem where
  count : BitVec 32 := 0
  ovf : Bool := false
  deriving DecidableEq, Repr

/-- A waiter on a semaphore: a waiting bundle (`cmd = none`) or an engine acquire, by queue and command (10 R207). An
unloaded grant reaches the core by `limit` (12 R254). -/
structure SemWaiter where
  sem : Nat
  core : Nat
  slot : Nat
  id : Nat
  cmd : Option (Nat × Nat) := none
  limit : Nat := 0
  deriving DecidableEq, Repr

/-- The state of a record in a task store (10 R215-R217). -/
inductive TaskState where
  | ready
  | parked (handles : List Nat)
  | preempted (core : Nat)
  /-- The record that a launch starts on a core of its set (10 R195); it counts in no quota. -/
  | first (core : Nat)
  deriving DecidableEq, Repr

/-- A record in a task store; a pre-empted one carries the saved context (21 R376). -/
structure TaskRec where
  id : Nat
  launch : Nat
  record : BitVec 512
  prio : BitVec 8
  state : TaskState
  saved : Option Core := none
  /-- A posted record's latest start, where 24 R411 bounds it. -/
  by_ : Option Nat := none
  deriving DecidableEq, Repr

/-- The action of a bind record (10 R217). -/
inductive BindAct where
  | start (task : Nat) | resume (task : Nat) | preempt
  deriving DecidableEq, Repr

/-- A bind record, carried out at `at_` at the earliest. -/
structure Bind where
  core : Nat
  act : BindAct
  at_ : Nat
  deriving DecidableEq, Repr

/-- A fetch-queue request (15 R309). -/
structure FetchReq where
  ctx : Nat
  handle : Nat
  launch : Nat
  demand : Bool
  prosp : Bool
  cmd : Option (Nat × Nat) := none
  deriving DecidableEq, Repr

/-- A Prospector job: the captured row in order of selection, and its counts so far (15 R313, R314). -/
structure ProspJob where
  core : Nat
  cmd : Nat
  sel : List Nat
  at_ : Nat
  deriving DecidableEq, Repr

/-- A die's dispatch, flag-store, fetch and thermal state. -/
structure Die where
  sems : Table Sem
  semWait : List SemWaiter
  tqs : Table (List Word)
  tasks : List TaskRec
  nextTask : Nat
  /-- Records with a number below this have been seen to enter the store (24 R419). -/
  taskSeen : Nat
  binds : List Bind
  lastBound : Table Nat
  boundInWindow : Table Nat
  fetch : List FetchReq
  prosp : List ProspJob
  step : BitVec 2
  /-- The changes of STEP, the latest first: the cycle of each and the STEP before it (24 R420). -/
  steps : List (Nat × BitVec 2)
  hot : Bool
  newStep : Option (BitVec 2)
  /-- Pre-emption requests outstanding: the ready queue that asked, and the core (10 R218). -/
  asked : List (Nat × Nat)
  deriving DecidableEq, Repr

/-- The power state of a cluster (24 R419). -/
inductive Power where
  | run (idleSince : Option Nat) | clock | leavingClock (until_ : Nat) | retain | leavingRetain (until_ : Nat)
  deriving DecidableEq, Repr

/-- A group-table entry (10 R200). -/
structure Group where
  ctx : Nat
  members : BitVec 256
  arrived : BitVec 256 := 0
  departed : BitVec 256 := 0
  gen : BitVec 32 := 0
  status : Bool := false
  deriving DecidableEq, Repr

/-- A live launch (10 R194-R199). -/
structure Launch where
  ctx : Nat
  cores : BitVec 256
  home : Nat
  image : List Byte
  /-- The die, semaphores and token queues of the window that the launch uses (10 R206). -/
  wdie : Nat
  fbase : Nat
  wflag : Nat
  tqbase : Nat
  wtq : Nat
  groups : List Nat
  srkey : Word
  reserve : Nat
  quota : Nat
  tvec : Word
  bindings : List (Nat × Nat)
  declared : List Nat
  /-- The entry of the handle that named the kernel image (14 R298). -/
  imageAt : HInfo
  /-- What the launch has left on cores that another launch has taken since, by core (10 R197). -/
  kept : Table Core
  tag : Word
  irq : Bool
  queue : Nat
  recfaults : Nat
  /-- The launch has completed; and its completion has been noted (10 R199). -/
  completed : Bool := false
  done : Bool := false
  deriving DecidableEq, Repr

/-- The state of an expert-cache slot (15 R306). -/
inductive SlotState where
  | free | inflight | full | poison
  deriving DecidableEq, Repr

/-- An expert-cache slot (15 R306, 22 R389). -/
structure Slot where
  state : SlotState := .free
  page : Nat := 0
  lastUse : Nat := 0
  mark : Bool := false
  due : Option Nat := none
  from_ : Nat := 0
  len : Nat := 0
  /-- The handles rebound from the slot's page, or bound to it, that are still pinned (15 R317). -/
  left : List Nat := []
  deriving DecidableEq, Repr

/-- An installed object: its first page and its table entry (15 R301). -/
structure Obj where
  page : Nat
  len : Nat
  fmt : BitVec 8
  aux : BitVec 3
  ssrc : BitVec 2
  tag : Tag
  deriving DecidableEq, Repr

/-- An installed model image (15 R300-R303). -/
structure Model where
  id : Word
  digest : List Byte
  objs : List Obj
  lastUse : Nat
  deriving DecidableEq, Repr

/-- A completion entry in order of arrival (24 R413). -/
structure Compl where
  tag : Word
  kind : BitVec 8
  status : BitVec 8
  core : BitVec 8
  launch : BitVec 8
  data0 : Word
  data1 : Word
  queue : Option Nat
  /-- Its writing signals the context's MSI-X vector (24 R412). -/
  irq : Bool
  deriving DecidableEq, Repr

/-- A host or network window (24 R415). -/
structure Window where
  w : Bool
  base : Word
  len : Nat
  rx : Nat
  peer : Word
  deriving DecidableEq, Repr

/-- A retirement waiting for its report (22 R399). -/
structure Retired where
  cyc : Word
  va : BitVec 40
  res : BitVec 2
  stack : Nat
  core : Nat
  unit : Nat
  pc : BitVec 13
  /-- The cycle of its report, within 2,048 cycles of the cut (23 R400). -/
  at_ : Nat
  deriving DecidableEq, Repr

/-- A retirement that is called for and whose cut is still to come (22 R397, 23 R400): of a page of a context, or of a frame that the Winder
holds for it. -/
structure Cut where
  ctx : Nat
  page : Option Nat
  frame : Nat
  res : BitVec 2
  stack : Fin 12
  finder : Nat
  /-- The finding command, while it still runs. -/
  cmd : Option (Nat × Nat)
  /-- The cycles from the completion of the finding command to the cut, and the cut's cycle once that has come. -/
  wait : Nat
  at_ : Option Nat
  deriving DecidableEq, Repr

/-- A context (24 R414) with everything it owns. -/
structure Ctx where
  desc : List Byte
  handles : Table (BitVec 256)
  /-- The frame that holds the handle table (11 R219). -/
  table : Nat
  /-- The frames of the violation log and of the save area (11 R231, 21 R375). -/
  firm : List Nat
  l1 : Table (BitVec 64)
  l2 : Table (BitVec 64)
  slots : List Slot
  models : List Model
  flash : Memory
  flashBad : List Nat
  vlogCount : Word
  /-- The cycle of the latest entry of the violation log, and the entries written in it (11 R231). -/
  vlogNew : Nat × Nat
  vlog : Table (BitVec 256)
  hostWin : Table Window
  netWin : Table Window
  version : Word
  written : Nat
  /-- Completion-ring entries written (24 R413), the host's count last read, and the frame of that read. -/
  posted : Nat
  ccons : Nat
  ccFrame : Nat
  phase : Bool
  hold : List Compl
  lost : Nat
  /-- The destruction that has been asked for (24 R414): the completion still to be reported, with its queue, or none once it is. -/
  destroying : Option (Option (Compl × Nat))
  retired : List Retired
  deriving DecidableEq, Repr

/-- A host queue (24 R409). -/
structure HostQ where
  ring : List Byte := []
  pidx : BitVec 32 := 0
  cidx : BitVec 32 := 0
  pending : Bool := false
  busy : Nat := 0
  deriving DecidableEq, Repr

/-- A message inside the package, delivered by its event at cycle `at_`. -/
inductive MsgBody where
  | semInc (die sem n : Nat)
  | signal (core remote die sem n : Nat)
  | semReq (die : Nat) (w : SemWaiter)
  | tqPush (core landing pred die tq : Nat) (slot limit remote : Nat) (v : Word)
  | tqPop (core landing pred d die tq : Nat) (slot limit remote : Nat)
  | landed (core landing : Nat) (writes : List Write)
  | arrive (core group : Nat)
  | resume (core group : Nat) (gen : BitVec 32) (status : Bool)
  | ratom (core landing ctx handle : Nat) (entry : BitVec 256) (off : Word) (op : BitVec 3) (w64 u : Bool) (v new : Word)
      (d : Nat) (remote : Nat) (pc : BitVec 13) (slot limit : Nat)
  | probe (core landing ctx target : Nat) (key : Word) (d : Nat) (qid limit : Nat)
  | futFill (core ctx handle : Nat) (v : BitVec 32) (id : Nat)
  | futAnswer (core : Nat) (r : Option (BitVec 4)) (id : Nat)
  | fetchReq (die : Nat) (r : FetchReq)
  | hrebind (core cmd : Nat)
  /-- A change of a handle's pin count by a core, on its way to the entry's home (11 R224, R225). -/
  | pin (core ctx handle : Nat) (up : Bool)
  | flush (core cmd : Nat)
  | netAck (core cmd : Nat)
  | hostDone (queue : Nat) (ctx : Nat) (c : Compl)
  | wake (src offset : Nat) (bytes : List Byte)
  deriving DecidableEq, Repr

/-- A message with its number and the cycle of its delivery. -/
structure Msg where
  id : Nat
  at_ : Nat
  body : MsgBody
  deriving DecidableEq, Repr

/-- A failing resource of a stack: spare counts, events of the window and the steps in progress (22 R390-R396). -/
structure Hbm where
  rows : Nat := 0
  banks : Nat := 0
  lanes : Nat := 0
  steps : Table (Nat × Nat × Nat) := []
  rowCorr : Table Nat := []
  bankRows : Table Nat := []
  laneRetry : Table Nat := []
  /-- Repairs called for: kind, pseudo-channel and unit; of a bank, the row that its next step moves. -/
  wants : List (Nat × Nat × Nat) := []
  /-- What found the failure of a repair called for: its number as RETIREMENT_CUT gives it, and the command, while it runs. -/
  finders : List ((Nat × Nat × Nat) × Nat × Nat) := []
  pch : BitVec 32 := 0xFFFFFFFF
  deriving DecidableEq, Repr

/-- The health registers of an HBF stack (15 R304). -/
structure Hbf where
  bad : BitVec 32 := 0
  spare : BitVec 32 := 0
  maxPe : BitVec 32 := 0
  meanPe : BitVec 32 := 0
  refresh : Word := 0
  curr : BitVec 32 := 0
  prev : BitVec 32 := 0
  unc : Word := 0
  nowrite : Bool := false
  chan : BitVec 16 := 0xFFFF
  /-- Uncorrectable pages of the window, by channel (22 R390). -/
  chanUnc : Table Nat := []
  deriving DecidableEq, Repr

/-- An error of the hardware, which comes by chance from outside (22 R379, R390, R391). -/
inductive HwError where
  /-- An error in an SRAM of a core: memory 0 its scratchpad, by sector; 1 the instruction scratchpad, by bundle; 2 the accumulator, by
  row; 3 an engine buffer, by started command and sector of its source; any other a landing buffer, by result. -/
  | sram (core : Fin 256) (mem : Nat) (place : Nat) (double : Bool)
  /-- An error in an SRAM of a face. -/
  | face (k : Fin 64) (double : Bool)
  /-- An error found in a sector of physical HBM as it is read, with the command that read it, as RETIREMENT_CUT numbers it, or 0. -/
  | hbm (sector : Nat) (double : Bool) (finder : Nat)
  /-- A link CRC retry on a TSV lane of a pseudo-channel, met by an access to a byte of physical HBM. -/
  | link (stack : Fin 12) (pch : Fin 32) (lane : Nat) (place finder : Nat)
  /-- Bits corrected as an HBF stack is read (15 R304). -/
  | flash (stack : Fin 8) (bits : Nat)
  /-- The frame of a context's handle table is retired (22 R398). -/
  | table (ctx : Nat)
  /-- A pseudo-channel, a network lane or a decode lane is fenced off (00 R3, 24 R405). -/
  | pch (stack : Fin 12) (n : Fin 32)
  | netLane (n : Fin 8)
  | decLane (n : Fin 32)
  deriving DecidableEq, Repr

/-- A change of a handle entry that the host or the firmware asks of the Winder (11 R223): the whole entry, or none for STATE = RETIRED. -/
structure Order where
  ctx : Nat
  handle : Nat
  entry : Option (BitVec 256)
  deriving DecidableEq, Repr

/-- A completion entry of a record, as the dispatch hardware delivers it to the Winder (10 R199). -/
structure Ended where
  core : Nat
  launch : Nat
  tgrp : BitVec 8
  code : Nat
  value : Word
  deriving DecidableEq, Repr

/-- A chunk of a decode job that has not finished: its number and scan, its failure code or 0, its first MCU and how many, and, in a
progressive image, the MCUs of the frame that it covers (15 R320, R325). -/
structure DecChunk where
  index : Nat
  scan : Nat
  code : Nat
  first : Nat
  count : Nat
  covers : List Nat
  deriving DecidableEq, Repr

/-- A decode job in a unit's FIFO (15 R319, R320). Once begun: the chunks that have not finished, the bytes to write, the status
word, and the cycle of the next finish or of the completion. -/
structure DecJob where
  core : Nat
  cmd : Nat
  begun : Bool := false
  img : Nat := 0
  left : List DecChunk := []
  out : List Byte := []
  status : Word := 0
  at_ : Nat := 0
  deriving DecidableEq, Repr

/-- A packet burst sent to a peer and not yet acknowledged (13 R279). -/
structure NetOut where
  core : Nat
  cmd : Nat
  ctx : Nat
  window : Nat
  offset : Nat
  bytes : List Byte
  /-- The places of the bytes that lie in poisoned sectors (22 R379). -/
  bad : List Nat := []
  deriving DecidableEq, Repr

/-- The events at the end of the opcode table that the package raises by itself, under the names that Instr gives them. Lean
compiles no more than 245 constructors with fields of one type, so an action holds them as a type of their own. (DESIGN CHOICE, log 3) -/
inductive Late where
  | listRecordReread (c : Fin 256) (n : Nat)
  | decodeJobAccept (c : Fin 256)
  | decodeChunkFinish (u : Fin 2)
  | decodeJobComplete (u : Fin 2)
  | hostFlushReadComplete (m : Nat)
  | netAckReceive (m : Nat)
  | start (c : Fin 256)
  | resume (c : Fin 256)
  | preempt (c : Fin 256)
  | preemptHonour (c : Fin 256)
  | clusterClockGate (k : Fin 64)
  | clusterClockWake (k : Fin 64)
  | retainWakeHandshake (k : Fin 64)
  | thermalStepChange (d : Fin 4) (v : BitVec 2)
  | repairStepEnd (stack : Fin 12) (pch : Fin 32)
  | retirementReport (x : Fin 64)
  | targetedTestStart (u : Fin 320)
  | targetedTestEnd (u : Fin 320) (pass : BitVec 1)
  | retirementCut (x : Fin 64) (va : BitVec 40) (res : BitVec 2) (stack : Fin 12) (finder : Nat)
  | clusterFence (k : Fin 64)
  | launch (q : Fin 1024)
  | post (q : Fin 1024)
  | install (q : Fin 1024)
  | uninstall (q : Fin 1024)
  | release (q : Fin 1024)
  | attest (q : Fin 1024)
  | contextCreate (q : Fin 1024)
  | contextDestroy (q : Fin 1024)
  | window (q : Fin 1024)
  | kill (q : Fin 1024)
  | map (q : Fin 1024)
  | unmap (q : Fin 1024)
  | xferToDevice (q : Fin 1024)
  | xferToHost (q : Fin 1024)
  | badkindEntry (q : Fin 1024)
  | registerWrite (src : Nat) (bar : Nat) (offset : Nat) (bytes : List Byte)
  | signTableReadArrival (c : Fin 256)
  deriving DecidableEq, Repr

/-- An action of the current cycle: an event, a core's cycle, a later part of the cycle whose actions are not listed yet, or the
end of the cycle. (DESIGN CHOICE, log 3) -/
inductive Act where
  | event (i : Instr)
  | late (e : Late)
  | core (c : Fin 256)
  | part (n : Nat)
  | tick
  deriving DecidableEq, Repr

/-- What `exec` does with a slot instruction (02 R43, R44): the whole issue of a bundle that holds it alone, or one of the
three passes that `step` makes over the slots of a fuller bundle. -/
inductive Phase where
  | solo | check | probe | apply
  deriving DecidableEq, Repr

/-- What became of a bundle in a cycle. -/
inductive Verdict where
  | idle | issued | waited | froze | trapped
  deriving DecidableEq, Repr

/-- The bundle in hand: what its slots have asked for so far (02 R43, R44). (DESIGN CHOICE, log 3) -/
structure Latch where
  phase : Phase := .solo
  slot : Nat := 0
  trap : Option (Trap × Nat) := none
  wait : Bool := false
  honour : Bool := false
  uses : List Nat := []
  /-- The slots that use the handles, by handle, the first one first. -/
  useSlots : Table Nat := []
  reqs : List SlotWait := []
  squash : List Nat := []
  modes : List RunMode := []
  control : Control := .none
  hasDelay : Bool := false
  qclr : List Nat := []
  endsRegion : Bool := false
  iter : Nat := 0
  poisoned : Option (Nat × TrapReq) := none
  locked : Bool := false
  lands : Nat := 0
  cmds : List Nat := []
  /-- The slots whose granted decrement the bundle uses (12 R254). -/
  spent : List Nat := []
  verdict : Verdict := .idle
  deriving DecidableEq, Repr

/-- The package. (DESIGN CHOICE, log 3) -/
structure State where
  clock : Nat
  agenda : List Act
  inbox : List Instr
  /-- Errors of the hardware in this cycle, from outside. -/
  errors : List HwError
  /-- Changes of handle entries in this cycle that the Winder is asked for, from outside. -/
  orders : List Order
  /-- Completion entries of records that the Winder has not taken yet. -/
  ended : List Ended
  cur : Fin 256
  latch : Latch
  free : Nat
  cores : Vector Core 256
  faces : Vector Face 64
  dies : Vector Die 4
  power : Vector Power 64
  stay : BitVec 64
  groups : Table Group
  launches : Table Launch
  ctxs : Table Ctx
  msgs : List Msg
  nextMsg : Nat
  hbm : Memory
  hbmPoison : List Nat
  /-- Retired frames, which never return to a map (11 R237). -/
  dead : List Nat
  hbmStacks : Vector Hbm 12
  hbfStacks : Vector Hbf 8
  host : Memory
  /-- The poisoned sectors of host memory (22 R379). -/
  hostPoison : List Nat
  queues : Table HostQ
  units : Vector (List DecJob) 2
  netOut : List NetOut
  /-- What the port answers in this cycle to inbound packets, by context: true for an acknowledgement, false for an error (24 R417). -/
  netAnswers : List (Nat × Bool)
  /-- The poisoned bytes of the network's packets of this cycle: context, window and offset (22 R379). -/
  netPoison : List (Nat × Nat × Nat)
  /-- The retirements to come (22 R397). -/
  cuts : List Cut
  /-- The MSI-X signals sent, by function and vector (24 R412). -/
  signals : Table Nat
  netLanes : BitVec 8
  decLanes : BitVec 32
  clusters : BitVec 64
  fwOk : Bool
  winShift : Nat
  newShift : Option Nat
  wakeErr : Word
  thermChg : BitVec 32
  deriving DecidableEq, Repr

/-- Why the machine stops. The package answers every error with a trap, a violation or a refusal of its own, so it never does. -/
inductive Fault where
  /-- No step raises it: every state has an action to take. Safe: nothing follows it. -/
  | noAction
  deriving DecidableEq, Repr

/-- Why an instruction has no meaning. -/
inductive Refusal where
  /-- An arm of `exec` without its meaning; none is left. Safe: nothing follows it. -/
  | notModelled (mnemonic : String)
  deriving DecidableEq, Repr

/-- A core after power-on reset (01 R30). (DESIGN CHOICE, log 2) -/
def Core.reset : Core where
  regs := { s := Vector.replicate 24 0, p := 0, q := Vector.replicate 8 [], nextQ := 0 }
  vec := { v := Vector.replicate 16 {}, k := Vector.replicate 8 0, vshape := 0xC04010, tm := Vector.replicate 16 0,
           sg := Vector.replicate 8 0 }
  sys := { mode := true, pmode := false, viol := false, cause := 0, epc := 0, tval := 0, tvec := 0, role := 0, syncwin := 0,
           fpstat := 0, accstat := 0, srkey := 0, hostord := 0, bankfmt := Vector.replicate 16 0xC0000000 }
  seq := { pc := 0, loops := [], rplOff := false, passCycles := 0, passOpen := false, iterCycles := 0, transfer := none, delayLeft := 0,
           delta := Vector.replicate 64 0x700000000, taskEntered := false, entryRegion := false, mode := .halted,
           resume := .running, next := [], ending := none, rn := 0, pend := [], landings := [], nextLanding := 0, unitBusy := Vector.replicate 8 0,
           snap := {}, rollback := none, events := [], wait := [], fillSlots := [], preempt := false, waitHonour := false }
  sto := { spad := [], poison := [], imem := [], ipoison := [], acc := Vector.replicate 64 {}, tags := Vector.replicate 64 {},
           hcache := [], seg := {}, old := [], seen := [], storeSeq := 0, fenceX := 0, engSeen := 0 }
  eng := { queues := Vector.replicate 3 [], fault := Vector.replicate 3 none, tokens := Vector.replicate 4 0, nextCmd := 0,
           held := [], remote := [], nextRemote := 0, fenceAt := 0, sysOut := [], fenceSys := 0, lastStart := Vector.replicate 3 0,
           subs := [], leaseLeft := 0 }
  run := none
  lastLaunch := none
  suspicion := 0
  testDue := false
  testing := none

/-- A face after reset (08 R163, R164). (DESIGN CHOICE, log 2) -/
def Face.reset : Face where
  planes := Vector.replicate 2 {}
  lease := none
  lastGrant := none
  waiting := []
  endedAt := none
  suspicion := 0
  testDue := false
  testing := none
  quarantined := false

/-- A die after reset. (DESIGN CHOICE, log 2) -/
def Die.reset : Die where
  sems := []
  semWait := []
  tqs := []
  tasks := []
  nextTask := 0
  taskSeen := 0
  binds := []
  lastBound := []
  boundInWindow := []
  fetch := []
  prosp := []
  step := 0
  steps := []
  hot := false
  newStep := none
  asked := []

/-- The package right after power-on reset (01 R30): every core halted, nothing mapped, no context, nothing listed in any
memory. (DESIGN CHOICE, log 2) -/
def State.reset : State where
  clock := 0
  agenda := []
  inbox := []
  errors := []
  orders := []
  ended := []
  cur := 0
  latch := {}
  free := 0
  cores := Vector.replicate 256 Core.reset
  faces := Vector.replicate 64 Face.reset
  dies := Vector.replicate 4 Die.reset
  power := Vector.replicate 64 (.run none)
  stay := BitVec.allOnes 64
  groups := []
  launches := []
  ctxs := []
  msgs := []
  nextMsg := 0
  hbm := []
  hbmPoison := []
  dead := []
  hbmStacks := Vector.replicate 12 {}
  hbfStacks := Vector.replicate 8 {}
  host := []
  hostPoison := []
  queues := []
  units := Vector.replicate 2 []
  netOut := []
  netAnswers := []
  netPoison := []
  cuts := []
  signals := []
  netLanes := 0xFF
  decLanes := 0xFFFFFFFF
  clusters := BitVec.allOnes 64
  fwOk := true
  winShift := 30
  newShift := none
  wakeErr := 0
  thermChg := 0

end Sys2Proof.Machine
end

