-- ==== Sys2Proof/Machine/Ops.lean ====
section
/-! DEFINITION. The named operations over memories, tables and registers; violations; taking a trap and returning from one. -/

namespace Sys2Proof.Machine

/-! ### Bytes and memories -/

/-- The number that bytes stand for, lowest first (00 R4). -/
def leNat : List Byte → Nat
  | [] => 0
  | b :: r => b.toNat + 256 * leNat r

/-- The n lowest bytes of a number, lowest first. -/
def natLe : Nat → Nat → List Byte
  | 0, _ => []
  | n + 1, v => BitVec.ofNat 8 v :: natLe n (v / 256)

/-- The byte at an address; an unlisted one reads as zero (01 R30, 24 R416). (DESIGN CHOICE, log 37) -/
def Memory.read : Memory → Nat → Byte
  | [], _ => 0
  | (a, b) :: r, x => if a = x then b else if x < a then 0 else Memory.read r x

/-- Writing one byte, in canonical form: addresses rising, no zero listed. (DESIGN CHOICE, log 37) -/
def Memory.write : Memory → Nat → Byte → Memory
  | [], x, v => if v = 0 then [] else [(x, v)]
  | (a, b) :: r, x, v =>
    if a = x then (if v = 0 then r else (a, v) :: r)
    else if x < a then (if v = 0 then (a, b) :: r else (x, v) :: (a, b) :: r)
    else (a, b) :: Memory.write r x v

/-- The canonical form: addresses strictly rise from above `lo`, and no byte listed is zero. -/
def Memory.okFrom : Option Nat → Memory → Bool
  | _, [] => true
  | lo, (a, b) :: r => (match lo with | none => true | some l => decide (l < a)) && decide (b ≠ 0) && Memory.okFrom (some a) r

/-- A memory in canonical form. (DESIGN CHOICE, log 37) -/
def Memory.wf (m : Memory) : Bool := Memory.okFrom none m

/-- n bytes from an address. -/
def Memory.readN (m : Memory) (a : Nat) : Nat → List Byte
  | 0 => []
  | n + 1 => m.read a :: Memory.readN m (a + 1) n

/-- Bytes written from an address upwards. -/
def Memory.writeN (m : Memory) (a : Nat) : List Byte → Memory
  | [] => m
  | b :: r => Memory.writeN (m.write a b) (a + 1) r

/-- A little-endian number of n bytes. -/
def Memory.readLe (m : Memory) (a n : Nat) : Nat := leNat (m.readN a n)

/-- Bytes written at the listed addresses, in order. -/
def Memory.writeCells (m : Memory) : List Host.Cell → Memory
  | [] => m
  | (a, b) :: r => Memory.writeCells (m.write a b) r

/-- A rising list without repeats with a number put in. -/
def setInsert : List Nat → Nat → List Nat
  | [], x => [x]
  | a :: r, x => if a = x then a :: r else if x < a then x :: a :: r else a :: setInsert r x

/-- The sectors of a list of written cells that are covered whole (22 R379). -/
def wholeSectors (cells : List Host.Cell) : List Nat :=
  ((cells.map fun c => c.1 / 32).eraseDups).filter fun k => (List.range 32).all fun i => cells.any fun c => c.1 = 32 * k + i

/-- The bytes of an element list, numbered. -/
def Table.get {α : Type} (t : Table α) (k : Nat) : Option α := (t.find? fun p => p.1 = k).map Prod.snd

/-- A table with an entry set, keys rising. -/
def Table.set {α : Type} : Table α → Nat → α → Table α
  | [], k, v => [(k, v)]
  | (a, x) :: r, k, v => if a = k then (k, v) :: r else if k < a then (k, v) :: (a, x) :: r else (a, x) :: Table.set r k v

/-- A table without an entry. -/
def Table.erase {α : Type} (t : Table α) (k : Nat) : Table α := t.filter fun p => p.1 ≠ k

/-- A list with its n-th element changed. -/
def modifyAt {α : Type} (l : List α) (n : Nat) (f : α → α) : List α := l.zipIdx.map fun (x, i) => if i = n then f x else x

/-- Insertion into a list ordered by `le`. -/
def insertBy {α : Type} (le : α → α → Bool) (x : α) : List α → List α
  | [] => [x]
  | y :: r => if le x y then x :: y :: r else y :: insertBy le x r

/-- A list in order of a number. -/
def sortOn {α : Type} (key : α → Nat) (l : List α) : List α := l.foldr (insertBy fun a b => decide (key a ≤ key b)) []

/-! ### Cores and other parts of the package -/

/-- The core with a number. -/
def State.core (s : State) (c : Fin 256) : Core := s.cores[c]

/-- The core being stepped. -/
def State.me (s : State) : Core := s.cores[s.cur]

/-- The package with one core changed. -/
def State.setCore (s : State) (c : Fin 256) (x : Core) : State := { s with cores := s.cores.set c x }

/-- The package with the stepped core changed. -/
def State.setMe (s : State) (x : Core) : State := { s with cores := s.cores.set s.cur x }

/-- A core number of the package; the ids that records carry are below 256 (00 R5). -/
def coreId (n : Nat) : Fin 256 := Fin.ofNat 256 n

/-- A change of one core. -/
def State.onCore (s : State) (c : Fin 256) (f : Core → Core) : State := s.setCore c (f (s.core c))

/-- The die of a core (00 R5). -/
def dieOf (c : Nat) : Fin 4 := Fin.ofNat 4 (c / 64)

/-- The cluster of a core, 0 to 63. -/
def clusterOf (c : Nat) : Fin 64 := Fin.ofNat 64 (c / 4)

/-- Ceiling division. -/
def cdiv (a b : Nat) : Nat := (a + b - 1) / b

/-- A duration in cycles of a die's clock at a STEP, counted in CYCLE (24 R420). -/
def stretch (step : BitVec 2) (n : Nat) : Nat := cdiv (n * 5) (5 - step.toNat)

/-- A suspicion score goes up, saturating (22 R391). -/
def suspect (n : BitVec 8) (by_ : Nat) : BitVec 8 := BitVec.ofNat 8 (min 255 (n.toNat + by_))

/-- A score at or above 64 schedules a targeted test of the unit, unless one runs (22 R391). -/
def schedules (n : BitVec 8) (testing : Option Nat) : Bool := decide (64 ≤ n.toNat) && testing.isNone

/-- A core's score goes up. -/
def Core.suspected (k : Core) (by_ : Nat) : Core :=
  let n := suspect k.suspicion by_
  { k with suspicion := n, testDue := k.testDue || schedules n k.testing }

/-- A face's score goes up. -/
def Face.suspected (f : Face) (by_ : Nat) : Face :=
  let n := suspect f.suspicion by_
  { f with suspicion := n, testDue := f.testDue || schedules n f.testing }

/-- The cycle, counted in CYCLE, at which n cycles of a core's die from now have passed (24 R420). -/
def State.later (s : State) (c n : Nat) : Nat := s.clock + stretch (s.dies[dieOf c]).step n

/-- Five times the cycles of a die's clock from cycle t on, under the changes of its STEP since (24 R420). -/
def fifths (t now : Nat) (step : BitVec 2) : List (Nat × BitVec 2) → Nat
  | [] => (now - t) * (5 - step.toNat)
  | (c, old) :: r => if c ≤ t then (now - t) * (5 - step.toNat) else (now - c) * (5 - step.toNat) + fifths t c old r

/-- n cycles of a core's die have passed since a cycle (24 R420). -/
def State.since (s : State) (c t n : Nat) : Bool :=
  decide (5 * n ≤ fifths t s.clock (s.dies[dieOf c]).step (s.dies[dieOf c]).steps)

/-- A change of one die. -/
def State.onDie (s : State) (d : Fin 4) (f : Die → Die) : State := { s with dies := s.dies.set d (f s.dies[d]) }

/-- A change of one face. -/
def State.onFace (s : State) (k : Fin 64) (f : Face → Face) : State := { s with faces := s.faces.set k (f s.faces[k]) }

/-- A change of one context, if it exists. -/
def State.onCtx (s : State) (x : Nat) (f : Ctx → Ctx) : State :=
  match Table.get s.ctxs x with
  | some c => { s with ctxs := Table.set s.ctxs x (f c) }
  | none => s

/-- A change of one launch, if it is live. -/
def State.onLaunch (s : State) (l : Nat) (f : Launch → Launch) : State :=
  match Table.get s.launches l with
  | some c => { s with launches := Table.set s.launches l (f c) }
  | none => s

/-- A choice the spec leaves open, from 0 to n, and the state with the choice taken. (DESIGN CHOICE, log 1; DEDUCED, log 5) -/
def State.choose (s : State) (n : Nat) : Nat × State := (Config.freeNat s.free % (n + 1), { s with free := s.free + 1 })

/-- How much later than unloaded something ends: any number of cycles, for the load on what it shares with others is open. (DEDUCED, log 5) -/
def State.load (s : State) : Nat × State := (Config.freeNat s.free, { s with free := s.free + 1 })

/-- A message sent, to be delivered at a cycle. -/
def State.send (s : State) (at_ : Nat) (b : MsgBody) : State :=
  { s with msgs := s.msgs ++ [⟨s.nextMsg, at_, b⟩], nextMsg := s.nextMsg + 1 }

/-- A message by its number. -/
def State.msg (s : State) (m : Nat) : Option MsgBody := (s.msgs.find? fun x => x.id = m).map Msg.body

/-- A message taken out. -/
def State.dropMsg (s : State) (m : Nat) : State := { s with msgs := s.msgs.filter fun x => x.id ≠ m }

/-- CYCLE (01 R23). -/
def State.cycle (s : State) : Word := BitVec.ofNat 64 s.clock

/-- CYCLE − wake is not negative (03 R80). -/
def State.past (s : State) (wake : Word) : Bool := !(s.cycle - wake).msb

/-! ### Status and sequencing facts -/

/-- STATUS.RPL: a replay level is live (03 R70). -/
def Core.rpl (c : Core) : Bool := !c.seq.rplOff && c.seq.loops.any fun l => decide (l.stages ≠ 0)

/-- The core holds the effects of its instructions until their pass retires: in replay, but never in a handler (04 R95, R97). -/
def Core.holds (c : Core) : Bool := c.rpl && !c.sys.epc.getLsbD 23

/-- STATUS.LDEPTH (01 R24). -/
def Core.ldepth (c : Core) : Nat := c.seq.loops.length

/-- A core that issues nothing until a record starts (01 R24). -/
def Core.isHalted (c : Core) : Bool := c.seq.mode = .halted

/-- STATUS as SYSR reads it (01 R24). -/
def Core.status (c : Core) : Word :=
  (if c.sys.mode then 1 else 0) ||| (if c.sys.pmode then 2 else 0) ||| (if c.rpl then 4 else 0) |||
    (BitVec.ofNat 64 c.ldepth <<< 3) ||| (if c.isHalted then 64 else 0) ||| (if c.sys.viol then 128 else 0)

/-- EPC.LIVE (21 R366). -/
def Core.live (c : Core) : Bool := c.sys.epc.getLsbD 23

/-- The declared facts of the running record's image (02 R55): a little-endian header field. -/
def hdr (image : List Byte) (off n : Nat) : Nat := leNat ((image.drop off).take n)

/-- The context a core runs in, if a record runs. -/
def Core.ctx (c : Core) : Option Nat := c.run.map RunRec.ctx

/-- The guard's truth (01 R20). -/
def Core.guard (c : Core) (g : Guard) : Bool :=
  let p := if g.pred = 0 then true else c.regs.p.getLsbD g.pred.toNat
  p != decide (g.neg = 1)

/-- Predicate n as read (01 R19). -/
def Core.pred (c : Core) (n : Nat) : Bool := if n = 0 then true else c.regs.p.getLsbD n

/-! ### Visible writes -/

/-- A vector with one element replaced, unchanged for a number out of range. -/
def vset {α : Type} {n : Nat} (v : Vector α n) (i : Nat) (x : α) : Vector α n := v.setIfInBounds i x

/-- A predicate byte with bit n set to b; p0 discards, and in replay so do p4 to p7 (01 R19, 04 R93). -/
def setPred (p : BitVec 8) (n : Nat) (b : Bool) : BitVec 8 :=
  if n = 0 then p
  else if b then p ||| (1#8 <<< n) else p &&& ~~~(1#8 <<< n)

/-- A stored system register's new value (03 R74): the bits of `clear` go, the bits of `v` come. Fields that hardware
also writes keep what it wrote in the same cycle (05 R112). -/
def putBits (old v clear : Word) : Word := (old &&& ~~~clear) ||| v

/-- The write of a system register landing. -/
def SysFile.put (y : SysFile) (r : SysReg) (v clear : Word) : SysFile :=
  match r with
  | .status => { y with mode := v.getLsbD 0, pmode := v.getLsbD 1, viol := y.viol && !clear.getLsbD 7 }
  | .cause => { y with cause := putBits y.cause v clear }
  | .epc => { y with epc := putBits y.epc v clear }
  | .tval => { y with tval := putBits y.tval v clear }
  | .tvec => { y with tvec := putBits y.tvec v clear }
  | .role => { y with role := putBits y.role v clear }
  | .syncwin => { y with syncwin := putBits y.syncwin v clear }
  | .fpstat => { y with fpstat := putBits y.fpstat v clear }
  | .accstat => { y with accstat := putBits y.accstat v clear }
  | .srkey => { y with srkey := putBits y.srkey v clear }
  | .hostord => { y with hostord := putBits y.hostord v clear }
  | .bankfmt b => { y with bankfmt := y.bankfmt.set b (putBits y.bankfmt[b] v clear) }
  | .cycle => y
  | .coreid => y
  | .sparebudget => y

/-- TVAL of the first-NaN trap (05 R114). -/
def NpInfo.tval (n : NpInfo) : Word :=
  (n.kstep.setWidth 64 <<< 38) ||| (n.col.setWidth 64 <<< 24) ||| (n.row.setWidth 64 <<< 17) ||| (n.pc.setWidth 64 <<< 4) |||
    n.unit.setWidth 64

/-- A first-NaN trap stands before its taking (05 R114). -/
def Core.nanPending (c : Core) : Bool :=
  let nan (r : TrapReq) : Bool := r.trap.cause = .firstNan
  (c.seq.events.any nan) || (c.seq.mode :: c.seq.resume :: c.seq.next).any fun m => match m with
    | .trapping r => nan r
    | _ => false

/-- The place of a NaN event in its unit: element, then k-step (05 R114). -/
def NpInfo.elem (n : NpInfo) : Nat := (n.row.toNat * 2 ^ 14 + n.col.toNat) * 2 ^ 16 + n.kstep.toNat

/-- A NaN event with NTE = 1 (05 R114): the first one is pending; `at_` is the cycle and the element of a command's event, where one of
the same unit and cycle with a lower element is the first. Later ones trap nothing. -/
def Core.nanEvent (c : Core) (at_ : Option (Nat × Nat)) (n : NpInfo) : Core :=
  if !c.sys.fpstat.getLsbD 15 then c
  else
    let req : TrapReq := { trap := { cause := .firstNan, tval := n.tval }, kind := .b, slot := n.slot,
                           eng := n.queue.isSome, queue := n.queue.getD 0, np := at_ }
    let before (r : TrapReq) : Bool := match r.np, at_ with
      | some (t, i), some (u, j) => decide (t = u ∧ j < i) && r.trap.tval.setWidth 4 = n.unit
      | _, _ => false
    let evs := if c.nanPending then c.seq.events.map fun r => if before r then req else r else c.seq.events ++ [req]
    { c with seq := { c.seq with events := evs } }

/-- Raising FPSTAT flags as they become visible (05 R112), with the first-NaN event of 05 R114; its taking clears NTE. -/
def Core.raiseFlags (c : Core) (f : Flags) (np : Option NpInfo) (at_ : Option (Nat × Nat) := none) : Core :=
  let c := match np, f.getLsbD 6 with
    | some n, true => c.nanEvent at_ n
    | _, _ => c
  { c with sys := { c.sys with fpstat := c.sys.fpstat ||| f.setWidth 64 } }

/-- One write becoming visible (01 R13). -/
def Core.land (c : Core) : Write → Core
  | .scalar r v => { c with regs := { c.regs with s := if r = 0 then c.regs.s else vset c.regs.s r v } }
  | .pred n b => { c with regs := { c.regs with p := if c.rpl && decide (4 ≤ n) then c.regs.p else setPred c.regs.p n b } }
  | .push q id v tag =>
    { c with regs := { c.regs with q := vset c.regs.q q ((c.regs.q.getD q []).map fun e =>
        if e.id = id then { e with val := some v, tag := tag } else e) } }
  | .vec r mask v tag =>
    let o := c.vec.v.getD r {}
    { c with vec := { c.vec with v := vset c.vec.v r { bits := (o.bits &&& ~~~mask) ||| (v &&& mask), tag := tag } } }
  | .kmask r mask v =>
    { c with vec := { c.vec with k := if r = 0 then c.vec.k else vset c.vec.k r ((c.vec.k.getD r 0 &&& ~~~mask) ||| (v &&& mask)) } }
  | .tmap r mask v =>
    { c with vec := { c.vec with tm := vset c.vec.tm r ((c.vec.tm.getD r 0 &&& ~~~mask) ||| (v &&& mask)) } }
  | .sign r v => { c with vec := { c.vec with sg := vset c.vec.sg r v } }
  | .vshape v => { c with vec := { c.vec with vshape := v } }
  | .flags f np => c.raiseFlags f np
  | .sys r v clear => { c with sys := c.sys.put r v clear }
  | .viol v => { c with sys := { c.sys with viol := true, tval := v } }
  | .delta e v => { c with seq := { c.seq with delta := vset c.seq.delta e v } }

/-- The writes of one slot that are due, in issue order. -/
def Core.landSlot (c : Core) (due : List Pend) (slot : Nat) : Core :=
  (due.filter fun p => p.slot = slot).foldl (fun c p => c.land p.w) c

/-- The end of a running cycle: due writes land, a later slot's last (01 R13, R16), arrived landing results at their
landing cycle among them (14 R289), after the slot's plain results. Of the NaN events of one slot that with the lowest element comes first (05 R114). A register write that clears flags gives way to flags raised in the cycle (05 R112). (DEDUCED, log 12) -/
def Core.endCycle (c : Core) : Core :=
  let ready := c.seq.landings.filter fun l => decide (l.due ≤ c.seq.rn) && l.arrived.isSome
  let due := (c.seq.pend.filter fun p => decide (p.due ≤ c.seq.rn)) ++
    ready.flatMap fun l => (l.arrived.getD []).map fun w => ⟨l.due, l.slot, w⟩
  let isFlag (p : Pend) : Bool := match p.w with | .flags .. => true | _ => false
  let element (p : Pend) : Nat := match p.w with
    | .flags _ (some n) => n.elem
    | _ => 0
  let c' := (List.range 8).foldl (fun c k => c.landSlot (due.filter fun p => !isFlag p) k) c
  let c' := (List.range 8).foldl (fun c k => c.landSlot (sortOn element (due.filter isFlag)) k) c'
  { c' with seq := { c'.seq with
      pend := c.seq.pend.filter fun p => decide (c.seq.rn < p.due)
      landings := c.seq.landings.filter fun l => !(ready.any fun x => x.id = l.id)
      rn := c.seq.rn + 1
      passCycles := if c.rpl && (c.seq.passOpen || c.seq.mode = .running) then c.seq.passCycles + 1 else c.seq.passCycles } }

/-- Whether a landing result is late at the end of a running cycle (14 R289). -/
def Core.lateLanding (c : Core) : Bool := c.seq.landings.any fun l => decide (l.due ≤ c.seq.rn) && l.arrived.isNone

/-- The core waits for what its last bundle asked for, in order. -/
def Core.toWait (c : Core) : Core :=
  match c.seq.next with
  | [] => c
  | m :: r => { c with seq := { c.seq with mode := m, next := r } }

/-- A wait is over: the core runs, or waits for the next of its waits. -/
def Core.goOn (c : Core) : Core := ({ c with seq := { c.seq with mode := .running } }).toWait

/-- A freeze, a save or a restore, which ends into the mode that it interrupted. -/
def RunMode.suspends : RunMode → Bool
  | .frozen _ | .filling _ _ _ | .saving _ | .restoring _ => true
  | _ => false

/-- What a core waits for: its mode, or the mode that a suspension ends into, and the waits that follow. -/
def Core.waits (c : Core) : List RunMode := (if c.seq.mode.suspends then c.seq.resume else c.seq.mode) :: c.seq.next

/-- The waits of a core changed one by one. -/
def Core.onWaits (c : Core) (f : RunMode → RunMode) : Core :=
  { c with seq := { c.seq with mode := f c.seq.mode, resume := f c.seq.resume, next := c.seq.next.map f } }

/-- A wait over, wherever it stands among the core's waits. -/
def Core.endWait (c : Core) (p : RunMode → Bool) : Core :=
  if p c.seq.mode then c.goOn
  else if c.seq.mode.suspends && p c.seq.resume then
    match c.seq.next with
    | [] => { c with seq := { c.seq with resume := .running } }
    | m :: r => { c with seq := { c.seq with resume := m, next := r } }
  else { c with seq := { c.seq with next := c.seq.next.filter fun m => !p m } }

/-- Nothing of the core is still to land. -/
def Core.settled (c : Core) : Bool := c.seq.pend.isEmpty && c.seq.landings.isEmpty

/-! ### Handle entries (11 R219) -/

namespace Ent
def field (e : BitVec 256) (lo n : Nat) : Nat := e.toNat / 2 ^ lo % 2 ^ n
def base (e : BitVec 256) : Nat := field e 0 64
def len (e : BitVec 256) : Nat := field e 64 64
def space (e : BitVec 256) : Nat := field e 128 4
def kind (e : BitVec 256) : Nat := field e 132 4
def state (e : BitVec 256) : Nat := field e 136 3
def ronly (e : BitVec 256) : Bool := e.getLsbD 142
def pin (e : BitVec 256) : Nat := field e 144 16
def fmt (e : BitVec 256) : BitVec 8 := BitVec.ofNat 8 (field e 160 8)
def aux (e : BitVec 256) : BitVec 3 := BitVec.ofNat 3 (field e 168 3)
def rblk (e : BitVec 256) : BitVec 3 := BitVec.ofNat 3 (field e 171 3)
def ssrc (e : BitVec 256) : BitVec 2 := BitVec.ofNat 2 (field e 174 2)
def rotid (e : BitVec 256) : BitVec 16 := BitVec.ofNat 16 (field e 176 16)
def shandle (e : BitVec 256) : Nat := field e 192 8
def bank (e : BitVec 256) : Nat := field e 200 4
def rcore (e : BitVec 256) : Nat := field e 200 8
def rbank (e : BitVec 256) : Nat := field e 208 4
def window (e : BitVec 256) : Nat := field e 200 6
def auxw (e : BitVec 256) : Nat := field e 224 32
/-- An entry with the n bits from lo set to v. -/
def put (e : BitVec 256) (lo n v : Nat) : BitVec 256 :=
  BitVec.ofNat 256 (e.toNat - field e lo n * 2 ^ lo + v % 2 ^ n * 2 ^ lo)
/-- The entry that no launch has declared: SSRC 0b11, else zero. -/
def fresh : BitVec 256 := 3#256 <<< 174
end Ent

/-- An entry of a context's handle table as its home holds it. -/
def Ctx.entry (x : Ctx) (h : Nat) : BitVec 256 := (Table.get x.handles h).getD Ent.fresh

/-- The expert-cache slot that holds a page (15 R306), with its number. -/
def Ctx.slotOf (x : Ctx) (page : Nat) : Option (Nat × Slot) :=
  (x.slots.zipIdx.find? fun p => p.1.state ≠ .free ∧ p.1.page = page).map fun p => (p.2, p.1)

/-- A context-descriptor field (24 R414). -/
def Ctx.d (x : Ctx) (off n : Nat) : Nat := leNat ((x.desc.drop off).take n)

/-- An entry as a weight handle reports the slot of its resolved page (15 R307): STATE and BASE, AUXW the page. -/
def Ctx.resolve (x : Ctx) (e : BitVec 256) (page : Nat) : BitVec 256 :=
  let e := Ent.put e 224 32 page
  if Ent.state e = 4 then e
  else match x.slotOf page with
    | some (i, sl) =>
      let st := match sl.state with | .inflight => 1 | .full => 2 | .poison => 3 | .free => 0
      Ent.put (Ent.put e 136 3 st) 0 64 (x.d 0xE0 8 + i * x.d 0x28 8)
    | none => Ent.put (Ent.put e 136 3 0) 0 64 0

/-- The page a core's use of a weight handle resolves to: its launch's binding, or the entry's AUXW (15 R316). -/
def State.pageOf (s : State) (c : Core) (h : Nat) (e : BitVec 256) : Nat :=
  match c.run.bind fun r => Table.get s.launches r.launch with
  | some l => (Table.get l.bindings h).getD (Ent.auxw e)
  | none => Ent.auxw e

/-- The entry that a handle-cache fill delivers to a core (11 R228, 15 R316). -/
def State.tableEntry (s : State) (c : Core) (h : Nat) : BitVec 256 :=
  match c.run.bind fun r => Table.get s.ctxs r.ctx with
  | none => Ent.fresh
  | some x => let e := x.entry h
    if Ent.kind e = 2 then x.resolve e (s.pageOf c h e) else e

/-- The entry a core uses: the cached one, which never disagrees with the table (11 R229). -/
def State.entry (s : State) (c : Core) (h : Nat) : BitVec 256 :=
  match Table.get c.sto.hcache h with
  | some e => e
  | none => s.tableEntry c h

/-- The context whose entries a core's handle cache holds: of the record that it runs, else of the launch that it ran last. -/
def State.cacheCtx (s : State) (c : Core) : Option Nat :=
  match c.run with
  | some r => some r.ctx
  | none => (c.lastLaunch.bind fun l => Table.get s.launches l).map Launch.ctx

/-- The cached copies of one context's handles dropped in every core (11 R229). -/
def State.invalidate (s : State) (ctx : Nat) (p : Nat → Bool) : State :=
  { s with cores := s.cores.map fun c =>
      if s.cacheCtx c = some ctx then { c with sto := { c.sto with hcache := c.sto.hcache.filter fun q => !p q.1 } } else c }

/-! ### Pins (11 R225, 15 R312) -/

/-- A page that some weight handle's entry names. -/
def Ctx.named (x : Ctx) (page : Nat) : Bool := x.handles.any fun e => Ent.kind e.2 = 2 && Ent.auxw e.2 = page

/-- The handles of a context that live launches bind to a page (15 R316, R317). -/
def State.boundBy (s : State) (ctx page : Nat) : List Nat :=
  (s.launches.flatMap fun l =>
    if l.2.ctx = ctx && !l.2.done then (l.2.bindings.filter fun b => b.2 = page).map Prod.fst else []).eraseDups

/-- A slot whose page no handle names any more becomes free once the handles that were rebound from it are unpinned (15 R317). -/
def Ctx.reclaim (x : Ctx) : Ctx :=
  { x with slots := x.slots.map fun sl =>
      let left := sl.left.filter fun h => decide (Ent.pin (x.entry h) ≠ 0)
      if sl.state ≠ .free && !sl.left.isEmpty && left.isEmpty && !x.named sl.page then {} else { sl with left := left } }

/-- An entry with its pin count moved by one. -/
def Ent.repin (e : BitVec 256) (up : Bool) : BitVec 256 := Ent.put e 144 16 (if up then Ent.pin e + 1 else Ent.pin e - 1)

/-- A handle's pin count changed by one, in the table and in its cached copies: a change of PIN alone makes no copy go, as the fills of 23
R401 show. (DEDUCED, log 41) -/
def State.pin (s : State) (ctx h : Nat) (up : Bool) : State :=
  let s := s.onCtx ctx fun x =>
    let x := { x with handles := Table.set x.handles h (Ent.repin (x.entry h) up) }
    if up then x else x.reclaim
  { s with cores := s.cores.map fun c =>
      if s.cacheCtx c = some ctx then
        { c with sto := { c.sto with hcache := c.sto.hcache.map fun q => if q.1 = h then (q.1, Ent.repin q.2 up) else q } }
      else c }

/-- The table's own entry of a core's handle. -/
def State.homeEntry (s : State) (ctx h : Nat) : BitVec 256 :=
  match Table.get s.ctxs ctx with
  | some x => x.entry h
  | none => Ent.fresh

/-- A format with a scale handle read for its elements (05 R102, R103). -/
def Fmt.sideHandle (f : Fmt) : Bool :=
  (isBlockFmt f.code.toNat && f.ssrc = 1) || ((f.code = 0x50 || f.code = 0x51) && f.ssrc = 2)

/-- The weight handles among a data handle and its scale handle, if the format uses one, each once: a command that reads through them holds
them (15 R312). -/
def pinsOf (scaled : Bool) (f : Fmt) (h : HInfo) : List HInfo :=
  (if scaled && f.sh.h ≠ h.h then [h, f.sh] else [h]).filter fun x => Ent.kind x.e = 2

/-- The entries that a command holds pinned until it completes. -/
def Cmd.pins (c : Cmd) : List HInfo :=
  if c.op.toNat = 0x42 then pinsOf (isBlockFmt c.cap.fa.code.toNat && c.cap.fa.ssrc = 1) c.cap.fa c.cap.ha
  else if 0x48 ≤ c.op.toNat ∧ c.op.toNat ≤ 0x4A then pinsOf c.cap.fb.sideHandle c.cap.fb c.cap.hb
  else []

/-- The pins of a command given back (15 R312). -/
def State.unpin (s : State) (cmd : Cmd) : State := cmd.pins.foldl (fun s h => s.pin cmd.ctx h.h false) s

/-! ### Violations (11 R230, R231) -/

/-- The REASON codes of 11 R231. -/
inductive Reason where
  | bounds | space | ronly | invalid | retHandle | notMapped | retPage | notFull | remoteCtx | scale | overlap | oversize
  | freeOver | mfmt | kind | badPage | wake | misalign
  deriving DecidableEq, Repr

def Reason.code : Reason → Nat
  | .bounds => 0 | .space => 1 | .ronly => 2 | .invalid => 3 | .retHandle => 4 | .notMapped => 5 | .retPage => 6
  | .notFull => 7 | .remoteCtx => 8 | .scale => 9 | .overlap => 10 | .oversize => 11 | .freeOver => 12 | .mfmt => 13
  | .kind => 14 | .badPage => 15 | .wake => 16 | .misalign => 17

/-- A violation-log entry (11 R231). -/
def vlogEntry (cyc : Word) (off handle reason core unit pc vaddr : Nat) : BitVec 256 :=
  BitVec.ofNat 256 (cyc.toNat + off % 2 ^ 64 * 2 ^ 64 + handle % 256 * 2 ^ 128 + reason * 2 ^ 136 + core % 256 * 2 ^ 144 +
    unit * 2 ^ 152 + pc % 8192 * 2 ^ 160 + vaddr % 2 ^ 64 * 2 ^ 192)

/-- The place of a log entry among those of its cycle: core id, then UNIT. -/
def vlogKey (e : BitVec 256) : Nat := e.toNat / 2 ^ 144 % 256 * 256 + e.toNat / 2 ^ 152 % 256

/-- An entry put into the violation log among the entries written in its cycle, which stand in ascending core id, then UNIT (11 R231). -/
def Ctx.logEntry (x : Ctx) (clock : Nat) (e : BitVec 256) : Ctx :=
  let n := x.vlogCount.toNat
  let k := if x.vlogNew.1 = clock then x.vlogNew.2 else 0
  let mine := ((List.range (min 64 k)).map fun i => (Table.get x.vlog ((n - 1 - i) % 64)).getD 0).reverse
  let l := (mine.takeWhile fun y => decide (vlogKey y ≤ vlogKey e)) ++ e :: mine.dropWhile fun y => decide (vlogKey y ≤ vlogKey e)
  { x with vlog := l.zipIdx.foldl (fun t y => Table.set t ((n - mine.length + y.2) % 64) y.1) x.vlog, vlogCount := x.vlogCount + 1,
           vlogNew := (clock, k + 1) }

/-- An entry written into a context's violation log (11 R231); `cyc` is the cycle of its detection. -/
def State.logViolation (s : State) (ctx : Nat) (off handle : Nat) (r : Reason) (core unit pc vaddr : Nat) (cyc : Nat := s.clock) : State :=
  s.onCtx ctx fun x => x.logEntry s.clock (vlogEntry (BitVec.ofNat 64 cyc) off handle r.code core unit pc vaddr)

/-- TVAL of a violation or a misaligned access (01 R27). -/
def violTval (handle off : Nat) : Word := BitVec.ofNat 64 (handle % 256 + off * 256)

/-- A violation of a core access, at issue (11 R230): the offset that TVAL reports and the first failing byte. STATUS.VIOL and TVAL are
written with the writes of its slot (01 R16). -/
def State.violate (s : State) (unit handle off byte : Nat) (r : Reason) (phys : Nat := byte) : State :=
  let c := s.me
  let s := s.setMe { c with seq := { c.seq with pend := c.seq.pend ++ [⟨c.seq.rn, s.latch.slot, .viol (violTval handle off)⟩] } }
  let e := s.entry c handle
  let va := if Ent.space e = 2 then Ent.base e + phys else 0
  match c.ctx with
  | some x => s.logViolation x byte handle r s.cur unit c.seq.pc.toNat va
  | none => s

/-! ### Core accesses to the scratchpad (01 R25-R28, 11 R222) -/

/-- The local address of a byte of a bank (01 R25). -/
def bankAddr (b off : Nat) : Nat := b * 0x30000 + off

/-- Why a core access of n bytes at offset o of a handle fails, if it does, and its first failing byte (11 R222). -/
def coreFail (e : BitVec 256) (o n : Nat) (write : Bool) : Option (Reason × Nat) :=
  if Ent.space e = 0 then some (.invalid, o)
  else if Ent.state e = 4 then some (.retHandle, o)
  else if Ent.space e ≠ 1 then some (.space, o)
  else if Ent.kind e = 1 ∧ Ent.state e ≠ 2 then some (.notFull, o)
  else if write && (Ent.ronly e || Ent.kind e = 3) then some (.ronly, o)
  else if Ent.len e < o + n then some (.bounds, max o (Ent.len e))
  else none

/-- The local address of byte o of a LOCAL entry (01 R26). -/
def localAddr (e : BitVec 256) (o : Nat) : Nat := bankAddr (Ent.bank e) (Ent.base e + o)

/-- The byte a core's own access sees: the latest held store to it, else the bank (04 R95); a handler's later store stands in the bank
(03 R67). -/
def Core.byte (c : Core) (a : Nat) : Byte :=
  match (c.eng.held.reverse.findSome? fun h => match h.eff with
    | .store ws => (ws.reverse.find? fun w => w.1 = a).map fun w => some w.2
    | .atom ws _ _ _ _ => (ws.find? fun w => w.1 = a).map fun w => some w.2
    | .own as => if as.contains a then some none else none
    | _ => none) with
  | some (some b) => b
  | _ => c.sto.spad.read a

/-- n bytes as a core's own access sees them. -/
def Core.bytes (c : Core) (a n : Nat) : List Byte := (List.range n).map fun i => c.byte (a + i)

/-- Whether a byte range touches a poisoned sector. -/
def poisonedIn (p : List Nat) (a n : Nat) : Bool := p.any fun k => decide (32 * k < a + n ∧ a < 32 * k + 32)

/-- The first byte of a range that lies in a poisoned sector. -/
def firstPoison (p : List Nat) (a n : Nat) : Option Nat := (List.range n).find? fun i => p.contains ((a + i) / 32)

/-- The poisoned sectors as the core's own accesses see them: one that a held store covers whole is clean (04 R95, 22 R379). -/
def Core.poison (c : Core) : List Nat :=
  c.sto.poison.filter fun k => !(c.eng.held.any fun h => match h.eff with
    | .store ws => (wholeSectors ws).contains k
    | _ => false)

/-- A core's stored bytes reaching its banks: history for racing engine reads (13 R271), sectors covered whole become
clean (22 R379); `pair` for the 8 bytes of a .64 atomic (13 R264). (DEDUCED, log 4) -/
def Store.putCells (t : Store) (ws : List Host.Cell) (pair : Bool := false) : Store :=
  let words := (ws.map fun w => w.1 / 4 * 4).eraseDups
  { t with
    spad := t.spad.writeCells ws
    old := t.old ++ words.map fun a => ⟨t.storeSeq, a, BitVec.ofNat 32 (t.spad.readLe a 4), pair, false⟩
    storeSeq := t.storeSeq + 1
    poison := t.poison.filter fun k => !((wholeSectors ws).contains k) }

/-- Bytes written by an engine: a history for the reads that nothing orders after them (13 R264, R272). (DEDUCED, log 4) -/
def Store.putRacing (t : Store) (ws : List Host.Cell) (poisonSectors : List Nat) : Store :=
  let words := (ws.map fun w => w.1 / 4 * 4).eraseDups
  let p := t.poison.filter fun k => !((wholeSectors ws).contains k)
  { t with spad := t.spad.writeCells ws, poison := poisonSectors.foldl setInsert p
           old := t.old ++ words.map fun a => ⟨t.storeSeq, a, BitVec.ofNat 32 (t.spad.readLe a 4), false, true⟩
           storeSeq := t.storeSeq + 1 }

/-- No engine reads a value of the words of these addresses older than that before the write with a number (13 R266). -/
def Store.see (t : Store) (as : List Nat) (point : Nat → Nat) : Store :=
  { t with seen := ((as.map fun a => a / 4 * 4).eraseDups).foldl (fun m a => Table.set m a (max ((Table.get m a).getD 0) (point a))) t.seen }

/-- Bytes written by a remote step: not part of the core's own stores, and later than all of them, so that no later read of
their words returns an older value (13 R266, R272). -/
def Store.putEngine (t : Store) (ws : List Host.Cell) (poisonSectors : List Nat) : Store :=
  let p := t.poison.filter fun k => !((wholeSectors ws).contains k)
  ({ t with spad := t.spad.writeCells ws, poison := poisonSectors.foldl setInsert p }).see (ws.map Prod.fst) fun _ => t.storeSeq

/-- The steps of 12 R241. -/
inductive AtomOp where
  | add | min | max | swap | cas
  deriving DecidableEq, Repr

/-- The new word, of w bits, from the old one, the operand and the new value of CAS. -/
def AtomOp.step (o : AtomOp) (w : Nat) (u : Bool) (old v new : Nat) : Nat :=
  let lt := if u then decide (old < v) else decide (bitsInt w true old < bitsInt w true v)
  match o with
  | .add => (old + v) % 2 ^ w
  | .min => if lt then old else v
  | .max => if lt then v else old
  | .swap => v
  | .cas => if old = v then new else old

/-- The code that a message carries for a step. -/
def AtomOp.code : AtomOp → BitVec 3
  | .add => 0 | .min => 1 | .max => 2 | .swap => 3 | .cas => 4

/-- The step behind a code. -/
def AtomOp.ofCode (b : BitVec 3) : AtomOp :=
  match b.toNat with
  | 0 => .add | 1 => .min | 2 => .max | 3 => .swap | _ => .cas

/-- The cells of a word at an address. -/
def wordCells (a n v : Nat) : List Host.Cell := (natLe n v).zipIdx.map fun (b, i) => (a + i, b)

/-- An atomic step on n bytes of a core's own bank (12 R241). -/
def Store.atomStep (t : Store) (a n : Nat) (op : AtomOp) (u : Bool) (v new : Nat) : Store :=
  t.putCells (wordCells a n (op.step (8 * n) u (t.spad.readLe a n) v new)) (n = 8)

/-- What a held effect still does to its bytes once a write to `gone` stands after it: an ATOM swaps in the bytes that are left of its word, one by
one, and until then no other step on them is made. -/
def Held.less (h : Held) (gone : Nat → Bool) : List Held :=
  match h.eff with
  | .store cells => [{ h with eff := .store (cells.filter fun x => !gone x.1) }]
  | .atom view _ _ _ _ =>
    if view.any fun x => gone x.1 then (view.filter fun x => !gone x.1).map fun x => { h with eff := .atom [x] AtomOp.swap.code false x.2.toNat 0 }
    else [h]
  | _ => [h]

/-- One held effect when other bytes are written: `acc` is the addresses whose bytes earlier held stores give, and the effects so far. -/
def overtakeOne (ws : List Host.Cell) (acc : List Nat × List Held) (h : Held) : List Nat × List Held :=
  let hit (a : Nat) : Bool := ws.any fun w => w.1 = a
  match h.eff with
  | .store cells => (acc.1 ++ cells.map Prod.fst, acc.2 ++ [h])
  | .atom view _ _ _ _ =>
    if view.all (fun x => acc.1.contains x.1) || !(view.any fun x => hit x.1) then (acc.1, acc.2 ++ [h])
    else
      let mine (a : Nat) : Bool := view.any fun x => x.1 = a
      (acc.1.filter fun a => !mine a, acc.2.flatMap (fun g => g.less fun a => hit a && mine a) ++ h.less hit)
  | _ => (acc.1, acc.2 ++ [h])

/-- Held effects when another agent, or a handler, writes bytes (12 R241, 13 R265, R266, R273): an ATOM that has read a word of earlier held stores
alone steps after them, at its release. Any other one on those bytes has its step before the write, and so have the held stores to its word; of
these bytes only those that the write has left still reach the bank. (DEDUCED, log 12) -/
def Core.overtake (c : Core) (ws : List Host.Cell) : Core :=
  { c with eng := { c.eng with held := (c.eng.held.foldl (overtakeOne ws) ([], [])).2 } }

/-- A held ATOM has read a byte of a word that its step has not written yet: no other step comes between (12 R241). -/
def Core.atomHeld (c : Core) (a n : Nat) : Bool :=
  c.eng.held.any fun h => match h.eff with
    | .atom view _ _ _ _ => view.any fun x => decide (a ≤ x.1 ∧ x.1 < a + n)
    | _ => false

/-- A store, VST or TMST of the stepped core: held in replay, else made at once (01 R67, 04 R95); `at_` is how its bytes reach the bank
and `h` how it is held. -/
def State.putHeld (s : State) (ws : List Host.Cell) (h : HeldEff) (at_ : Store → Store) : State :=
  let c := s.me
  if c.holds then s.setMe { c with eng := { c.eng with held := c.eng.held ++ [⟨s.latch.iter, h⟩] } }
  else if c.eng.held.isEmpty then s.setMe { c with sto := at_ c.sto }
  else
    let c := c.overtake ws
    s.setMe { c with sto := at_ c.sto, eng := { c.eng with held := c.eng.held ++ [⟨s.latch.iter, .own (ws.map Prod.fst)⟩] } }

/-- A store's bytes put. -/
def State.putOwn (s : State) (ws : List Host.Cell) : State := s.putHeld ws (.store ws) fun t => t.putCells ws

/-- ATOM's step on n bytes at an address, `old` being what the core sees there: in replay the bank's word takes the step at its release,
and until then no other step on the word is made (04 R95, 12 R241, 13 R265, R273). (DEDUCED, log 12) -/
def State.putAtom (s : State) (a n : Nat) (op : AtomOp) (u : Bool) (old v new : Nat) : State :=
  let ws := wordCells a n (op.step (8 * n) u old v new)
  s.putHeld ws (.atom ws op.code u v new) fun t => t.putCells ws (n = 8)

/-! ### Taking a trap and returning (21 R369, R370) -/

/-- The cause code of 21 R373. -/
def Cause.code : Cause → Nat
  | .illegalInstruction => 0 | .reservedField => 1 | .privilege => 2 | .unassignedRegister => 3 | .fetchRange => 4
  | .software => 5 | .entryRegion => 6 | .doubleTrap => 7
  | .queueUnderflow => 32 | .queueOverflow => 33 | .loopStackOverflow => 34 | .loopStackUnderflow => 35 | .loopCount => 36
  | .vectorShape => 37 | .vectorIndex => 38 | .landingWatchdog => 39 | .syncIndex => 40
  | .misalignedAccess => 64 | .tensorMap => 65 | .handleFill => 66 | .pinOverflow => 67 | .future => 68 | .taskRecord => 69
  | .signTable => 70
  | .missedPromise => 96 | .replayHoldOverflow => 97 | .lease => 98 | .plane => 99 | .matrixOperand => 100
  | .accumulatorKind => 101 | .engineOperand => 102 | .segment => 103 | .flagOverflow => 104
  | .firstNan => 128 | .format => 129 | .tagMismatch => 130 | .rotationShape => 131 | .signMiss => 132
  | .poisonConsumption => 160 | .exhaustedSpares => 161 | .iterationOverrun => 162 | .group => 163 | .gang => 164

/-- Kind F of 21 R373. -/
def Cause.fatal (c : Cause) : Bool := c = .doubleTrap || c = .landingWatchdog || c = .handleFill

/-- CAUSE of a trap (21 R367). -/
def causeWord (r : TrapReq) (code : Nat) (fatal : Bool) : Word :=
  BitVec.ofNat 64 (code + r.slot.toNat * 2 ^ 8 + (if r.eng then 2 ^ 11 else 0) + r.queue.toNat * 2 ^ 12 +
    (if fatal then 2 ^ 14 else 0) + r.trap.sub.toNat * 2 ^ 16 + r.commit.toNat * 2 ^ 20 + r.spec.toNat * 2 ^ 40)

/-- The replay stage count of a loop stack. -/
def stagesOf (l : List Loop) : Nat := (l.map Loop.stages).foldl max 0

/-- EPC at entry (21 R366). -/
def epcWord (c : Core) : Word :=
  BitVec.ofNat 64 (c.seq.pc.toNat + c.ldepth * 2 ^ 13 + (if c.rpl then 2 ^ 16 else 0) + (stagesOf c.seq.loops - 1) % 4 * 2 ^ 17 +
    (c.regs.p.toNat / 16) * 2 ^ 19 + 2 ^ 23 +
    (match c.seq.transfer with
     | some t => 2 ^ 24 + (if t.left = 2 then 2 ^ 25 else 0) + t.target.toNat * 2 ^ 26
     | none => 0))

/-- The entry proper, once every pending write has completed (21 R369); `EPC.PC` is the core's pc, and a first-NaN trap sets NP and
clears NTE (05 R114). A trap with traps disabled,
in a handler, or of kind F halts the core. -/
def Core.enter (c : Core) (r : TrapReq) : Core :=
  let f := r.trap.cause.fatal
  let fp := if r.trap.cause = .firstNan then (c.sys.fpstat &&& ~~~0x8000) ||| 0x40 else c.sys.fpstat
  if f || !c.sys.tvec.getLsbD 0 || c.live then
    let dbl := c.live && !f
    let code := if dbl then 7 else r.trap.cause.code
    let tv := if dbl then BitVec.ofNat 64 r.trap.cause.code else r.trap.tval
    { c with sys := { c.sys with cause := causeWord r code true, tval := tv, fpstat := fp,
                                 epc := (c.sys.epc &&& ~~~0x1FFF) ||| c.seq.pc.setWidth 64 }
             seq := { c.seq with mode := .halted } }
  else
    { c with
      sys := { c.sys with cause := causeWord r r.trap.cause.code false, tval := r.trap.tval, epc := epcWord c,
                          pmode := c.sys.mode, mode := true, fpstat := fp }
      seq := { c.seq with pc := (c.sys.tvec >>> 1).setWidth 13, loops := [], rplOff := false, passCycles := 0, passOpen := false, iterCycles := 0, transfer := none, delayLeft := 0,
                          rollback := none, snap := ⟨c.seq.loops, c.seq.passCycles, c.seq.passOpen, c.seq.iterCycles, c.seq.rollback⟩, mode := .running } }

/-- An entry for a context's completion ring (24 R413): the Winder writes it at the end of the cycle, where the ring has room. (DEDUCED, log 30) -/
def State.hold (s : State) (ctx : Nat) (e : Compl) : State := s.onCtx ctx fun x => { x with hold := x.hold ++ [e] }

/-- The departure of a core from its groups (10 R203), with the release it may cause (10 R202): the members' resumption
is on its way within 150 cycles (12 R255). -/
def Group.complete (g : Group) : Bool := (g.members &&& ~~~(g.arrived ||| g.departed)) = 0

/-- Release of a group entry when every member is covered (10 R202). -/
def State.releaseGroup (s : State) (n : Nat) : State :=
  match Table.get s.groups n with
  | none => s
  | some g =>
    if g.complete then
      let st := decide (g.members &&& g.departed = 0)
      let s := { s with groups := Table.set s.groups n { g with arrived := 0, gen := g.gen + 1, status := st } }
      ((List.range 256).filter fun c => g.arrived.getLsbD c).foldl (fun s c =>
        let (k, s) := s.choose 149
        s.send (s.clock + 1 + k) (.resume c n g.gen st)) s
    else s

/-- The group ids bound to a core's slots (10 R198). -/
def Core.groupSlots (c : Core) : List Nat :=
  ((List.range 4).filter fun n => c.sys.role.getLsbD (32 + n)).map fun n => (c.sys.role >>> (8 * n)).toNat % 256

/-- A core departs from every group in its slots (10 R203). -/
def State.depart (s : State) (c : Fin 256) : State :=
  (s.core c).groupSlots.foldl (fun s n =>
    match Table.get s.groups n with
    | none => s
    | some g =>
      let s := { s with groups := Table.set s.groups n { g with departed := g.departed ||| (1#256 <<< c.val) } }
      s.releaseGroup n) s

/-- The gang mask of ROLE (10 R198). -/
def Core.gmask (c : Core) : Nat := (c.sys.role >>> 38).toNat % 16

/-- GSTATE of ROLE. -/
def Core.gstate (c : Core) : Nat := (c.sys.role >>> 36).toNat % 4

/-- ROLE with a new gang. -/
def Core.setGang (c : Core) (mask st : Nat) : Core :=
  { c with sys := { c.sys with role := (c.sys.role &&& ~~~(0x3F#64 <<< 36)) ||| BitVec.ofNat 64 (mask * 2 ^ 38 + st * 2 ^ 36) } }

/-- The members of a core's gang as global core ids, in ascending order; only itself outside a gang. -/
def Core.gang (c : Core) (id : Fin 256) : List (Fin 256) :=
  if c.gmask = 0 then [id]
  else ((List.range 4).filter fun k => (c.gmask / 2 ^ k) % 2 = 1).map fun k => coreId (id.val / 4 * 4 + k)

/-- A halting member leaves its gang (10 R205). -/
def State.leaveGang (s : State) (c : Fin 256) : State :=
  let me := s.core c
  if me.gmask = 0 then s
  else
    let others := (me.gang c).filter fun x => x ≠ c
    let m := me.gmask - 2 ^ (c.val % 4)
    let (m, st) := if others.length ≤ 1 then (0, none) else (m, some ())
    let s := others.foldl (fun s x => s.onCore x fun k => k.setGang m (if st.isSome then k.gstate else 0)) s
    s.onCore c fun k => k.setGang 0 0

/-- A faulted command dropped (21 R371): it stands at the head of its queue until it completes, in this cycle. The commands issued
meanwhile stay ahead of those held, and are heads like any other from here on. -/
def Core.dropFault (c : Core) (q : Nat) : Core :=
  match c.eng.fault.getD q none with
  | none => c
  | some cmd =>
    let x : Cmd := { cmd with prog := { cmd.prog with start := some 0, due := some 0, dropped := true } }
    let l := (c.eng.queues.getD q []).map fun y => { y with prog := { y.prog with waiting := false } }
    { c with eng := { c.eng with fault := vset c.eng.fault q none, queues := vset c.eng.queues q (x :: l) } }

/-- A record that ends drops the commands in its core's fault slots. (DEDUCED, log 20) -/
def Core.dropFaults (c : Core) : Core := [0, 1, 2].foldl Core.dropFault c

/-- The record of a core ends (10 R199): the completion entry, departure from groups and gang, the lease as MFREE would end it (21 R377), the
RECFAULT event for a code other than 0 (24 R413). -/
def State.endRecord (s : State) (c : Fin 256) (code : Nat) (value : Word) : State :=
  match (s.core c).run with
  | none => s
  | some r =>
    let s := s.depart c
    let s := s.leaveGang c
    let s := s.onFace (clusterOf c) fun f =>
      match f.lease with
      | some l => if l.mask.getLsbD (c.val % 4) then { f with lease := some { l with freed := true } } else f
      | none => f
    let s := { s with ended := s.ended ++ [Ended.mk c.val r.launch r.tgrp code value] }
    let s := if code = 0 then s else
      let s := s.onLaunch r.launch fun l => { l with recfaults := l.recfaults + 1 }
      s.hold r.ctx ⟨0, 33, 0, BitVec.ofNat 8 c.val, BitVec.ofNat 8 r.launch, BitVec.ofNat 64 code, value, none, false⟩
    s.onCore c fun k => { k.dropFaults with run := none, lastLaunch := some r.launch, seq := { k.seq with mode := .halted, next := [], ending := none, preempt := false } }

/-- TAKING A TRAP (21 R369): the core waits until every pending write has completed, then enters the handler or halts. -/
def State.takeTrap (s : State) (c : Fin 256) (r : TrapReq) : State :=
  let k := s.core c
  if k.settled then
    let k' := k.enter r
    let s := s.setCore c k'
    if k'.isHalted then s.endRecord c 2 k'.sys.cause else s
  else s.setCore c { k with seq := { k.seq with mode := .trapping r, iterCycles := if k.rpl then k.seq.iterCycles else k.seq.iterCycles + 1 } }

/-- EPC's fields as ERET reads them. -/
def epcField (e : Word) (lo n : Nat) : Nat := e.toNat / 2 ^ lo % 2 ^ n

/-- A faulted command restarted at the head of its queue, or dropped (21 R370-R372). -/
def Core.releaseFault (c : Core) (q : Nat) : Core :=
  match c.eng.fault.getD q none with
  | none => c
  | some cmd =>
    let eng := { c.eng with fault := vset c.eng.fault q none }
    if c.sys.cause.getLsbD 15 && c.sys.cause.getLsbD 11 && decide ((c.sys.cause >>> 12).toNat % 4 = q) then c.dropFault q
    else
      let cmd := { cmd with prog := { cmd.prog with start := none, due := none, acq := if cmd.prog.begun then cmd.prog.acq else .idle } }
      { c with eng := { eng with queues := vset eng.queues q (
          let l := eng.queues.getD q []
          let front := l.filter fun x => x.prog.start.isSome || x.prog.waiting
          let back := l.filter fun x => !(x.prog.start.isSome || x.prog.waiting)
          (front.map fun x => { x with prog := { x.prog with waiting := false } }) ++ cmd :: back) } }

/-- RETURNING FROM A TRAP (21 R370), once pending writes have completed and a handler is live. The bundles after a guarded-off transfer
are no delay bundles any more: EPC records pending transfers alone. A replay level under EPC.RPL = 0 goes on as a level, with STATUS.RPL = 0,
and what a pass holds whose level EPC.LDEPTH drops stays held. (DEDUCED, log 13; DESIGN CHOICE, log 13) -/
def Core.eret (c : Core) : Core :=
  let e := c.sys.epc
  let depth := epcField e 13 3
  let keep := c.seq.snap.loops.drop (c.seq.snap.loops.length - depth)
  let c := [0, 1, 2].foldl Core.releaseFault c
  { c with
    regs := { c.regs with p := BitVec.ofNat 8 (c.regs.p.toNat % 16 + epcField e 19 4 * 16) }
    sys := { c.sys with mode := c.sys.pmode, epc := e &&& ~~~(1#64 <<< 23) }
    seq := { c.seq with
      loops := keep
      rplOff := epcField e 16 1 = 0
      passCycles := c.seq.snap.passCycles
      passOpen := c.seq.snap.passOpen
      iterCycles := c.seq.snap.iterCycles
      rollback := if keep.any fun l => decide (l.stages ≠ 0) then c.seq.snap.rollback else none
      snap := {}
      pc := BitVec.ofNat 13 (epcField e 0 13)
      transfer := if epcField e 24 1 = 1 then some ⟨BitVec.ofNat 13 (epcField e 26 13), 1 + epcField e 25 1⟩ else none
      delayLeft := if epcField e 24 1 = 1 then 1 + epcField e 25 1 else 0 } }

end Sys2Proof.Machine
end

