-- ==== Sys2Proof/Machine/Operands.lean ====
section
/-! DEFINITION. Operand forms: scalar, queue and predicate operands, results with their latencies, memory operands (01 R17,
R18, 02 R34, R37). -/

namespace Sys2Proof.Machine

/-- What a slot instruction does at step 5 and after: a new state, or the trap that its slot raises (02 R43). -/
abbrev Body := State → Except Trap State

/-- A trap without TVAL. -/
def trapOf {α : Type} (c : Cause) : Except Trap α := .error { cause := c }

/-- A trap with TVAL. -/
def trapWith {α : Type} (c : Cause) (v : Word) : Except Trap α := .error { cause := c, tval := v }

/-- A scalar register as read (01 R17): s0 reads zero. -/
def Core.sreg (c : Core) (r : Nat) : Word := if r = 0 then 0 else c.regs.s.getD r 0

/-- The oldest entry popped from a queue (01 R18), with q7's hidden tag. -/
def State.popQ (s : State) (q : Nat) : Except Trap ((Word × Option Nat) × State) :=
  let c := s.me
  match c.regs.q.getD q [] with
  | e :: r =>
    match e.val with
    | some v => .ok ((v, e.tag), s.setMe { c with regs := { c.regs with q := vset c.regs.q q r } })
    | none => trapWith .queueUnderflow (BitVec.ofNat 64 (24 + q))
  | [] => trapWith .queueUnderflow (BitVec.ofNat 64 (24 + q))

/-- A scalar operand (03 R59): a register, or a queue popped. -/
def State.readS (s : State) (code : Nat) : Except Trap (Word × State) :=
  if code < 24 then .ok (s.me.sreg code, s)
  else (s.popQ (code - 24)).map fun r => (r.1.1, r.2)

/-- A result that becomes visible L cycles after issue (01 R13). -/
def State.addPend (s : State) (l : Nat) (w : Write) : State :=
  let c := s.me
  s.setMe { c with seq := { c.seq with pend := c.seq.pend ++ [⟨c.seq.rn + l - 1, s.latch.slot, w⟩] } }

/-- An entry reserved in a queue at issue (01 R18): its number. The fill count is that after the pops and pushes of the slots before it.
(DEDUCED, log 12) -/
def State.reserve (s : State) (q : Nat) : Except Trap (Nat × State) :=
  let c := s.me
  let l := c.regs.q.getD q []
  if 4 ≤ l.length then trapWith .queueOverflow (BitVec.ofNat 64 (24 + q))
  else .ok (c.regs.nextQ,
    s.setMe { c with regs := { c.regs with q := vset c.regs.q q (l ++ [{ id := c.regs.nextQ }]), nextQ := c.regs.nextQ + 1 } })

/-- A result for a scalar operand code (03 R59): discarded, written or pushed. -/
def State.writeS (s : State) (code l : Nat) (v : Word) : Except Trap State :=
  if code = 0 then .ok s
  else if code < 24 then .ok (s.addPend l (.scalar code v))
  else match s.reserve (code - 24) with
    | .ok (id, s) => .ok (s.addPend l (.push (code - 24) id v none))
    | .error t => .error t

/-- A predicate result. -/
def State.writeP (s : State) (n l : Nat) (b : Bool) : State := s.addPend l (.pred n b)

/-- The place where a landing result goes: the landing's number, and the queue entry reserved when the destination is a
queue (12 R239, 14 R289). -/
def State.addLanding (s : State) (l : Nat) : Nat × State :=
  let c := s.me
  (c.seq.nextLanding,
   s.setMe { c with seq := { c.seq with
     landings := c.seq.landings ++ [⟨c.seq.nextLanding, c.seq.rn + l - 1, s.latch.slot, c.seq.pc, none, none⟩]
     nextLanding := c.seq.nextLanding + 1 } })

/-- A remote effect begun by the core (12 R250): its number. -/
def State.addRemote (s : State) : Nat × State :=
  let c := s.me
  (c.eng.nextRemote,
   s.setMe { c with eng := { c.eng with remote := c.eng.remote ++ [c.eng.nextRemote], nextRemote := c.eng.nextRemote + 1 } })

/-- A remote effect completed. -/
def State.endRemote (s : State) (c : Fin 256) (n : Nat) : State :=
  s.onCore c fun k => { k with eng := { k.eng with remote := k.eng.remote.filter fun x => x ≠ n } }

/-- A remote effect issued before fence marker `n` is not complete, or its writes do not stand at SYSTEM scope by marker `m` (12 R250). -/
def Core.behind (c : Core) (n m : Nat) : Bool := (c.eng.remote.any fun x => decide (x < n)) || c.eng.sysOut.any fun x => decide (x.remote < m)

/-- The remote effects before the last fence are not all complete at its scope (12 R250). -/
def Core.fenced (c : Core) : Bool := c.behind c.eng.fenceAt c.eng.fenceSys

/-- The cycle for a message of a stream whose earlier messages keep their order: at least as late as the last one. -/
def State.afterAll (s : State) (at_ : Nat) (p : MsgBody → Bool) : Nat :=
  s.msgs.foldl (fun a m => if p m.body then max a m.at_ else a) at_

/-- What the core issues next follows the writes of its engines that have completed (13 R272). (DEDUCED, log 4) -/
def Core.seesEngines (c : Core) : Core := { c with sto := { c.sto with engSeen := c.sto.storeSeq } }

/-- The core's requests to the flag store keep their issue order (12 R253). -/
def State.flagOrder (s : State) (at_ : Nat) : Nat :=
  s.afterAll at_ fun b => match b with
    | .semReq _ w => w.core = s.cur.val && w.cmd.isNone
    | .signal c .. => c = s.cur.val
    | .tqPush c .. => c = s.cur.val
    | .tqPop c .. => c = s.cur.val
    | _ => false

/-- The byte displacement of format ML (02 R37). -/
def mlDisp (n : Nat) (j : BitVec 3) : Nat := if j = 0 then 0 else n * 2 ^ (j.toNat - 1)

/-- The offset check of 01 R27: misaligned offsets trap. -/
def checkAligned (h o n : Nat) : Except Trap Unit :=
  if o % n = 0 then .ok () else trapWith .misalignedAccess (violTval h o)

/-- The unit code of a memory slot in the violation log (11 R231): MA 0, MB 1. -/
def State.memUnit (s : State) : Nat := s.latch.slot - 6

/-- A flag number relative to SYNCWIN (10 R208). -/
def State.flagRef (s : State) (f : Word) : Except Trap FlagRef :=
  let w := s.me.sys.syncwin
  if f.toNat < w.toNat % 256 then
    .ok ⟨(w >>> 38).toNat % 4, ((w >>> 8).toNat % 4096 + f.toNat) % 4096, f.toNat⟩
  else trapWith .syncIndex f

/-- A token-queue number relative to SYNCWIN (10 R208): die and queue. -/
def State.tqRef (s : State) (t : Word) : Except Trap (Nat × Nat) :=
  let w := s.me.sys.syncwin
  if t.toNat < (w >>> 20).toNat % 256 then .ok ((w >>> 38).toNat % 4, ((w >>> 28).toNat % 1024 + t.toNat) % 1024)
  else trapWith .syncIndex t

/-- The group a slot number names (10 R201). -/
def State.groupRef (s : State) (n : Nat) : Except Trap Nat :=
  let c := s.me
  let g := (c.sys.role >>> (8 * n)).toNat % 256
  if c.sys.role.getLsbD (32 + n) && (match Table.get s.groups g with
      | some e => e.members.getLsbD s.cur.val
      | none => false) then .ok g
  else trapWith .group (BitVec.ofNat 64 n)

/-- A poison consumption by a core access (22 R381, R384): the consumer writes nothing; the trap or the rollback is
decided when the bundle ends. -/
def State.consume (s : State) (off handle : Nat) : State :=
  match s.latch.poisoned with
  | some _ => s
  | none =>
    let t : Trap := { cause := .poisonConsumption,
                      tval := BitVec.ofNat 64 (handle % 256 + s.memUnit * 256 + off * 65536) }
    { s with latch := { s.latch with poisoned := some (s.latch.iter,
        { trap := t, kind := .b, slot := BitVec.ofNat 3 s.latch.slot }) } }

end Sys2Proof.Machine
end

