-- ==== Sys2Proof/Machine/Flags.lean ====
section
/-! DEFINITION. Flags: when FPSTAT's sticky flags are raised, and what a result with flags raises (05 R111, R112, R114). -/

namespace Sys2Proof.Machine

/-- The rounding of an instruction without a rounding field (05 R105): FPSTAT.RM and SATD, and its SR word. -/
def Core.rounding (c : Core) (sr : Word) : Rnd :=
  ⟨(c.sys.fpstat >>> 12).setWidth 3, c.sys.fpstat.getLsbD 11, sr⟩

/-- The element-independent part of srword for the slot in hand (05 R110). -/
def State.srBase (s : State) : Word :=
  let c := s.me
  srBaseOf c.sys.srkey s.cur.val c.seq.pc.toNat s.latch.slot (c.seq.loops.reverse.map Loop.index)

/-- Flags raised with a result of latency L (05 R112); `np` places the first NP event (05 R114). -/
def State.raise (s : State) (l : Nat) (f : Flags) (np : Option NpInfo) : State :=
  if f = 0 then s else s.addPend l (.flags f np)

/-- The first element of a flag list that produced a NaN, as row and column of VSHAPE (05 R114). -/
def firstNp (fl : List Flags) (cols : Nat) (unit : BitVec 4) (pc : BitVec 13) (slot : Nat) : Option NpInfo :=
  (fl.zipIdx.find? fun p => p.1.getLsbD 6).map fun p =>
    { unit := unit, pc := pc, row := BitVec.ofNat 7 (p.2 / cols), col := BitVec.ofNat 14 (p.2 % cols), slot := BitVec.ofNat 3 slot }

/-- All the flags of a list. -/
def orFlags (fl : List Flags) : Flags := fl.foldl (· ||| ·) 0

end Sys2Proof.Machine
end

