-- ==== Sys2Proof/Machine/Issue.lean ====
section
/-! DEFINITION. The issue of a bundle (02 R43, R44): what a slot instruction's meaning consists of, the passes over the slots,
and what happens when the bundle ends (01 R8, 03 R68 to R71, 04 R92 to R97). -/

namespace Sys2Proof.Machine

/-- The meaning of a slot instruction, by the steps of 02 R43. -/
structure Meaning where
  /-- Step 1: a placement rule or a replay ban forbids it here. -/
  ban : Core → Bool := fun _ => false
  /-- Step 3: the current mode denies it. -/
  denied : Core → Bool := fun _ => false
  /-- It ends the entry region (10 R214). -/
  endsRegion : Bool := false
  /-- It has delay bundles, taken or not (01 R12). -/
  hasDelay : Bool := false
  /-- The bundle waits before issue. -/
  waits : State → Bool := fun _ => false
  /-- A pre-emption request is honoured in that wait (21 R374). -/
  honour : Bool := false
  /-- No pre-emption request is honoured while it waits (12 R261). -/
  locks : State → Bool := fun _ => false
  /-- Its result comes through a landing slot (14 R289). -/
  lands : Bool := false
  /-- The engine queue that its command enters (14 R281). -/
  queue : State → Option Nat := fun _ => none
  /-- The handles it uses (11 R227). -/
  uses : State → List Nat := fun _ => []
  /-- Step 5 and the effect. -/
  body : Body

/-- The core stands in a delay bundle (01 R12). -/
def Core.inDelay (c : Core) : Bool := decide (0 < c.seq.delayLeft)

/-- The core stands at the end bundle of a live level. -/
def Core.atEnd (c : Core) : Bool := c.seq.loops.any fun l => decide (l.fin = c.seq.pc)

/-- The placement rule of a transfer with delay bundles (01 R12, 03 R69, R70). -/
def banTransfer (c : Core) : Bool := c.inDelay || c.atEnd || c.rpl

/-- The replay level's pass count (04 R92). -/
def Core.passNo (c : Core) : Nat := ((c.seq.loops.find? fun l => decide (l.stages ≠ 0)).map fun l => l.index.toNat).getD 0

/-- The source iteration of an instruction with this guard (22 R384). -/
def Core.iterOf (c : Core) (g : Guard) : Nat :=
  if g.neg = 0 ∧ 4 ≤ g.pred.toNat then c.passNo - (g.pred.toNat - 4) else c.passNo

/-- A rollback squashes the instruction as if guarded off (22 R385). -/
def Core.squashed (c : Core) (g : Guard) : Bool :=
  match c.seq.rollback with
  | some r => !r.reentered && decide (r.iter ≤ c.iterOf g)
  | none => false

/-- The guard holds and no rollback squashes the instruction. -/
def Core.runs (c : Core) (g : Guard) : Bool := c.guard g && !c.squashed g

/-- The first failing check is the slot's trap (02 R43); the first slot's is the bundle's (02 R44). -/
def State.note (s : State) (t : Trap) : State :=
  match s.latch.trap with
  | some _ => s
  | none => { s with latch := { s.latch with trap := some (t, s.latch.slot) } }

/-- Steps 1 and 3, whatever the guard. -/
def checkSlot (m : Meaning) (s : State) : State :=
  let c := s.me
  if m.ban c then s.note { cause := .illegalInstruction }
  else if m.denied c then s.note { cause := .privilege }
  else { s with latch := { s.latch with endsRegion := s.latch.endsRegion || m.endsRegion,
                                        hasDelay := s.latch.hasDelay || m.hasDelay } }

/-- Released commands that have not entered their queue yet (04 R95): any next bundle waits for them, after the last pass and in a handler
too. (DEDUCED, log 13) -/
def Core.releasing (c : Core) : Bool :=
  (List.range 3).any fun q => decide (16 < (c.eng.queues.getD q []).length + (c.eng.fault.getD q none).toList.length)

/-- The unit of the slot in hand is still occupied (04 R86, 07 R134). -/
def State.unitBusy (s : State) : Bool := decide (s.me.seq.rn < s.me.seq.unitBusy.getD s.latch.slot 0)

/-- The bundle so far would overfill the landing buffer or an engine queue (14 R281, R289). -/
def State.overfull (s : State) : Bool :=
  decide (16 < s.me.seq.landings.length + s.latch.lands) ||
    (!s.me.holds && s.latch.cmds.any fun q =>
      decide (16 < (s.me.eng.queues.getD q []).length + (s.me.eng.fault.getD q none).toList.length + s.latch.cmds.count q))

/-- The slot whose request a wait is. -/
def SlotWait.slot : SlotWait → Nat
  | .semSent k _ _ _ => k
  | .semGranted k _ _ _ => k
  | .futSent k _ _ => k
  | .futAnswer k _ => k
  | .sgSent k _ _ => k
  | .sgArrived k => k

/-- Step 4 with the waits and the handle lookups of an unguarded instruction. A bundle that has sent a request waits for its answer,
whatever its guard has become meanwhile (12 R254). -/
def probeSlot (g : Guard) (m : Meaning) (s : State) : State :=
  if s.me.runs g then
    let s' := { s with latch := { s.latch with lands := s.latch.lands + (if m.lands then 1 else 0),
                                               cmds := s.latch.cmds ++ (m.queue s).toList } }
    let w := m.waits s || s.unitBusy || s'.overfull
    { s' with latch := { s'.latch with wait := s.latch.wait || w, honour := s.latch.honour || (m.waits s && m.honour),
                                       locked := s.latch.locked || (w && m.locks s),
                                       uses := s.latch.uses ++ m.uses s
                                       useSlots := s.latch.useSlots ++ (m.uses s).map fun h => (h, s.latch.slot) } }
  else if s.me.seq.wait.any fun w => w.slot = s.latch.slot then
    { s with latch := { s.latch with wait := s.latch.wait || m.waits s, honour := s.latch.honour || (m.waits s && m.honour),
                                     locked := s.latch.locked || (m.waits s && m.locks s) } }
  else s

/-- The source iteration of the instruction in hand noted (22 R384). -/
def State.noteIter (s : State) (g : Guard) : State := { s with latch := { s.latch with iter := s.me.iterOf g } }

/-- Step 5 and the effect. -/
def applySlot (g : Guard) (m : Meaning) (s : State) : State :=
  if s.me.runs g && s.latch.trap.isNone then
    match m.body (s.noteIter g) with
    | .ok s' => s'
    | .error t => (s.noteIter g).note t
  else s

/-! ### The end of a bundle -/

/-- One delta addition (03 R73, 04 R94), taken mult times. -/
def Core.addDelta (c : Core) (e : Word) (mult : Int) : Core :=
  let d : Int := (e.setWidth 32).toInt * mult
  let tgt := (e >>> 40).toNat % 256
  if tgt < 128 then
    if tgt = 0 then c else { c with regs := { c.regs with s := vset c.regs.s tgt (c.sreg tgt + BitVec.ofInt 64 d) } }
  else
    let m := tgt / 8 % 16
    let f := tgt % 8
    let (lo, w) := if f = 0 then (48, 48) else (96 + 80 * (f - 1) + 20, 20)
    let old := c.vec.tm.getD m 0
    let x := old.toNat / 2 ^ lo % 2 ^ w
    let y := intBits w (x + d)
    { c with vec := { c.vec with tm := vset c.vec.tm m (BitVec.ofNat 512 (old.toNat - x * 2 ^ lo + y * 2 ^ lo)) } }

/-- The delta additions of a level's loop-end action (04 R94), in entry order. (DEDUCED, log 12) -/
def Core.deltas (c : Core) (level : Nat) (mult : Int) : Core :=
  c.seq.delta.toList.foldl (fun c (e : Word) => if (e >>> 32).toNat % 8 = level then c.addDelta e mult else c) c

/-- The trip limit of a level: its count, or n + S - 1 passes (04 R92). -/
def Loop.limit (l : Loop) : Nat := if l.stages = 0 then l.count.toNat else l.count.toNat + l.stages - 1

/-- The loop-end actions at a bundle (01 R8): the levels left, where fetch goes if a level repeats, and the levels acted on
with their numbers, innermost first. The index is the 32-bit field of 01 R7: a level of more than 2^32 passes never ends. (DESIGN CHOICE, log 13) -/
def closeAt (p : BitVec 13) : List Loop → List Loop × Option (BitVec 13) × List (Nat × Loop)
  | [] => ([], none, [])
  | l :: r =>
    if l.fin = p then
      if l.index.toNat + 1 < l.limit then ({ l with index := l.index + 1 } :: r, some l.start, [(r.length, l)])
      else
        let (r', t, ev) := closeAt p r
        (r', t, (r.length, l) :: ev)
    else (l :: r, none, [])

/-- The stage predicates at a pass end (04 R93). -/
def stagePreds (p : BitVec 8) (l : Loop) : BitVec 8 :=
  let b (n : Nat) (v : Bool) : Nat := if v then 2 ^ n else 0
  BitVec.ofNat 8 (p.toNat % 16 + b 4 (decide (l.index.toNat + 1 < l.count.toNat)) + b 5 (decide (1 < l.stages) && p.getLsbD 4) +
    b 6 (decide (2 < l.stages) && p.getLsbD 5) + b 7 (decide (3 < l.stages) && p.getLsbD 6))

/-- A command entering its queue (14 R281); one issued while the fault slot is occupied goes ahead of the held ones (21 R371). -/
def Core.enqueue (c : Core) (cmd : Cmd) : Core :=
  let l := c.eng.queues.getD cmd.queue []
  let busy := (c.eng.fault.getD cmd.queue none).isSome
  let l' := if busy then
      (l.filter fun x => x.prog.start.isSome || x.prog.waiting) ++ { cmd with prog := { cmd.prog with waiting := true } } ::
        l.filter fun x => !(x.prog.start.isSome || x.prog.waiting)
    else l ++ [cmd]
  { c with eng := { c.eng with queues := vset c.eng.queues cmd.queue l' } }

/-- Held effects released at a pass's retirement, in issue order (04 R95). -/
def Core.release (c : Core) : List Held → Core
  | [] => c
  | h :: r =>
    (match h.eff with
     | .store ws => { c with sto := c.sto.putCells ws }
     | .atom ws op u v new => { c with sto := c.sto.atomStep ((ws.map Prod.fst).headD 0) ws.length (.ofCode op) u v new }
     | .cmd k =>
       let n := c.eng.nextRemote
       let c := { c with eng := { c.eng with nextRemote := n + 1, remote := c.eng.remote ++ [n] } }
       c.enqueue { k with after := c.eng.fenceAt, afterSys := c.eng.fenceSys, remote := n, cap := { k.cap with epoch := ⟨c.sto.fenceX, c.sto.engSeen⟩, hostord := c.sys.hostord.getLsbD 0 } }
     | .own _ => c
     | .fence sys => { c with eng := { c.eng with fenceAt := c.eng.nextRemote, fenceSys := if sys then c.eng.nextRemote else c.eng.fenceSys } }
     | .fenceX => { c with sto := { c.sto with fenceX := c.sto.storeSeq } }).release r

/-- The retirement of a replay pass (04 R95, 22 R385); a handler's pass holds nothing, and releases nothing of the pass that it interrupts
(04 R97). Row kinds and tags that a discarded MRUN or MCLR set at its issue stand (08 R174, 22 R385). (DESIGN CHOICE, log 13) -/
def Core.retirePass (c : Core) : Core :=
  let keep := match c.seq.rollback with
    | some r => if r.reentered then c.eng.held else c.eng.held.filter fun h => decide (h.iter < r.iter)
    | none => c.eng.held
  let c := if c.live then c else
    let c := c.release keep
    { c with eng := { c.eng with held := [] } }
  { c with seq := { c.seq with passCycles := 0, passOpen := false } }

/-- What a loop-end action of one level does beside the loop stack: stage predicates and retirement for a replay level,
the iteration count of the task level, delta additions (04 R93 to R95, 21 R374). -/
def Core.levelEnd (c : Core) (n : Nat) (l : Loop) : Core :=
  let c := if l.stages = 0 then c else
    let c := if c.rpl then { c with regs := { c.regs with p := stagePreds c.regs.p l } } else c
    let c := c.retirePass
    match c.seq.rollback with
    | some r => if r.reentered && decide (r.closePass ≤ l.index.toNat) then { c with seq := { c.seq with rollback := none } } else c
    | none => c
  let c := if n = 0 then { c with seq := { c.seq with iterCycles := 0 } } else c
  c.deltas n 1

/-- Fetch moves to a bundle; past bundle 8,191 the fetch-range event of 01 R6 is pending. A live handler, which holds the event, issues
bundle 8,191 again. (DEDUCED, log 13) -/
def Core.fetchTo (c : Core) (n : Nat) : Core :=
  if n < 8192 then { c with seq := { c.seq with pc := BitVec.ofNat 13 n } }
  else { c with seq := { c.seq with pc := 8191, events := c.seq.events ++
      [{ trap := { cause := .fetchRange, tval := 8191 }, kind := .b }] } }

/-- The loop-end actions at bundle p on a loop stack, and the fetch after them; `other` is where fetch goes when no level
ends here. -/
def Core.loopEnd (c : Core) (p : BitVec 13) (other : Nat) : Core :=
  match c.seq.loops, c.seq.rollback with
  | l :: _, some r =>
    if l.stages ≠ 0 ∧ l.fin = p ∧ !r.reentered ∧ l.index.toNat = r.drainEnd then
      -- re-entry of a rollback (22 R386)
      let c := c.levelEnd (c.seq.loops.length - 1) l
      let c := c.deltas (c.seq.loops.length - 1) (-((r.drainEnd + 1 - r.iter : Nat) : Int))
      { c with
        regs := { c.regs with p := BitVec.ofNat 8 (c.regs.p.toNat % 16 + (if r.iter < l.count.toNat then 16 else 0)) }
        seq := { c.seq with loops := { l with index := BitVec.ofNat 32 r.iter } :: c.seq.loops.tail, pc := l.start,
                            rollback := some { r with reentered := true } } }
    else plain c
  | _, _ => plain c
where
  plain (c : Core) : Core :=
    let (ls, t, ev) := closeAt p c.seq.loops
    let c := ev.foldl (fun c e => c.levelEnd e.1 e.2) c
    let popped := ev.any fun e => decide (e.2.stages ≠ 0 ∧ ¬ (e.2.index.toNat + 1 < e.2.limit))
    let c := { c with seq := { c.seq with loops := ls, rollback := if popped then none else c.seq.rollback } }
    match t with
    | some a => { c with seq := { c.seq with pc := a } }
    | none => if ev.isEmpty then c.fetchTo other else c.fetchTo (p.toNat + 1)

/-- The natural successor of a bundle: a delay bundle counts down, the last one leads to the target (03 R68); otherwise
loop ends and sequential fetch. -/
def Core.natural (c : Core) : Core :=
  match c.seq.transfer with
  | some t =>
    if t.left ≤ 1 then { c with seq := { c.seq with transfer := none, pc := t.target } }
    else { c with seq := { c.seq with transfer := some { t with left := t.left - 1 } } }.fetchTo (c.seq.pc.toNat + 1)
  | none => c.loopEnd c.seq.pc (c.seq.pc.toNat + 1)

/-- The change of control of a bundle (03 R68 to R77); the waits that it asks for follow the bundle's others. (DEDUCED, log 13) -/
def Core.advance (c : Core) (k : Control) : Core :=
  match k with
  | .none => c.natural
  | .transfer t => { c with seq := { c.seq with transfer := some ⟨t, 2⟩ } }.fetchTo (c.seq.pc.toNat + 1)
  | .push l =>
    let c := if l.stages = 0 then c else { c with regs := { c.regs with p := BitVec.ofNat 8 (c.regs.p.toNat % 16 + 16) },
                                                   seq := { c.seq with passCycles := 0, passOpen := false, rplOff := false } }
    { c with seq := { c.seq with loops := l :: c.seq.loops } }.fetchTo (c.seq.pc.toNat + 1)
  | .skip n => c.fetchTo n
  | .lbrk n =>
    let last := (c.seq.loops.take n).getLast?
    let c := { c with seq := { c.seq with loops := c.seq.loops.drop n } }
    c.loopEnd c.seq.pc ((last.map fun l => l.fin.toNat + 1).getD (c.seq.pc.toNat + 1))
  | .eret => c.eret
  | .halt code v =>
    -- the end bundle of a pass retires it (04 R95); the loop stack and the registers stand (03 R77)
    let c := match c.seq.loops with
      | l :: _ => if l.stages ≠ 0 ∧ l.fin = c.seq.pc ∧ c.seq.transfer.isNone then c.retirePass else c
      | [] => c
    { c with seq := { c.seq with next := c.seq.next ++ [.halting code v] } }
  | .sleep w p =>
    let c := c.natural
    { c with seq := { c.seq with next := c.seq.next ++ [.asleep w p] } }
  | .softTrap _ => c.natural
  | .service n =>
    let c := c.natural
    { c with seq := { c.seq with next := c.seq.next ++ [.serving n] } }

/-- The end of the cycle in which a bundle issues: what is due lands, control changes, with the loop-end actions under the delta table of
the bundle's issue (03 R73), and the bundle's waits begin. -/
def Core.close (c : Core) (k : Control) : Core :=
  let d := c.endCycle
  let e := ({ d with seq := { d.seq with delta := c.seq.delta } }).advance k
  ({ e with seq := { e.seq with delta := d.seq.delta, ending := none } }).toWait

/-- The commands that a core holds. -/
def Core.heldCmds (c : Core) : List Cmd := c.eng.held.filterMap fun h => match h.eff with | .cmd x => some x | _ => none

/-- The pins of held commands that a rollback has discarded, as it stood in `before`, given back (15 R312, 22 R385). -/
def State.unpinGone (s : State) (c : Fin 256) (before : Core) : State :=
  match before.seq.rollback with
  | none => s
  | some _ =>
    let here (x : Cmd) : Bool := ((s.core c).heldCmds ++ (s.core c).eng.queues.toList.flatMap id).any fun y => y.id = x.id
    (before.heldCmds.filter fun x => !here x).foldl (fun s x => x.pins.foldl (fun s h => s.send s.clock (.pin c.val x.ctx h.h false)) s) s

/-- The same for a core of the package; TRAP's trap follows its bundle (03 R75), after the waits that the bundle asked for. -/
def State.closeBundle (s : State) (c : Fin 256) (k : Control) : State :=
  let s := (s.onCore c fun x => x.close k).unpinGone c (s.core c)
  match k with
  | .softTrap n =>
    let r : TrapReq := { trap := { cause := .software, tval := n.setWidth 64 }, kind := .a }
    if (s.core c).seq.mode = .running then s.takeTrap c r
    else s.onCore c fun x => { x with seq := { x.seq with next := x.seq.next ++ [.trapping r] } }
  | _ => s

/-- The results that come some cycles after their landing cycle are on their way once that has come (07 R159). -/
def State.callLate (s : State) : State :=
  let c := s.me
  let due (l : Landing) : Bool := decide (l.due ≤ c.seq.rn) && l.arrived.isNone
  let t := s.setMe { c with seq := { c.seq with landings := c.seq.landings.map fun l => if due l then { l with late := none } else l } }
  (c.seq.landings.filter due).foldl (fun t l => match l.late with
    | some (n, ws) => t.send (t.later t.cur.val n) (.landed t.cur.val l.id ws)
    | none => t) t

/-- A cycle of the core ends: either everything due lands, or a late landing freezes the core (14 R289). -/
def State.endCoreCycle (s : State) : State :=
  let c := s.me
  if c.lateLanding then (s.setMe { c with seq := { c.seq with mode := .frozen s.clock, resume := c.seq.mode } }).callLate
  else s.setMe c.endCycle

/-- The entries that QCLR discards: those held in its issue cycle (03 R66). -/
def Core.qclr (c : Core) (qs : List Nat) : Core :=
  qs.foldl (fun c q => { c with regs := { c.regs with q := vset c.regs.q q ((c.regs.q.getD q []).filter fun e => e.val.isNone) } }) c

/-- A rollback is open, of the current replay loop or of the one that a handler interrupts (22 R387). -/
def Core.rollingBack (c : Core) : Bool := c.seq.rollback.isSome || c.seq.snap.rollback.isSome

/-- The rollback that a consumption of poison at iteration i starts (22 R384, R385). -/
def Core.rollbackAt (c : Core) (i : Nat) : Option Rollback :=
  match c.seq.loops.find? fun l => decide (l.stages ≠ 0) with
  | some l => if c.rollingBack || decide (l.count.toNat ≤ i) then none
      else some ⟨i, max l.index.toNat (i + l.stages - 2), false, i + l.stages - 1⟩
  | none => none

/-- The poison-consumption event of a core consumer (22 R381, R387). -/
def Core.poisoned (c : Core) (r : TrapReq) : Core :=
  { c with seq := { c.seq with events := c.seq.events ++ [{ r with trap := { r.trap with sub := if c.rollingBack then 1 else 0 } }] } }

/-- The rollback that a bundle's own consumption starts: it squashes instructions of that bundle already (22 R385). A trap of the bundle comes
before it. -/
def State.rollbackStart (s : State) : Option Rollback :=
  match s.latch.poisoned, s.latch.trap with
  | some (i, _), none => s.me.rollbackAt i
  | _, _ => none

/-- Granted decrements that the bundle does not use, because a guard has turned false, go back as increments (12 R254). -/
def State.giveUnspent (s : State) (spent : List Nat) : State :=
  s.me.seq.wait.foldl (fun s w => match w with
    | .semGranted k d f _ => if spent.contains k then s else s.send s.clock (.semInc d f 1)
    | _ => s) s

/-- The end of a bundle that issued: QCLR, poison, landings, the change of control, the mode that follows. A late landing freezes the core
before all that the end of its cycle brings (14 R289). -/
def State.commit (s : State) : State :=
  let la := s.latch
  let c := s.me.qclr la.qclr
  let c := match la.poisoned with | some (_, r) => c.poisoned r | none => c
  let c := if c.rpl then c else { c with seq := { c.seq with iterCycles := c.seq.iterCycles + 1 } }
  let c := { c with seq := { c.seq with
    delayLeft := if la.hasDelay then 2 else c.seq.delayLeft - 1
    wait := []
    waitHonour := false
    passOpen := c.rpl
    next := la.modes } }
  let t := { (s.giveUnspent la.spent).setMe c with latch := { slot := la.slot, verdict := .issued } }
  if c.lateLanding then (t.setMe { c with seq := { c.seq with mode := .frozen s.clock, resume := .running, ending := some la.control } }).callLate
  else t.closeBundle s.cur la.control

/-- What became of the bundle, noted. -/
def State.verdict (s : State) (v : Verdict) : State := { s with latch := { s.latch with verdict := v } }

/-- A cycle in which the bundle waits before issue: the clock of the core runs (01 R13, 21 R374). -/
def State.waitCycle (s : State) (honour : Bool) : State :=
  let c := s.me
  let c := if c.rpl || honour then c else { c with seq := { c.seq with iterCycles := c.seq.iterCycles + 1 } }
  let c := { c with seq := { c.seq with waitHonour := honour } }
  ((s.setMe c).endCoreCycle).verdict .waited

/-- An outstanding request of a waiting bundle withdrawn; a granted decrement goes back as an increment (12 R254). -/
def State.withdraw (s : State) : State :=
  let c := s.me
  let s := c.seq.wait.foldl (fun s w =>
    match w with
    | .semSent _ d _ id =>
      { s.onDie (Fin.ofNat 4 d) (fun x => { x with semWait := x.semWait.filter fun y => y.id ≠ id }) with
        msgs := (s.msgs.filter fun m => match m.body with | .semReq _ y => y.id ≠ id | _ => true) }
    | .semGranted _ d f _ => s.send s.clock (.semInc d f 1)
    | _ => s) s
  s.onCore s.cur fun c => { c with seq := { c.seq with wait := [], waitHonour := false } }

/-- A trap at issue (02 R44): nothing of the bundle takes effect; EPC will name it. -/
def State.trapAtIssue (s : State) (t : Trap) (slot : Nat) : State :=
  let s := s.withdraw
  ((s.takeTrap s.cur { trap := t, kind := .i, slot := BitVec.ofNat 3 slot }).endCoreCycle).verdict .trapped

/-- The cache with the used handles most recent (11 R227). -/
def Core.touch (c : Core) (hs : List Nat) : Core :=
  if hs.isEmpty then c else
  { c with sto := { c.sto with hcache :=
      (c.sto.hcache.filter fun p => hs.contains p.1) ++ c.sto.hcache.filter fun p => !hs.contains p.1 } }

/-- A freeze for the handles that miss (11 R228): 96 cycles a fill, in slot order. -/
def State.startFill (s : State) (uses miss : List Nat) (slots : Table Nat) : State :=
  (s.onCore s.cur fun c => { c.touch uses with seq := { c.seq with
    mode := .filling s.clock (s.later s.cur.val (96 * miss.length)) miss, fillSlots := slots } }).verdict .froze

/-- FUTRD's squash (10 R216): the record parks on its futures, the core discards what is pending and becomes idle. (DEDUCED, log 13) -/
def State.squashRecord (s : State) (hs : List Nat) : State :=
  let c := s.me
  match c.run with
  | none => s
  | some r =>
    let s := s.onDie (dieOf s.cur) fun d =>
      { d with tasks := d.tasks ++ [{ id := d.nextTask, launch := r.launch, record := r.record, prio := r.prio,
                                      state := .parked hs }], nextTask := d.nextTask + 1 }
    let s := hs.foldl (fun s h =>
      match Table.get s.ctxs r.ctx with
      | none => s
      | some x =>
        let e := x.entry h
        let p := s.pageOf c h e
        let st := Ent.state (x.resolve e p)
        if Ent.kind e = 2 ∧ (st = 0 ∨ st = 3) then
          s.send (s.clock + 1) (.fetchReq (dieOf s.cur) { ctx := r.ctx, handle := h, launch := r.launch, demand := true, prosp := false })
        else s) s
    s.onCore s.cur fun c => { c with
      regs := { c.regs with q := Vector.replicate 8 [] }
      seq := { c.seq with mode := .halted, next := [], pend := [], landings := [], wait := [], loops := [], transfer := none, delayLeft := 0,
                          preempt := false }
      run := none
      lastLaunch := some r.launch }

/-- The requests of a waiting bundle sent: SEMWAIT's, FUTFILL's, SGSET's read (12 R249, R254, R261). -/
def State.sendReqs (s : State) (rs : List SlotWait) : State :=
  let s := rs.foldl (fun s r =>
    match r with
    | .semSent slot d f _ =>
      let bound := if d = (dieOf s.cur).val then 20 else 240
      let (k, s) := s.choose bound
      let id := s.nextMsg
      let s := s.send (s.flagOrder (s.clock + k)) (.semReq d ⟨f, s.cur.val, slot, id, none, s.clock + bound⟩)
      s.onCore s.cur fun c => { c with seq := { c.seq with wait := c.seq.wait ++ [.semSent slot d f id] } }
    | .futSent slot h v =>
      let (k, s) := s.choose 100
      let s := s.send (s.clock + k) (.futFill s.cur.val ((s.me.ctx).getD 64) h v slot)
      s.onCore s.cur fun c => { c with seq := { c.seq with wait := c.seq.wait ++ [r] } }
    | _ => s.onCore s.cur fun c => { c with seq := { c.seq with wait := c.seq.wait ++ [r] } }) s
  s

/-- The state in which the slots of a bundle act: the entry region over if a slot ends it (10 R214), the used handles most
recent in the cache (11 R227), an empty latch. -/
def State.begin (s : State) (ends delay : Bool) (uses : List Nat) : State :=
  let c := if ends then { s.me with seq := { s.me.seq with entryRegion := false } } else s.me
  { s.setMe (c.touch uses) with latch := { slot := s.latch.slot, hasDelay := delay } }

/-- The loop that the record's kernel runs under is live, as the lowest level (10 R213). -/
def Core.inTask (c : Core) (r : RunRec) : Bool :=
  c.seq.taskEntered && match c.seq.loops.getLast? with
    | some l => decide (l.start = r.ker ∧ l.fin = r.epi - 1 ∧ l.stages = 0)
    | none => false

/-- The cycles of the iteration, when they exceed MAXITER (21 R374): of a replay pass, or of a task-level iteration. (DEDUCED, log 13) -/
def Core.overrun (c : Core) : Option Nat :=
  match c.run with
  | some r => if r.maxiter = 0 then none else
      let n := (if c.rpl then c.seq.passCycles else c.seq.iterCycles) + 1
      if (c.rpl || c.inTask r) && decide (r.maxiter < n) && !c.live then some n else none
  | none => none

/-- The handles that a bundle uses and the cache does not hold (11 R228). -/
def Core.misses (c : Core) (uses : List Nat) : List Nat :=
  (uses.filter fun h => (Table.get c.sto.hcache h).isNone).eraseDups

/-- Step 5 and the effects of a bundle, made anew under the rollback that they start, if they start one (22 R385). -/
def State.applyAll (f : Phase → State → State) (s : State) : State :=
  let t := f .apply s
  match t.rollbackStart with
  | some r => f .apply (s.setMe { s.me with seq := { s.me.seq with rollback := some r } })
  | none => t

/-- The issue of the bundle at the core's pc (02 R43), `f` making each pass over its slots. A delay bundle at the end bundle of a live level
traps ahead of every slot, and names slot 0. (DEDUCED, log 13) -/
def State.issue (f : Phase → State → State) (s0 : State) : State :=
  let c0 := s0.me
  let s1 := f .check (s0.begin false false [])
  let early : Option (Trap × Nat) := if c0.inDelay && c0.atEnd then some ({ cause := .illegalInstruction }, 0) else s1.latch.trap
  match early with
  | some (t, slot) => (s0.begin false false []).trapAtIssue t slot
  | none =>
    let ends := s1.latch.endsRegion
    let base := s0.begin ends false []
    let s2 := f .probe (s0.begin ends s1.latch.hasDelay [])
    if s2.latch.wait || c0.releasing then base.waitCycle (s2.latch.honour && !s2.latch.locked)
    else match c0.overrun with
    | some n => base.trapAtIssue { cause := .iterationOverrun, tval := BitVec.ofNat 64 n } 0
    | none =>
      if !(c0.misses s2.latch.uses).isEmpty then base.startFill s2.latch.uses (c0.misses s2.latch.uses) s2.latch.useSlots
      else
        let s3 := (s0.begin ends s1.latch.hasDelay s2.latch.uses).applyAll f
        match s3.latch.trap with
        | some (t, slot) => base.trapAtIssue t slot
        | none =>
          if !s3.latch.squash.isEmpty then (base.squashRecord s3.latch.squash.eraseDups).verdict .issued
          else if !s3.latch.reqs.isEmpty then (base.sendReqs s3.latch.reqs).waitCycle (s3.latch.honour && !s3.latch.locked)
          else s3.commit

/-- The state in one of the passes over its bundle's slots. -/
def State.inPhase (s : State) (p : Phase) : State := { s with latch := { s.latch with phase := p } }

/-- The state in which the effect of a lone slot instruction begins: its bundle opened, its source iteration noted. -/
def State.opened (s : State) (g : Guard) (ends delay : Bool) (uses : List Nat) : State :=
  ((s.begin ends delay uses).inPhase .apply).noteIter g

/-- A slot instruction in one of the passes. -/
def slotIn (g : Guard) (m : Meaning) (p : Phase) (s : State) : State :=
  match p with
  | .check => checkSlot m (s.inPhase p)
  | .probe => probeSlot g m (s.inPhase p)
  | .apply => applySlot g m (s.inPhase p)
  | .solo => s

/-- A slot instruction executed: the whole issue of its bundle when it stands alone, or one pass of a fuller bundle. -/
def runSlot (g : Guard) (m : Meaning) (s : State) : Host.Outcome State Fault Refusal :=
  .next (match s.latch.phase with
    | .solo => s.issue (slotIn g m)
    | p => slotIn g m p s)

end Sys2Proof.Machine
end

