-- ==== Sys2Proof/Machine/Scalar.lean ====
section
/-! DEFINITION. The scalar class: arithmetic, constants, compares, predicates and queue registers (03 R59 to R66). -/

namespace Sys2Proof.Machine

/-- A register-register operation of latency l (03 R60). -/
def alu2 (d a b : BitVec 5) (l : Nat) (f : Word → Word → Word) : Meaning where
  body s := do
    let (x, s) ← s.readS a.toNat
    let (y, s) ← s.readS b.toNat
    s.writeS d.toNat l (f x y)

/-- A one-operand operation of latency 1 (03 R60). -/
def alu1 (d a : BitVec 5) (f : Word → Word) : Meaning where
  body s := do
    let (x, s) ← s.readS a.toNat
    s.writeS d.toNat 1 (f x)

/-- The sign-extended 11-bit immediate (03 R59). -/
def imm11 (i : BitVec 11) : Word := i.signExtend 64

/-- A shift amount: bits [5:0] (03 R60). -/
def sh6 (b : Word) : Nat := b.toNat % 64

/-- The high half of the signed product (03 R60). -/
def mulHigh (a b : Word) : Word := (((a.signExtend 128) * (b.signExtend 128)) >>> 64).setWidth 64

/-- The high half of the unsigned product. -/
def mulHighU (a b : Word) : Word := (((a.setWidth 128) * (b.setWidth 128)) >>> 64).setWidth 64

/-- Signed division (03 R62): by zero all ones. -/
def divS (a b : Word) : Word := if b = 0 then BitVec.allOnes 64 else BitVec.ofInt 64 (a.toInt.tdiv b.toInt)

/-- Signed remainder (03 R62): by zero the dividend. -/
def remS (a b : Word) : Word := if b = 0 then a else BitVec.ofInt 64 (a.toInt.tmod b.toInt)

/-- Unsigned division (03 R62). -/
def divU (a b : Word) : Word := if b = 0 then BitVec.allOnes 64 else BitVec.ofNat 64 (a.toNat / b.toNat)

/-- Unsigned remainder (03 R62). -/
def remU (a b : Word) : Word := if b = 0 then a else BitVec.ofNat 64 (a.toNat % b.toNat)

/-- Leading zero bits, 0 to 64 (03 R60). -/
def clz64 (a : Word) : Word := BitVec.ofNat 64 (if a = 0 then 64 else 63 - Nat.log2 a.toNat)

/-- Set bits, 0 to 64 (03 R60). -/
def popc64 (a : Word) : Word := BitVec.ofNat 64 ((List.range 64).filter fun i => a.getLsbD i).length

/-- The compare conditions (03 R64). -/
def condEq (a b : Word) : Bool := decide (a = b)
def condNe (a b : Word) : Bool := decide (a ≠ b)
def condLt (a b : Word) : Bool := decide (a.toInt < b.toInt)
def condLtu (a b : Word) : Bool := decide (a.toNat < b.toNat)
def condGe (a b : Word) : Bool := decide (b.toInt ≤ a.toInt)
def condGeu (a b : Word) : Bool := decide (b.toNat ≤ a.toNat)

/-- CMP.cond (03 R64). -/
def cmp2 (d : BitVec 3) (a b : BitVec 5) (f : Word → Word → Bool) : Meaning where
  body s := do
    let (x, s) ← s.readS a.toNat
    let (y, s) ← s.readS b.toNat
    return s.writeP d.toNat 1 (f x y)

/-- CMPI.cond (03 R64). -/
def cmpi (d : BitVec 3) (a : BitVec 5) (i : BitVec 11) (f : Word → Word → Bool) : Meaning where
  body s := do
    let (x, s) ← s.readS a.toNat
    return s.writeP d.toNat 1 (f x (imm11 i))

/-- The predicate operations (03 R65). -/
def pred2 (d : BitVec 3) (v : Core → Bool) : Meaning where
  body s := .ok (s.writeP d.toNat 1 (v s.me))

/-- A queue operand (03 R66). -/
def queueNo (a : BitVec 5) : Nat := a.toNat - 24

/-- NOP (02 R45): reads nothing, writes nothing. -/
def execNop (s : State) : Host.Outcome State Fault Refusal :=
  runSlot ⟨0, 0⟩ { body := fun s => .ok s } s

/-- ADD (03 R60). -/
def execAdd (g : Guard) (d a b : BitVec 5) (s : State) : Host.Outcome State Fault Refusal :=
  runSlot g (alu2 d a b 1 (· + ·)) s

/-- SUB (03 R60). -/
def execSub (g : Guard) (d a b : BitVec 5) (s : State) : Host.Outcome State Fault Refusal :=
  runSlot g (alu2 d a b 1 (· - ·)) s

/-- MUL (03 R60): the low 64 bits of the product, latency 3. -/
def execMul (g : Guard) (d a b : BitVec 5) (s : State) : Host.Outcome State Fault Refusal :=
  runSlot g (alu2 d a b 3 (· * ·)) s

/-- MULH (03 R60). -/
def execMulh (g : Guard) (d a b : BitVec 5) (s : State) : Host.Outcome State Fault Refusal :=
  runSlot g (alu2 d a b 3 mulHigh) s

/-- MULHU (03 R60). -/
def execMulhu (g : Guard) (d a b : BitVec 5) (s : State) : Host.Outcome State Fault Refusal :=
  runSlot g (alu2 d a b 3 mulHighU) s

/-- DIV (03 R62). -/
def execDiv (g : Guard) (d a b : BitVec 5) (s : State) : Host.Outcome State Fault Refusal :=
  runSlot g (alu2 d a b 20 divS) s

/-- DIV.U (03 R62). -/
def execDivU (g : Guard) (d a b : BitVec 5) (s : State) : Host.Outcome State Fault Refusal :=
  runSlot g (alu2 d a b 20 divU) s

/-- REM (03 R62). -/
def execRem (g : Guard) (d a b : BitVec 5) (s : State) : Host.Outcome State Fault Refusal :=
  runSlot g (alu2 d a b 20 remS) s

/-- REM.U (03 R62). -/
def execRemU (g : Guard) (d a b : BitVec 5) (s : State) : Host.Outcome State Fault Refusal :=
  runSlot g (alu2 d a b 20 remU) s

/-- AND (03 R60). -/
def execAnd (g : Guard) (d a b : BitVec 5) (s : State) : Host.Outcome State Fault Refusal :=
  runSlot g (alu2 d a b 1 (· &&& ·)) s

/-- OR (03 R60). -/
def execOr (g : Guard) (d a b : BitVec 5) (s : State) : Host.Outcome State Fault Refusal :=
  runSlot g (alu2 d a b 1 (· ||| ·)) s

/-- XOR (03 R60). -/
def execXor (g : Guard) (d a b : BitVec 5) (s : State) : Host.Outcome State Fault Refusal :=
  runSlot g (alu2 d a b 1 (· ^^^ ·)) s

/-- SHL (03 R60). -/
def execShl (g : Guard) (d a b : BitVec 5) (s : State) : Host.Outcome State Fault Refusal :=
  runSlot g (alu2 d a b 1 (fun x y => x <<< sh6 y)) s

/-- SHR (03 R60). -/
def execShr (g : Guard) (d a b : BitVec 5) (s : State) : Host.Outcome State Fault Refusal :=
  runSlot g (alu2 d a b 1 (fun x y => x >>> sh6 y)) s

/-- SAR (03 R60). -/
def execSar (g : Guard) (d a b : BitVec 5) (s : State) : Host.Outcome State Fault Refusal :=
  runSlot g (alu2 d a b 1 (fun x y => x.sshiftRight (sh6 y))) s

/-- ROTL (03 R60). -/
def execRotl (g : Guard) (d a b : BitVec 5) (s : State) : Host.Outcome State Fault Refusal :=
  runSlot g (alu2 d a b 1 (fun x y => rotl64 x (sh6 y))) s

/-- MIN (03 R60), signed. -/
def execMin (g : Guard) (d a b : BitVec 5) (s : State) : Host.Outcome State Fault Refusal :=
  runSlot g (alu2 d a b 1 (fun x y => if x.toInt ≤ y.toInt then x else y)) s

/-- MAX (03 R60), signed. -/
def execMax (g : Guard) (d a b : BitVec 5) (s : State) : Host.Outcome State Fault Refusal :=
  runSlot g (alu2 d a b 1 (fun x y => if x.toInt ≤ y.toInt then y else x)) s

/-- MINU (03 R60). -/
def execMinu (g : Guard) (d a b : BitVec 5) (s : State) : Host.Outcome State Fault Refusal :=
  runSlot g (alu2 d a b 1 (fun x y => if x.toNat ≤ y.toNat then x else y)) s

/-- MAXU (03 R60). -/
def execMaxu (g : Guard) (d a b : BitVec 5) (s : State) : Host.Outcome State Fault Refusal :=
  runSlot g (alu2 d a b 1 (fun x y => if x.toNat ≤ y.toNat then y else x)) s

/-- CLZ (03 R60). -/
def execClz (g : Guard) (d a : BitVec 5) (s : State) : Host.Outcome State Fault Refusal :=
  runSlot g (alu1 d a clz64) s

/-- POPC (03 R60). -/
def execPopc (g : Guard) (d a : BitVec 5) (s : State) : Host.Outcome State Fault Refusal :=
  runSlot g (alu1 d a popc64) s

/-- SEL (03 R61): both operands are read, the predicate chooses. -/
def execSel (g : Guard) (d a b : BitVec 5) (k : BitVec 3) (s : State) : Host.Outcome State Fault Refusal :=
  runSlot g { body := fun s => do
    let p := s.me.pred k.toNat
    let (x, s) ← s.readS a.toNat
    let (y, s) ← s.readS b.toNat
    s.writeS d.toNat 1 (if p then x else y) } s

/-- ADDI (03 R60). -/
def execAddi (g : Guard) (d a : BitVec 5) (i : BitVec 11) (s : State) : Host.Outcome State Fault Refusal :=
  runSlot g (alu1 d a (· + imm11 i)) s

/-- ANDI (03 R60). -/
def execAndi (g : Guard) (d a : BitVec 5) (i : BitVec 11) (s : State) : Host.Outcome State Fault Refusal :=
  runSlot g (alu1 d a (· &&& imm11 i)) s

/-- ORI (03 R60). -/
def execOri (g : Guard) (d a : BitVec 5) (i : BitVec 11) (s : State) : Host.Outcome State Fault Refusal :=
  runSlot g (alu1 d a (· ||| imm11 i)) s

/-- XORI (03 R60). -/
def execXori (g : Guard) (d a : BitVec 5) (i : BitVec 11) (s : State) : Host.Outcome State Fault Refusal :=
  runSlot g (alu1 d a (· ^^^ imm11 i)) s

/-- SHLI (03 R60). -/
def execShli (g : Guard) (d a : BitVec 5) (i : BitVec 6) (s : State) : Host.Outcome State Fault Refusal :=
  runSlot g (alu1 d a (· <<< i.toNat)) s

/-- SHRI (03 R60). -/
def execShri (g : Guard) (d a : BitVec 5) (i : BitVec 6) (s : State) : Host.Outcome State Fault Refusal :=
  runSlot g (alu1 d a (· >>> i.toNat)) s

/-- SARI (03 R60). -/
def execSari (g : Guard) (d a : BitVec 5) (i : BitVec 6) (s : State) : Host.Outcome State Fault Refusal :=
  runSlot g (alu1 d a (fun x => x.sshiftRight i.toNat)) s

/-- MOVI (03 R63): the sign-extended immediate. -/
def execMovi (g : Guard) (d : BitVec 5) (i : BitVec 16) (s : State) : Host.Outcome State Fault Refusal :=
  runSlot g { body := fun s => s.writeS d.toNat 1 (i.signExtend 64) } s

/-- MOVHI (03 R63): the register shifted left by 16 with the immediate below. -/
def execMovhi (g : Guard) (d : BitVec 5) (i : BitVec 16) (s : State) : Host.Outcome State Fault Refusal :=
  runSlot g { body := fun s => s.writeS d.toNat 1 ((s.me.sreg d.toNat <<< 16) ||| i.setWidth 64) } s

/-- CMP.EQ (03 R64). -/
def execCmpEq (g : Guard) (d : BitVec 3) (a b : BitVec 5) (s : State) : Host.Outcome State Fault Refusal :=
  runSlot g (cmp2 d a b condEq) s

/-- CMPI.EQ (03 R64). -/
def execCmpiEq (g : Guard) (d : BitVec 3) (a : BitVec 5) (i : BitVec 11) (s : State) : Host.Outcome State Fault Refusal :=
  runSlot g (cmpi d a i condEq) s

/-- CMP.NE (03 R64). -/
def execCmpNe (g : Guard) (d : BitVec 3) (a b : BitVec 5) (s : State) : Host.Outcome State Fault Refusal :=
  runSlot g (cmp2 d a b condNe) s

/-- CMPI.NE (03 R64). -/
def execCmpiNe (g : Guard) (d : BitVec 3) (a : BitVec 5) (i : BitVec 11) (s : State) : Host.Outcome State Fault Refusal :=
  runSlot g (cmpi d a i condNe) s

/-- CMP.LT (03 R64). -/
def execCmpLt (g : Guard) (d : BitVec 3) (a b : BitVec 5) (s : State) : Host.Outcome State Fault Refusal :=
  runSlot g (cmp2 d a b condLt) s

/-- CMPI.LT (03 R64). -/
def execCmpiLt (g : Guard) (d : BitVec 3) (a : BitVec 5) (i : BitVec 11) (s : State) : Host.Outcome State Fault Refusal :=
  runSlot g (cmpi d a i condLt) s

/-- CMP.LTU (03 R64). -/
def execCmpLtu (g : Guard) (d : BitVec 3) (a b : BitVec 5) (s : State) : Host.Outcome State Fault Refusal :=
  runSlot g (cmp2 d a b condLtu) s

/-- CMPI.LTU (03 R64). -/
def execCmpiLtu (g : Guard) (d : BitVec 3) (a : BitVec 5) (i : BitVec 11) (s : State) : Host.Outcome State Fault Refusal :=
  runSlot g (cmpi d a i condLtu) s

/-- CMP.GE (03 R64). -/
def execCmpGe (g : Guard) (d : BitVec 3) (a b : BitVec 5) (s : State) : Host.Outcome State Fault Refusal :=
  runSlot g (cmp2 d a b condGe) s

/-- CMPI.GE (03 R64). -/
def execCmpiGe (g : Guard) (d : BitVec 3) (a : BitVec 5) (i : BitVec 11) (s : State) : Host.Outcome State Fault Refusal :=
  runSlot g (cmpi d a i condGe) s

/-- CMP.GEU (03 R64). -/
def execCmpGeu (g : Guard) (d : BitVec 3) (a b : BitVec 5) (s : State) : Host.Outcome State Fault Refusal :=
  runSlot g (cmp2 d a b condGeu) s

/-- CMPI.GEU (03 R64). -/
def execCmpiGeu (g : Guard) (d : BitVec 3) (a : BitVec 5) (i : BitVec 11) (s : State) : Host.Outcome State Fault Refusal :=
  runSlot g (cmpi d a i condGeu) s

/-- PAND (03 R65). -/
def execPand (g : Guard) (d a b : BitVec 3) (s : State) : Host.Outcome State Fault Refusal :=
  runSlot g (pred2 d fun c => c.pred a.toNat && c.pred b.toNat) s

/-- POR (03 R65). -/
def execPor (g : Guard) (d a b : BitVec 3) (s : State) : Host.Outcome State Fault Refusal :=
  runSlot g (pred2 d fun c => c.pred a.toNat || c.pred b.toNat) s

/-- PXOR (03 R65). -/
def execPxor (g : Guard) (d a b : BitVec 3) (s : State) : Host.Outcome State Fault Refusal :=
  runSlot g (pred2 d fun c => c.pred a.toNat != c.pred b.toNat) s

/-- PNOT (03 R65). -/
def execPnot (g : Guard) (d a : BitVec 3) (s : State) : Host.Outcome State Fault Refusal :=
  runSlot g (pred2 d fun c => !c.pred a.toNat) s

/-- PMOV between predicates (03 R65). -/
def execPmovPp (g : Guard) (d a : BitVec 3) (s : State) : Host.Outcome State Fault Refusal :=
  runSlot g (pred2 d fun c => c.pred a.toNat) s

/-- PMOV from a scalar (03 R65): true for a nonzero value. -/
def execPmovPs (g : Guard) (d : BitVec 3) (a : BitVec 5) (s : State) : Host.Outcome State Fault Refusal :=
  runSlot g { body := fun s => do
    let (x, s) ← s.readS a.toNat
    return s.writeP d.toNat 1 (decide (x ≠ 0)) } s

/-- PMOV to a scalar (03 R65). -/
def execPmovSp (g : Guard) (d : BitVec 5) (a : BitVec 3) (s : State) : Host.Outcome State Fault Refusal :=
  runSlot g { body := fun s => s.writeS d.toNat 1 (if s.me.pred a.toNat then 1 else 0) } s

/-- QPEEK (03 R66): the head entry, not popped. (DEDUCED, log 12) -/
def execQpeek (g : Guard) (d a : BitVec 5) (s : State) : Host.Outcome State Fault Refusal :=
  runSlot g { body := fun s => do
    let r ← s.popQ (queueNo a)
    s.writeS d.toNat 1 r.1.1 } s

/-- QCNT (03 R66): the fill count, held entries and pushes in flight. (DEDUCED, log 12) -/
def execQcnt (g : Guard) (d a : BitVec 5) (s : State) : Host.Outcome State Fault Refusal :=
  runSlot g { body := fun s => s.writeS d.toNat 1 (BitVec.ofNat 64 (s.me.regs.q.getD (queueNo a) []).length) } s

/-- QCLR (03 R66): the held entries go, after all pops of the bundle. -/
def execQclr (g : Guard) (a : BitVec 5) (s : State) : Host.Outcome State Fault Refusal :=
  runSlot g { body := fun s => .ok { s with latch := { s.latch with qclr := s.latch.qclr ++ [queueNo a] } } } s

end Sys2Proof.Machine
end

