-- ==== Sys2Proof/Machine/Control.lean ====
section
/-! DEFINITION. Control transfer, loops, system access, waiting and segments (03 R68 to R83). -/

namespace Sys2Proof.Machine

/-- The change of control asked for by the bundle in hand. -/
def State.ctl (s : State) (k : Control) : State := { s with latch := { s.latch with control := k } }

/-- A bundle number relative to the bundle in hand; outside 0 to 8,191 it is out of fetch range (02 R33). -/
def bundleRange (t : Int) : Except Trap (BitVec 13) :=
  if 0 ≤ t ∧ t ≤ 8191 then .ok (BitVec.ofInt 13 t) else trapWith .fetchRange (BitVec.ofInt 64 t)

/-- A bundle number from a register (03 R68). -/
def bundleReg (v : Word) : Except Trap (BitVec 13) :=
  if v.toNat ≤ 8191 then .ok (v.setWidth 13) else trapWith .fetchRange v

/-- The link of a call: P + 3 (03 R68). -/
def State.link (s : State) : Word := BitVec.ofNat 64 (s.me.seq.pc.toNat + 3)

/-- BR (03 R68). -/
def execBr (g : Guard) (o : BitVec 21) (s : State) : Host.Outcome State Fault Refusal :=
  runSlot g { ban := banTransfer, hasDelay := true, body := fun s => do
    let t ← bundleRange (s.me.seq.pc.toNat + o.toInt)
    return s.ctl (.transfer t) } s

/-- CALL (03 R68): links in s23. -/
def execCall (g : Guard) (o : BitVec 21) (s : State) : Host.Outcome State Fault Refusal :=
  runSlot g { ban := banTransfer, hasDelay := true, body := fun s => do
    let t ← bundleRange (s.me.seq.pc.toNat + o.toInt)
    return (s.ctl (.transfer t)).addPend 1 (.scalar 23 s.link) } s

/-- RET (03 R68). -/
def execRet (g : Guard) (a : BitVec 5) (s : State) : Host.Outcome State Fault Refusal :=
  runSlot g { ban := banTransfer, hasDelay := true, body := fun s => do
    let (x, s) ← s.readS a.toNat
    let t ← bundleReg x
    return s.ctl (.transfer t) } s

/-- JMP (03 R68): links in s[d]. -/
def execJmp (g : Guard) (d a : BitVec 5) (s : State) : Host.Outcome State Fault Refusal :=
  runSlot g { ban := banTransfer, hasDelay := true, body := fun s => do
    let (x, s) ← s.readS a.toNat
    let t ← bundleReg x
    (s.ctl (.transfer t)).writeS d.toNat 1 s.link } s

/-- The placement rules of a loop instruction (03 R69, R70). -/
def banLoop (c : Core) : Bool := c.inDelay || c.rpl

/-- LOOPR's own: no replay level is live, whatever STATUS.RPL (03 R70). -/
def banLoopr (c : Core) : Bool := banLoop c || c.seq.loops.any fun l => decide (l.stages ≠ 0)

/-- The loop instructions' common effect (03 R70), the end already in range: n from its reader, `stages` 0 for an ordinary
loop. -/
def loopWith (l : BitVec 13) (stages : Nat) (read : State → Except Trap (Word × State)) : Meaning where
  ban := if stages = 0 then banLoop else banLoopr
  body s := do
    let c := s.me
    let fin ← bundleRange (c.seq.pc.toNat + 1 + l.toNat)
    let (n, s) ← read s
    if 0xFFFFFFFF < n.toNat then trapWith .loopCount n
    else if c.ldepth = 6 then trapOf .loopStackOverflow
    else if (match c.seq.loops with | i :: _ => decide (i.fin < fin) | [] => false) then trapOf .illegalInstruction
    else if n = 0 then .ok (s.ctl (.skip (fin.toNat + 1)))
    else .ok (s.ctl (.push { start := c.seq.pc + 1, fin := fin, count := n.setWidth 32, stages := stages }))

/-- LOOP (03 R70). -/
def execLoop (g : Guard) (l : BitVec 13) (c : BitVec 5) (s : State) : Host.Outcome State Fault Refusal :=
  runSlot g (loopWith l 0 fun s => s.readS c.toNat) s

/-- LOOPI (03 R70). -/
def execLoopi (g : Guard) (l : BitVec 13) (c : BitVec 8) (s : State) : Host.Outcome State Fault Refusal :=
  runSlot g (loopWith l 0 fun s => .ok (c.setWidth 64, s)) s

/-- LOOPR (03 R70, 04 R92): S = s + 1 stages. -/
def execLoopr (g : Guard) (l : BitVec 13) (st : BitVec 3) (c : BitVec 5) (s : State) : Host.Outcome State Fault Refusal :=
  runSlot g (loopWith l (st.toNat + 1) fun s => s.readS c.toNat) s

/-- LBRK n + 1 (03 R71). (DEDUCED, log 13) -/
def execLbrk (g : Guard) (n : BitVec 3) (s : State) : Host.Outcome State Fault Refusal :=
  runSlot g { ban := fun c => c.inDelay || c.rpl, body := fun s => do
    if s.me.ldepth < n.toNat + 1 then trapWith .loopStackUnderflow (BitVec.ofNat 64 (n.toNat + 1))
    else .ok (s.ctl (.lbrk (n.toNat + 1))) } s

/-- The index of a live level counted from the innermost (03 R72). (DEDUCED, log 13) -/
def lidx (d : BitVec 5) (n : Nat) (pick : List Loop → Nat → Option Loop) : Meaning where
  body s :=
    match pick s.me.seq.loops n with
    | some l => s.writeS d.toNat 1 (l.index.setWidth 64)
    | none => trapWith .loopStackUnderflow (BitVec.ofNat 64 (n + 1))

/-- LIDX (03 R72): levels counted from the outermost. -/
def execLidx (g : Guard) (d : BitVec 5) (l : BitVec 3) (s : State) : Host.Outcome State Fault Refusal :=
  runSlot g (lidx d l.toNat fun ls n => ls.reverse[n]?) s

/-- LIDX.IN (03 R72): levels counted from the innermost. -/
def execLidxIn (g : Guard) (d : BitVec 5) (l : BitVec 3) (s : State) : Host.Outcome State Fault Refusal :=
  runSlot g (lidx d l.toNat fun ls n => ls[n]?) s

/-- A delta-table image that DTLD accepts (03 R73); its TGT is checked whatever its LVL. (DEDUCED, log 13) -/
def deltaOk (v : Word) : Bool :=
  let tgt := (v >>> 40).toNat % 256
  (v >>> 48) = 0 && (v >>> 35).toNat % 32 = 0 && (v >>> 32).toNat % 8 ≠ 6 &&
    (if tgt < 128 then decide (tgt < 24) else decide (tgt % 8 < 6))

/-- DTLD (03 R73). -/
def execDtld (g : Guard) (d : BitVec 5) (e : BitVec 6) (s : State) : Host.Outcome State Fault Refusal :=
  runSlot g { ban := Core.rpl, body := fun s => do
    let (v, s) ← s.readS d.toNat
    if deltaOk v then return s.addPend 1 (.delta e.toNat v) else trapWith .reservedField v } s

/-! ### System registers (03 R74) -/

/-- The register of a number (01 R22). -/
def sysOf (r : BitVec 10) : Option SysReg :=
  match r.toNat with
  | 0 => some .status | 1 => some .cause | 2 => some .epc | 3 => some .tval | 4 => some .tvec | 5 => some .cycle
  | 6 => some .coreid | 7 => some .role | 8 => some .syncwin | 9 => some .fpstat | 10 => some .accstat | 11 => some .srkey
  | 12 => some .hostord | 13 => some .sparebudget
  | n => if 16 ≤ n ∧ n < 32 then some (.bankfmt (Fin.ofNat 16 (n - 16))) else none

/-- User mode may read it (01 R22). -/
def SysReg.userRead : SysReg → Bool
  | .cause | .epc | .tvec | .hostord | .sparebudget => false
  | _ => true

/-- A mode may write it (01 R22). -/
def SysReg.writable (r : SysReg) (system : Bool) : Bool :=
  match r with
  | .cycle | .coreid | .sparebudget => false
  | .fpstat | .accstat | .bankfmt _ => true
  | _ => system

/-- SPAREBUDGET of a die (22 R396), saturated at the fields' maxima. -/
def State.spareBudget (s : State) (d : Fin 4) : Word :=
  (List.range 3).foldl (fun v n =>
    let h := s.hbmStacks.getD (3 * d.val + n) {}
    v ||| (BitVec.ofNat 64 (min h.rows 4095 + min h.banks 15 * 2 ^ 12 + min h.lanes 15 * 2 ^ 16) <<< (20 * n))) 0

/-- ACCSTAT.LEASE (08 R164, R176): the core, or its gang, holds a live lease. -/
def State.leaseLive (s : State) (c : Fin 256) : Bool :=
  match s.faces[clusterOf c].lease with
  | some l => !l.expired && l.mask.getLsbD (c.val % 4)
  | none => false

/-- A system register as SYSR reads it. -/
def State.sysRead (s : State) (c : Fin 256) (r : SysReg) : Word :=
  let k := s.core c
  match r with
  | .status => k.status
  | .cause => k.sys.cause
  | .epc => k.sys.epc
  | .tval => k.sys.tval
  | .tvec => k.sys.tvec
  | .cycle => s.cycle
  | .coreid => BitVec.ofNat 64 c.val
  | .role => k.sys.role
  | .syncwin => k.sys.syncwin
  | .fpstat => k.sys.fpstat
  | .accstat => k.sys.accstat ||| (if s.leaseLive c then 0x80 else 0)
  | .srkey => k.sys.srkey
  | .hostord => k.sys.hostord
  | .sparebudget => s.spareBudget (dieOf c)
  | .bankfmt b => k.sys.bankfmt[b]

/-- The RW bits of a register. -/
def SysReg.rw : SysReg → Word
  | .status => 0x3
  | .cause => 0x0FFFFFFFFFFFFFFF
  | .epc => 0x7FFF7FFFFF
  | .tval => BitVec.allOnes 64
  | .tvec => 0x3FFF
  | .role => 0x03FFFC0FFFFFFFFF
  | .syncwin => 0xFFFFFFFFFF
  | .fpstat => 0xF800
  | .srkey => BitVec.allOnes 64
  | .hostord => 1
  | .bankfmt _ => 0xFFFFFFFFFF
  | _ => 0

/-- The W1C bits of a register. -/
def SysReg.w1c : SysReg → Word
  | .status => 0x80
  | .fpstat => 0x7F
  | .accstat => 0x7F
  | _ => 0

/-- The reserved bits of a register. -/
def SysReg.reserved : SysReg → Word
  | .status => ~~~0xFF
  | .cause => 0xF000000000000000
  | .epc => ~~~0x7FFFFFFFFF
  | .tvec => ~~~0x3FFF
  | .role => 0xFC00000000000000
  | .syncwin => ~~~0xFFFFFFFFFF
  | .fpstat => ~~~0xF87F
  | .accstat => ~~~0xFF
  | .hostord => ~~~1
  | .bankfmt _ => ~~~0xFFFFFFFFFF
  | _ => 0

/-- A tag is valid (06 R117). -/
def tagOk (code id : Nat) : Bool := (code = 0 && id = 0) || (1 ≤ code && code ≤ 4 && id ≠ 0)

/-- A BANKFMT image beyond its reserved bits (01 R29). -/
def bankFmtOk (v : Word) : Bool :=
  let fmt := v.toNat % 256
  let aux := (v >>> 8).toNat % 8
  fmt = 0 || (fmtLegal fmt aux && tagOk ((v >>> 11).toNat % 8) ((v >>> 14).toNat % 65536))

/-- What the register refuses of a new value (01 R24, R29, 05 R111, 10 R208, 21 R366). -/
def sysRefuses (c : Core) (r : SysReg) (v : Word) : Bool :=
  (v &&& r.reserved) ≠ 0 ||
  (match r with
   | .fpstat => decide (4 < (v >>> 12).toNat % 8)
   | .syncwin => decide (4096 < (v >>> 8).toNat % 4096 + v.toNat % 256 ∨ 1024 < (v >>> 28).toNat % 1024 + (v >>> 20).toNat % 256)
   | .bankfmt _ => !bankFmtOk v
   | .epc =>
     let depth := epcField v 13 3
     let keep := c.seq.snap.loops.drop (c.seq.snap.loops.length - depth)
     decide (c.seq.snap.loops.length < depth) || decide (epcField v 17 2 ≠ epcField c.sys.epc 17 2) ||
       (epcField v 16 1 = 1 && !(keep.any fun l => decide (l.stages ≠ 0)))
   | _ => false)

/-- A writing form of 03 R74: the new value of the RW fields and the W1C bits cleared. The register number is checked ahead of the source queue.
(DESIGN CHOICE, log 43) -/
def sysWrite (d : BitVec 5) (r : BitVec 10) (rwNew : Word → Word → Word) (clears : Word → Word) : Meaning where
  denied c := match sysOf r with | some x => !x.writable c.sys.mode | none => false
  endsRegion := true
  body s :=
    match sysOf r with
    | none => trapWith .unassignedRegister (r.setWidth 64)
    | some x => do
      let (v, s) ← s.readS d.toNat
      let old := s.sysRead s.cur x
      let new := rwNew old v
      if sysRefuses s.me x new then trapOf .reservedField
      else return s.addPend 1 (.sys x (new &&& x.rw) (x.rw ||| (clears v &&& x.w1c)))

/-- SYSR (03 R74); the register number is checked ahead of the destination queue. (DESIGN CHOICE, log 43) -/
def execSysr (g : Guard) (d : BitVec 5) (r : BitVec 10) (s : State) : Host.Outcome State Fault Refusal :=
  runSlot g { denied := fun c => match sysOf r with | some x => !c.sys.mode && !x.userRead | none => false
              body := fun s => match sysOf r with
                | some x => s.writeS d.toNat 1 (s.sysRead s.cur x)
                | none => trapWith .unassignedRegister (r.setWidth 64) } s

/-- SYSW (03 R74). -/
def execSysw (g : Guard) (d : BitVec 5) (r : BitVec 10) (s : State) : Host.Outcome State Fault Refusal :=
  runSlot g (sysWrite d r (fun _ v => v) (fun v => v)) s

/-- SYSS (03 R74). -/
def execSyss (g : Guard) (d : BitVec 5) (r : BitVec 10) (s : State) : Host.Outcome State Fault Refusal :=
  runSlot g (sysWrite d r (fun o v => o ||| v) (fun v => v)) s

/-- SYSC (03 R74). -/
def execSysc (g : Guard) (d : BitVec 5) (r : BitVec 10) (s : State) : Host.Outcome State Fault Refusal :=
  runSlot g (sysWrite d r (fun o v => o &&& ~~~v) (fun _ => 0)) s

/-- TRAP n (03 R75): the software trap after the bundle. -/
def execTrap (g : Guard) (n : BitVec 15) (s : State) : Host.Outcome State Fault Refusal :=
  runSlot g { ban := Core.inDelay, endsRegion := true, body := fun s => .ok (s.ctl (.softTrap n)) } s

/-- TRAP.SYS n (03 R75): a service request to the Winder, once pending writes have completed. -/
def execTrapSys (g : Guard) (n : BitVec 15) (s : State) : Host.Outcome State Fault Refusal :=
  runSlot g { ban := Core.inDelay, denied := fun c => !c.sys.mode, endsRegion := true,
              body := fun s => .ok (s.ctl (.service n)) } s

/-- ERET (03 R76, 21 R370). -/
def execEret (g : Guard) (s : State) : Host.Outcome State Fault Refusal :=
  runSlot g { ban := fun c => c.inDelay || c.atEnd, denied := fun c => !c.sys.mode, waits := fun s => !s.me.settled,
              body := fun s => if s.me.live then .ok (s.ctl .eret) else trapOf .illegalInstruction } s

/-- HALT (03 R77). (DEDUCED, log 13) -/
def execHalt (g : Guard) (s : State) : Host.Outcome State Fault Refusal :=
  runSlot g { ban := Core.inDelay, endsRegion := true, body := fun s => .ok (s.ctl (.halt 0 0)) } s

/-- HALT.ABORT (03 R77). -/
def execHaltAbort (g : Guard) (a : BitVec 5) (s : State) : Host.Outcome State Fault Refusal :=
  runSlot g { ban := Core.inDelay, denied := fun c => !c.sys.mode, endsRegion := true, body := fun s => do
    let (x, s) ← s.readS a.toNat
    return s.ctl (.halt 1 (x &&& 0xFFFF)) } s

/-! ### Waiting and time -/

/-- All commands of a queue, the faulted one included (14 R284, 21 R371). -/
def Eng.all (e : Eng) (q : Nat) : List Cmd := (e.fault.getD q none).toList ++ e.queues.getD q []

/-- The outstanding counters load, store, copy, tile (14 R284). -/
def Eng.counter (e : Eng) (n : Nat) : Nat :=
  let every := e.all 0 ++ e.all 1 ++ e.all 2
  match n with
  | 0 => (e.all 0).length
  | 1 => (e.all 2).length
  | 2 => (every.filter fun c => decide (0x48 ≤ c.op.toNat ∧ c.op.toNat ≤ 0x4B)).length
  | _ => (every.filter fun c => decide (0x42 ≤ c.op.toNat ∧ c.op.toNat ≤ 0x46)).length

/-- A counter is at or below its bound; 15 places no condition (03 R79). -/
def Eng.within (e : Eng) (n : Nat) (bound : BitVec 4) : Bool := bound = 15 || decide (e.counter n ≤ bound.toNat)

/-- WAITC (03 R79). -/
def execWaitc (g : Guard) (l st c t : BitVec 4) (s : State) : Host.Outcome State Fault Refusal :=
  runSlot g { honour := true
              waits := fun s => let e := s.me.eng; !(e.within 0 l && e.within 1 st && e.within 2 c && e.within 3 t)
              body := fun s => .ok (if l = 0 || st = 0 || c = 0 || t = 0 then s.setMe s.me.seesEngines else s) } s

/-- SLEEP (03 R80, 14 R288); a promise that has passed wakes it in the next cycle. -/
def execSleep (g : Guard) (a : BitVec 5) (s : State) : Host.Outcome State Fault Refusal :=
  runSlot g { body := fun s => do
    if a.toNat = 31 then
      let r ← s.popQ 7
      let w := if r.1.2.isSome && s.past r.1.1 then s.cycle + 1 else r.1.1
      return r.2.ctl (.sleep w r.1.2)
    else
      let (x, s) ← s.readS a.toNat
      return s.ctl (.sleep x none) } s

/-- CYC (03 R78). -/
def execCyc (g : Guard) (d : BitVec 5) (s : State) : Host.Outcome State Fault Refusal :=
  runSlot g { body := fun s => s.writeS d.toNat 1 s.cycle } s

/-! ### Segments (03 R81 to R83) -/

/-- The image of the running record's launch. -/
def State.image (s : State) (c : Core) : List Byte :=
  match c.run.bind fun r => Table.get s.launches r.launch with
  | some l => l.image
  | none => []

/-- A segment-table entry (02 R57): image offset, length in bundles, target half, CRC. -/
def segEntry (image : List Byte) (n : Nat) : Nat × Nat × Nat × Nat :=
  let o := hdr image 0x1C 4 + 16 * n
  (hdr image o 4, hdr image (o + 4) 2, hdr image (o + 6) 1, hdr image (o + 8) 4)

/-- The half of a bundle number (01 R6). -/
def halfOf (pc : Nat) : Nat := pc / 4096

/-- A segment copy is in progress. -/
def Core.copying (c : Core) : Bool := c.sto.seg.copy.isSome

/-- ISYNC (03 R82). -/
def execIsync (g : Guard) (d : BitVec 5) (s : State) : Host.Outcome State Fault Refusal :=
  runSlot g { waits := fun s => s.me.copying, body := fun s => s.writeS d.toNat 1 s.me.sto.seg.status } s

/-- SEGMARK (03 R81, 14 R298). -/
def execSegmark (g : Guard) (a : BitVec 5) (s : State) : Host.Outcome State Fault Refusal :=
  runSlot g { ban := Core.rpl, endsRegion := true, waits := fun s => s.me.copying, body := fun s => do
    let (x, s) ← s.readS a.toNat
    let img := s.image s.me
    if hdr img 0x13 1 ≤ x.toNat then .error { cause := .segment, sub := 0, tval := x }
    else
      let (_, len, half, _) := segEntry img x.toNat
      if half = halfOf s.me.seq.pc.toNat then .error { cause := .segment, sub := 1, tval := x }
      else
        let c := s.me
        return s.setMe { c with sto := { c.sto with seg := { c.sto.seg with
          status := x &&& 0xFF
          copy := some (x.toNat, half, s.later s.cur.val (400 + (32 * len + 255) / 256)) } } } } s

/-- A scalar operand's value without popping it. -/
def Core.peekS (c : Core) (code : Nat) : Word :=
  if code < 24 then c.sreg code
  else match c.regs.q.getD (code - 24) [] with
    | e :: _ => e.val.getD 0
    | [] => 0

/-- BSWAP (03 R83): the wait for a copy into the target's half comes before the operand checks, an empty queue's head counting as 0.
(DESIGN CHOICE, log 13) -/
def execBswap (g : Guard) (a : BitVec 5) (s : State) : Host.Outcome State Fault Refusal :=
  runSlot g { ban := banTransfer, hasDelay := true
              waits := fun s => match s.me.sto.seg.copy with
                | some (_, half, _) => decide (half = halfOf (s.me.peekS a.toNat).toNat)
                | none => false
              body := fun s => do
    let (x, s) ← s.readS a.toNat
    let t ← bundleReg x
    let h := halfOf t.toNat
    if h = halfOf s.me.seq.pc.toNat then .error { cause := .segment, sub := 1, tval := x }
    else if (if h = 0 then s.me.sto.seg.crcErr.1 else s.me.sto.seg.crcErr.2) then .error { cause := .segment, sub := 2, tval := x }
    else return s.ctl (.transfer t) } s

end Sys2Proof.Machine
end

