-- ==== Sys2Proof/Machine/Vector.lean ====
section
/-! DEFINITION. The vector class (07 R130 to R152) on registers shaped by VSHAPE (04 R84 to R88). -/

namespace Sys2Proof.Machine

/-! ### Shape, elements, masks and tags -/

/-- ROWS, COLS and the element width of VSHAPE (04 R84). -/
def Core.rows (c : Core) : Nat := c.vec.vshape.toNat % 128
def Core.cols (c : Core) : Nat := (c.vec.vshape >>> 7).toNat % 32768
def Core.ew (c : Core) : Nat := 4 * 2 ^ ((c.vec.vshape >>> 22).toNat % 4)

/-- Elements in use. -/
def Core.elems (c : Core) : Nat := c.rows * c.cols

/-- The passes of an instruction over n bits (04 R86). -/
def passes (bits : Nat) : Nat := (bits + 4095) / 4096

/-- The passes over the bits in use. -/
def Core.passes (c : Core) : Nat := Machine.passes (c.elems * c.ew)

/-- A vector register. -/
def Core.vreg (c : Core) (r : BitVec 4) : VReg := c.vec.v.getD r.toNat {}

/-- The first n elements of width w of a register's bits (04 R85). -/
def elemsOf (bits : BitVec 65536) (w n : Nat) : List Nat := (List.range n).map fun e => bits.toNat / 2 ^ (e * w) % 2 ^ w

/-- Bit e of a mask register; k0 reads as ones (04 R88). -/
def Core.kbit (c : Core) (k : BitVec 3) (e : Nat) : Bool := if k = 0 then true else (c.vec.k.getD k.toNat 0).getLsbD e

/-- The bit mask and the bits of the elements that are written. -/
def packVals (w : Nat) (l : List (Option Nat)) : Nat × Nat :=
  l.foldr (fun x acc => match x with
    | some v => (acc.1 * 2 ^ w + (2 ^ w - 1), acc.2 * 2 ^ w + v % 2 ^ w)
    | none => (acc.1 * 2 ^ w, acc.2 * 2 ^ w)) (0, 0)

/-- Elements written to a vector register after l cycles, with its new tag. -/
def State.writeVec (s : State) (r : BitVec 4) (l w : Nat) (vals : List (Option Nat)) (tag : Tag) : State :=
  let p := packVals w vals
  s.addPend l (.vec r.toNat (BitVec.ofNat 65536 p.1) (BitVec.ofNat 65536 p.2) tag)

/-- Mask bits written to a mask register. -/
def State.writeK (s : State) (r : BitVec 3) (l : Nat) (vals : List (Option Bool)) : State :=
  let p := packVals 1 (vals.map fun o => o.map fun b => if b then 1 else 0)
  s.addPend l (.kmask r.toNat (BitVec.ofNat 16384 p.1) (BitVec.ofNat 16384 p.2))

/-- Only the masked elements are kept. -/
def Core.masked {α : Type} (c : Core) (k : BitVec 3) (vals : List α) : List (Option α) :=
  vals.zipIdx.map fun (v, e) => if c.kbit k e then some v else none

/-- The unit of the slot in hand occupied for n cycles. -/
def State.occupy (s : State) (n : Nat) : State :=
  let c := s.me
  s.setMe { c with seq := { c.seq with unitBusy := vset c.seq.unitBusy s.latch.slot (c.seq.rn + n) } }

/-- TVAL of a tag mismatch (06 R129). (DEDUCED, log 15) -/
def tagTval (site : Nat) (x y : Tag) : Word :=
  BitVec.ofNat 64 (site * 2 ^ 38 + x.code.toNat * 2 ^ 35 + x.id.toNat * 2 ^ 19 + y.code.toNat * 2 ^ 16 + y.id.toNat)

/-- A tag-mismatch trap. -/
def tagTrap {α : Type} (site : Nat) (x y : Tag) : Except Trap α := trapWith .tagMismatch (tagTval site x y)

/-- A tag is unrotated. -/
def Tag.none? (t : Tag) : Bool := t.code = 0 && t.id = 0

/-- Tag-carrying operands (06 R128): all equal; their common tag, or tag 0 for none. -/
def carryTags : List Tag → Except Trap Tag
  | [] => .ok {}
  | t :: r => match r.find? fun x => x ≠ t with
    | some x => tagTrap 0 x t
    | none => .ok t

/-- Unrotated-only operands (06 R128). -/
def plainTags (l : List Tag) : Except Trap Unit :=
  match l.find? fun x => !x.none? with
  | some x => tagTrap 1 x {}
  | none => .ok ()

/-- A type's width must be VSHAPE's (07 R131). -/
def State.needWidth (s : State) (w : Nat) : Except Trap Unit :=
  if w = s.me.ew then .ok () else trapWith .vectorShape s.me.vec.vshape

/-- The second source of an element instruction: a register, or a scalar at every position (07 R132). -/
inductive VSrc where
  | reg (b : BitVec 4)
  | scalar (x : BitVec 5)

/-- The elements and tags of a second source. -/
def State.vsrc (s : State) (b : VSrc) (w n : Nat) : Except Trap (List Nat × List Tag × State) :=
  match b with
  | .reg r => .ok (elemsOf (s.me.vreg r).bits w n, [(s.me.vreg r).tag], s)
  | .scalar x => do
    let (v, s) ← s.readS x.toNat
    return (List.replicate n (v.toNat % 2 ^ w), [], s)

/-- The rounding of element e: FPSTAT's, or SR when asked; S as given. -/
def State.rndFor (s : State) (sr sat : Bool) : Nat → Rnd :=
  let c := s.me
  let base := s.srBase
  let rm : BitVec 3 := if sr then 4 else (c.sys.fpstat >>> 12).setWidth 3
  fun e => ⟨rm, sat, if rm = 4 then srword base e else 0⟩

/-- Flags of a vector result raised with it, and the first NP event placed (05 R112, R114). -/
def State.raiseVec (s : State) (l : Nat) (fl : List Flags) (cols : Nat) : State :=
  s.raise l (orFlags fl) (firstNp fl cols (BitVec.ofNat 4 (s.latch.slot - 2)) s.me.seq.pc s.latch.slot)

/-! ### Element functions -/

/-- The four arithmetic operations (07 R136, R137). -/
inductive VOp where
  | add | sub | mul | fma
  deriving DecidableEq

/-- On exact integers. -/
def VOp.int (o : VOp) (a b c : Int) : Int :=
  match o with | .add => a + b | .sub => a - b | .mul => a * b | .fma => a * b + c

/-- The exact float result, with the flags that it raises before rounding (05 R108, R109, 07 R137). -/
def VOp.flt (o : VOp) (a b c : Num) (rdn : Bool) : Num × Flags :=
  let inv : Num × Flags := (.canon, Fl.nv ||| Fl.np)
  let sum (x y : Num) : Num × Flags :=
    if x.isNan || y.isNan then (pickNan [x, y], sigFlags [x, y])
    else if x.isInf && y.isInf && x.neg? != y.neg? then inv else (x.add y rdn, 0)
  match o with
  | .add => sum a b
  | .sub => if b.isNan then (pickNan [a, b], sigFlags [a, b]) else sum a b.negate
  | .mul =>
    if a.isNan || b.isNan then (pickNan [a, b], sigFlags [a, b])
    else if (a.isZero && b.isInf) || (a.isInf && b.isZero) then inv else (a.mul b, 0)
  | .fma =>
    if a.isNan || b.isNan then (pickNan [a, b, c], sigFlags [a, b, c])
    else if (a.isZero && b.isInf) || (a.isInf && b.isZero) then
      (if c.isNan then (c.quiet, Fl.nv) else inv)
    else if c.isNan then (c.quiet, sigFlags [c])
    else
      let p := a.mul b
      if p.isInf && c.isInf && p.neg? != c.neg? then inv else (p.add c rdn, 0)

/-- One element of an arithmetic instruction. -/
def arithElem (el : Elem) (o : VOp) (sat : Bool) (r : Rnd) (a b c : Nat) : Nat × Flags :=
  match el with
  | .int w sg =>
    let x := o.int (bitsInt w sg a) (bitsInt w sg b) (bitsInt w sg c)
    if sat then
      let y := clampInt x (intLo w sg) (intHi w sg)
      (intBits w y, if y = x then 0 else Fl.sat)
    else (intBits w x, 0)
  | .flt f =>
    let (x, fl) := o.flt (f.decode a) (f.decode b) (f.decode c) (r.rm = 2)
    let (y, fl') := f.encode x r
    (y, fl ||| fl')

/-- a < b with -0 below +0 (07 R138, R145). -/
def Num.ltz (a b : Num) : Bool :=
  match a, b with
  | .zero x, .zero y => x && !y
  | _, _ => a.cmp b = .lt

/-- The smaller (or larger) of two elements (07 R138). -/
def minMaxElem (el : Elem) (max : Bool) (a b : Nat) : Nat × Flags :=
  match el with
  | .int w sg =>
    let lt := decide (bitsInt w sg b < bitsInt w sg a)
    (if lt != max then b else a, 0)
  | .flt f =>
    let x := f.decode a
    let y := f.decode b
    if x.isNan || y.isNan then ((f.encode (pickNan [x, y]) .rne).1, sigFlags [x, y])
    else if max then (if x.ltz y then b else a, 0) else (if y.ltz x then b else a, 0)

/-- VABS and VNEG of one element (07 R138). -/
def absNegElem (el : Elem) (neg sat : Bool) (a : Nat) : Nat × Flags :=
  match el with
  | .flt f =>
    if f.ieee then (if neg then (a + f.signBit) % 2 ^ f.w else a % f.signBit, 0)
    else if a = 0 ∨ a = 0x80 then (a, 0) else (if neg then (a + 128) % 256 else a % 128, 0)
  | .int w sg =>
    let x := bitsInt w sg a
    let y := if neg then -x else (if sg then (x.natAbs : Int) else x)
    if sat then
      let z := clampInt y (intLo w sg) (intHi w sg)
      (intBits w z, if z = y then 0 else Fl.sat)
    else (intBits w y, 0)

/-- The logic and shift operations (07 R139). -/
inductive VLogic where
  | and | or | xor | shl | shr | sar
  deriving DecidableEq

def VLogic.elem (o : VLogic) (w a n : Nat) : Nat :=
  match o with
  | .and => a &&& n
  | .or => a ||| n
  | .xor => a ^^^ n
  | .shl => if w ≤ n then 0 else a * 2 ^ n % 2 ^ w
  | .shr => if w ≤ n then 0 else a / 2 ^ n
  | .sar => intBits w (bitsInt w true a / (2 ^ min n w : Nat))

/-- The compare conditions (07 R140). -/
inductive VCond where
  | eq | ne | lt | ltu | ge | geu
  deriving DecidableEq

def VCond.elem (o : VCond) (el : Elem) (a b : Nat) : Bool × Flags :=
  match el with
  | .int w sg =>
    let x := bitsInt w sg a
    let y := bitsInt w sg b
    (match o with
     | .eq => decide (a = b) | .ne => decide (a ≠ b) | .lt => decide (x < y) | .ge => decide (y ≤ x)
     | .ltu => decide (a < b) | .geu => decide (b ≤ a), 0)
  | .flt f =>
    let x := f.decode a
    let y := f.decode b
    if x.isNan || y.isNan then
      let any := decide (o = .lt ∨ o = .ge)
      (decide (o = .ne ∨ o = .ltu ∨ o = .geu), if any then Fl.nv else sigFlags [x, y])
    else
      let c := x.cmp y
      (match o with
       | .eq => c = .eq | .ne => c ≠ .eq | .lt => c = .lt | .ltu => c = .lt | .ge => c ≠ .lt | .geu => c ≠ .lt, 0)

/-- An element instruction of three operands: type check, tags, elements, flags, latency 2 + P (07 R134 to R141); the type's width is checked ahead of
a queue operand. (DESIGN CHOICE, log 43) -/
def vecElem (v a : BitVec 4) (b : VSrc) (t k : Nat) (carry readD : Bool)
    (f : Elem → (Nat → Rnd) → Nat → Nat → Nat → Nat → Nat × Flags) (sr sat : Bool) : Meaning where
  body s := do
    let c := s.me
    let el := tyElem t
    let w := el.width
    s.needWidth w
    let n := c.elems
    let (bs, bt, s) ← s.vsrc b w n
    let kr := BitVec.ofNat 3 k
    let dt := if readD || kr ≠ 0 then [(c.vreg v).tag] else []
    let tag ← if carry then carryTags ((c.vreg a).tag :: bt ++ dt) else (plainTags ((c.vreg a).tag :: bt ++ dt)).map fun _ => {}
    let r := s.rndFor sr sat
    let as := elemsOf (c.vreg a).bits w n
    let ds := elemsOf (c.vreg v).bits w n
    let out := (as.zip (bs.zip ds)).zipIdx.map fun (x, e) => f el r e x.1 x.2.1 x.2.2
    let fl := out.zipIdx.map fun (x, e) => if c.kbit kr e then x.2 else 0
    let l := 2 + c.passes
    return ((s.occupy c.passes).writeVec v l w (c.masked kr (out.map Prod.fst)) tag).raiseVec l fl c.cols

/-- VADD, VSUB, VMUL, VFMA. -/
def vecArith (o : VOp) (v a : BitVec 4) (b : VSrc) (t k : Nat) (sr sat : Bool) : Meaning :=
  vecElem v a b t k true (o = .fma) (fun el r e x y z => arithElem el o sat (r e) x y z) sr sat

/-- VMIN and VMAX. -/
def vecMinMax (max : Bool) (v a : BitVec 4) (b : VSrc) (t k : Nat) : Meaning :=
  vecElem v a b t k false false (fun el _ _ x y _ => minMaxElem el max x y) false false

/-- VAND to VSAR. -/
def vecLogic (o : VLogic) (v a : BitVec 4) (b : VSrc) (t k : Nat) : Meaning :=
  vecElem v a b t k true false (fun el _ _ x y _ => (o.elem el.width x y, 0)) false false

/-- VCMP.cond (07 R140): its result is a mask, so only va and vb carry tags. -/
def vecCmp (o : VCond) (d : BitVec 3) (a : BitVec 4) (b : VSrc) (t k : Nat) : Meaning where
  body s := do
    let c := s.me
    let el := tyElem t
    s.needWidth el.width
    let (bs, bt, s) ← s.vsrc b el.width c.elems
    plainTags ((c.vreg a).tag :: bt)
    let kr := BitVec.ofNat 3 k
    let out := ((elemsOf (c.vreg a).bits el.width c.elems).zip bs).map fun (x, y) => o.elem el x y
    let fl := out.zipIdx.map fun (x, e) => if c.kbit kr e then x.2 else 0
    let l := 2 + c.passes
    return ((s.occupy c.passes).writeK d l (c.masked kr (out.map Prod.fst))).raiseVec l fl c.cols

/-- VADD (07 R136, R137). -/
def execVadd (g : Guard) (v a b t : BitVec 4) (k : BitVec 3) (f : BitVec 2) (s : State) : Host.Outcome State Fault Refusal :=
  runSlot g (vecArith .add v a (.reg b) t.toNat k.toNat (f.getLsbD 1) (f.getLsbD 0)) s

/-- VADD with a scalar (07 R132). -/
def execVaddScalar (g : Guard) (v a : BitVec 4) (x : BitVec 5) (t : BitVec 4) (k : BitVec 3) (f : BitVec 1) (s : State) : Host.Outcome State Fault Refusal :=
  runSlot g (vecArith .add v a (.scalar x) t.toNat k.toNat false (f = 1)) s

/-- VSUB (07 R136, R137). -/
def execVsub (g : Guard) (v a b t : BitVec 4) (k : BitVec 3) (f : BitVec 2) (s : State) : Host.Outcome State Fault Refusal :=
  runSlot g (vecArith .sub v a (.reg b) t.toNat k.toNat (f.getLsbD 1) (f.getLsbD 0)) s

/-- VSUB with a scalar (07 R132). -/
def execVsubScalar (g : Guard) (v a : BitVec 4) (x : BitVec 5) (t : BitVec 4) (k : BitVec 3) (f : BitVec 1) (s : State) : Host.Outcome State Fault Refusal :=
  runSlot g (vecArith .sub v a (.scalar x) t.toNat k.toNat false (f = 1)) s

/-- VMUL (07 R136, R137). -/
def execVmul (g : Guard) (v a b t : BitVec 4) (k : BitVec 3) (f : BitVec 2) (s : State) : Host.Outcome State Fault Refusal :=
  runSlot g (vecArith .mul v a (.reg b) t.toNat k.toNat (f.getLsbD 1) (f.getLsbD 0)) s

/-- VMUL with a scalar (07 R132). -/
def execVmulScalar (g : Guard) (v a : BitVec 4) (x : BitVec 5) (t : BitVec 4) (k : BitVec 3) (f : BitVec 1) (s : State) : Host.Outcome State Fault Refusal :=
  runSlot g (vecArith .mul v a (.scalar x) t.toNat k.toNat false (f = 1)) s

/-- VFMA (07 R136, R137). -/
def execVfma (g : Guard) (v a b t : BitVec 4) (k : BitVec 3) (f : BitVec 2) (s : State) : Host.Outcome State Fault Refusal :=
  runSlot g (vecArith .fma v a (.reg b) t.toNat k.toNat (f.getLsbD 1) (f.getLsbD 0)) s

/-- VFMA with a scalar (07 R132). -/
def execVfmaScalar (g : Guard) (v a : BitVec 4) (x : BitVec 5) (t : BitVec 4) (k : BitVec 3) (f : BitVec 1) (s : State) : Host.Outcome State Fault Refusal :=
  runSlot g (vecArith .fma v a (.scalar x) t.toNat k.toNat false (f = 1)) s

/-- VMIN (07 R138). -/
def execVmin (g : Guard) (v a b t : BitVec 4) (k : BitVec 3) (s : State) : Host.Outcome State Fault Refusal :=
  runSlot g (vecMinMax false v a (.reg b) t.toNat k.toNat) s

/-- VMIN with a scalar (07 R132). -/
def execVminScalar (g : Guard) (v a : BitVec 4) (x : BitVec 5) (t : BitVec 4) (k : BitVec 3) (s : State) : Host.Outcome State Fault Refusal :=
  runSlot g (vecMinMax false v a (.scalar x) t.toNat k.toNat) s

/-- VMAX (07 R138). -/
def execVmax (g : Guard) (v a b t : BitVec 4) (k : BitVec 3) (s : State) : Host.Outcome State Fault Refusal :=
  runSlot g (vecMinMax true v a (.reg b) t.toNat k.toNat) s

/-- VMAX with a scalar (07 R132). -/
def execVmaxScalar (g : Guard) (v a : BitVec 4) (x : BitVec 5) (t : BitVec 4) (k : BitVec 3) (s : State) : Host.Outcome State Fault Refusal :=
  runSlot g (vecMinMax true v a (.scalar x) t.toNat k.toNat) s

/-- VAND (07 R139). -/
def execVand (g : Guard) (v a b t : BitVec 4) (k : BitVec 3) (s : State) : Host.Outcome State Fault Refusal :=
  runSlot g (vecLogic .and v a (.reg b) t.toNat k.toNat) s

/-- VAND with a scalar (07 R132). -/
def execVandScalar (g : Guard) (v a : BitVec 4) (x : BitVec 5) (t : BitVec 4) (k : BitVec 3) (s : State) : Host.Outcome State Fault Refusal :=
  runSlot g (vecLogic .and v a (.scalar x) t.toNat k.toNat) s

/-- VOR (07 R139). -/
def execVor (g : Guard) (v a b t : BitVec 4) (k : BitVec 3) (s : State) : Host.Outcome State Fault Refusal :=
  runSlot g (vecLogic .or v a (.reg b) t.toNat k.toNat) s

/-- VOR with a scalar (07 R132). -/
def execVorScalar (g : Guard) (v a : BitVec 4) (x : BitVec 5) (t : BitVec 4) (k : BitVec 3) (s : State) : Host.Outcome State Fault Refusal :=
  runSlot g (vecLogic .or v a (.scalar x) t.toNat k.toNat) s

/-- VXOR (07 R139). -/
def execVxor (g : Guard) (v a b t : BitVec 4) (k : BitVec 3) (s : State) : Host.Outcome State Fault Refusal :=
  runSlot g (vecLogic .xor v a (.reg b) t.toNat k.toNat) s

/-- VXOR with a scalar (07 R132). -/
def execVxorScalar (g : Guard) (v a : BitVec 4) (x : BitVec 5) (t : BitVec 4) (k : BitVec 3) (s : State) : Host.Outcome State Fault Refusal :=
  runSlot g (vecLogic .xor v a (.scalar x) t.toNat k.toNat) s

/-- VSHL (07 R139). -/
def execVshl (g : Guard) (v a b t : BitVec 4) (k : BitVec 3) (s : State) : Host.Outcome State Fault Refusal :=
  runSlot g (vecLogic .shl v a (.reg b) t.toNat k.toNat) s

/-- VSHL with a scalar (07 R132). -/
def execVshlScalar (g : Guard) (v a : BitVec 4) (x : BitVec 5) (t : BitVec 4) (k : BitVec 3) (s : State) : Host.Outcome State Fault Refusal :=
  runSlot g (vecLogic .shl v a (.scalar x) t.toNat k.toNat) s

/-- VSHR (07 R139). -/
def execVshr (g : Guard) (v a b t : BitVec 4) (k : BitVec 3) (s : State) : Host.Outcome State Fault Refusal :=
  runSlot g (vecLogic .shr v a (.reg b) t.toNat k.toNat) s

/-- VSHR with a scalar (07 R132). -/
def execVshrScalar (g : Guard) (v a : BitVec 4) (x : BitVec 5) (t : BitVec 4) (k : BitVec 3) (s : State) : Host.Outcome State Fault Refusal :=
  runSlot g (vecLogic .shr v a (.scalar x) t.toNat k.toNat) s

/-- VSAR (07 R139). -/
def execVsar (g : Guard) (v a b t : BitVec 4) (k : BitVec 3) (s : State) : Host.Outcome State Fault Refusal :=
  runSlot g (vecLogic .sar v a (.reg b) t.toNat k.toNat) s

/-- VSAR with a scalar (07 R132). -/
def execVsarScalar (g : Guard) (v a : BitVec 4) (x : BitVec 5) (t : BitVec 4) (k : BitVec 3) (s : State) : Host.Outcome State Fault Refusal :=
  runSlot g (vecLogic .sar v a (.scalar x) t.toNat k.toNat) s

/-- VCMP.EQ (07 R140). -/
def execVcmpEq (g : Guard) (d : BitVec 3) (a b t : BitVec 4) (k : BitVec 3) (s : State) : Host.Outcome State Fault Refusal :=
  runSlot g (vecCmp .eq d a (.reg b) t.toNat k.toNat) s

/-- VCMP.EQ with a scalar (07 R132). -/
def execVcmpEqScalar (g : Guard) (d : BitVec 3) (a : BitVec 4) (x : BitVec 5) (t : BitVec 4) (k : BitVec 3) (s : State) : Host.Outcome State Fault Refusal :=
  runSlot g (vecCmp .eq d a (.scalar x) t.toNat k.toNat) s

/-- VCMP.NE (07 R140). -/
def execVcmpNe (g : Guard) (d : BitVec 3) (a b t : BitVec 4) (k : BitVec 3) (s : State) : Host.Outcome State Fault Refusal :=
  runSlot g (vecCmp .ne d a (.reg b) t.toNat k.toNat) s

/-- VCMP.NE with a scalar (07 R132). -/
def execVcmpNeScalar (g : Guard) (d : BitVec 3) (a : BitVec 4) (x : BitVec 5) (t : BitVec 4) (k : BitVec 3) (s : State) : Host.Outcome State Fault Refusal :=
  runSlot g (vecCmp .ne d a (.scalar x) t.toNat k.toNat) s

/-- VCMP.LT (07 R140). -/
def execVcmpLt (g : Guard) (d : BitVec 3) (a b t : BitVec 4) (k : BitVec 3) (s : State) : Host.Outcome State Fault Refusal :=
  runSlot g (vecCmp .lt d a (.reg b) t.toNat k.toNat) s

/-- VCMP.LT with a scalar (07 R132). -/
def execVcmpLtScalar (g : Guard) (d : BitVec 3) (a : BitVec 4) (x : BitVec 5) (t : BitVec 4) (k : BitVec 3) (s : State) : Host.Outcome State Fault Refusal :=
  runSlot g (vecCmp .lt d a (.scalar x) t.toNat k.toNat) s

/-- VCMP.LTU (07 R140). -/
def execVcmpLtu (g : Guard) (d : BitVec 3) (a b t : BitVec 4) (k : BitVec 3) (s : State) : Host.Outcome State Fault Refusal :=
  runSlot g (vecCmp .ltu d a (.reg b) t.toNat k.toNat) s

/-- VCMP.LTU with a scalar (07 R132). -/
def execVcmpLtuScalar (g : Guard) (d : BitVec 3) (a : BitVec 4) (x : BitVec 5) (t : BitVec 4) (k : BitVec 3) (s : State) : Host.Outcome State Fault Refusal :=
  runSlot g (vecCmp .ltu d a (.scalar x) t.toNat k.toNat) s

/-- VCMP.GE (07 R140). -/
def execVcmpGe (g : Guard) (d : BitVec 3) (a b t : BitVec 4) (k : BitVec 3) (s : State) : Host.Outcome State Fault Refusal :=
  runSlot g (vecCmp .ge d a (.reg b) t.toNat k.toNat) s

/-- VCMP.GE with a scalar (07 R132). -/
def execVcmpGeScalar (g : Guard) (d : BitVec 3) (a : BitVec 4) (x : BitVec 5) (t : BitVec 4) (k : BitVec 3) (s : State) : Host.Outcome State Fault Refusal :=
  runSlot g (vecCmp .ge d a (.scalar x) t.toNat k.toNat) s

/-- VCMP.GEU (07 R140). -/
def execVcmpGeu (g : Guard) (d : BitVec 3) (a b t : BitVec 4) (k : BitVec 3) (s : State) : Host.Outcome State Fault Refusal :=
  runSlot g (vecCmp .geu d a (.reg b) t.toNat k.toNat) s

/-- VCMP.GEU with a scalar (07 R132). -/
def execVcmpGeuScalar (g : Guard) (d : BitVec 3) (a : BitVec 4) (x : BitVec 5) (t : BitVec 4) (k : BitVec 3) (s : State) : Host.Outcome State Fault Refusal :=
  runSlot g (vecCmp .geu d a (.scalar x) t.toNat k.toNat) s

/-- VABS (07 R138). -/
def execVabs (g : Guard) (v a t : BitVec 4) (k : BitVec 3) (f : BitVec 1) (s : State) : Host.Outcome State Fault Refusal :=
  runSlot g (vecElem v a (.reg a) t.toNat k.toNat false false (fun el _ _ x _ _ => absNegElem el false (f = 1) x) false false) s

/-- VNEG (07 R138). -/
def execVneg (g : Guard) (v a t : BitVec 4) (k : BitVec 3) (f : BitVec 1) (s : State) : Host.Outcome State Fault Refusal :=
  runSlot g (vecElem v a (.reg a) t.toNat k.toNat true false (fun el _ _ x _ _ => absNegElem el true (f = 1) x) false false) s

/-- VSEL (07 R141): the mask selects; every element in use is written. -/
def execVsel (g : Guard) (v a b t : BitVec 4) (k : BitVec 3) (s : State) : Host.Outcome State Fault Refusal :=
  runSlot g { body := fun s => do
    let c := s.me
    let w := (tyElem t.toNat).width
    s.needWidth w
    let tag ← carryTags [(c.vreg a).tag, (c.vreg b).tag]
    let out := ((elemsOf (c.vreg a).bits w c.elems).zip (elemsOf (c.vreg b).bits w c.elems)).zipIdx.map fun (x, e) =>
      some (if c.kbit k e then x.1 else x.2)
    return (s.occupy c.passes).writeVec v (2 + c.passes) w out tag } s

/-! ### Conversion and rotation (07 R142 to R144) -/

/-- The mask of a tag's identifier among sg0-sg7 (06 R119). -/
def Core.findMask (c : Core) (id : BitVec 16) : Except Trap (BitVec 128) :=
  match c.vec.sg.toList.find? fun x => x.toNat / 2 ^ 128 = id.toNat with
  | some x => .ok (x.setWidth 128)
  | none => trapWith .signMiss (id.setWidth 64)

/-- What a conversion site does between two tags (06 R124). -/
inductive TagAct where
  | plain | fwd | inv
  deriving DecidableEq, Repr

def tagAct (src dst : Tag) : Except Trap TagAct :=
  if src = dst then .ok .plain
  else if src.none? then .ok .fwd
  else if dst.none? then .ok .inv
  else tagTrap 5 src dst

/-- Conversion of va into vd under a destination tag; P from the wider type. `same`: without a transform every value stays as it is
(07 R144). A value that a transform has formed is no integer source of 05 R106, whatever the type of va. The flags of a block's transform
are those of all its sources, whatever the mask (06 R122). VROT with sgN.ROTID = 0 gives TVAL 0. (DEDUCED, log 18; DESIGN CHOICE, log 15) -/
def convert (v a : BitVec 4) (src dst : Elem) (k : BitVec 3) (dtag : Core → Except Trap Tag) (shaped same : Bool) : Meaning where
  body s := do
    let c := s.me
    if shaped then s.needWidth dst.width
    let n := c.elems
    let wide := max src.width dst.width
    if 65536 < n * wide then trapWith .vectorShape c.vec.vshape
    let st := (c.vreg a).tag
    let dt ← dtag c
    if !tagOk dt.code.toNat dt.id.toNat then trapWith .format 0
    let act ← tagAct st dt
    if k ≠ 0 && (c.vreg v).tag ≠ dt then tagTrap 0 (c.vreg v).tag dt
    let rt := if act = .inv then st else dt
    let b := if act = .plain then 1 else tagB rt.code.toNat
    if c.cols % b ≠ 0 then trapWith .rotationShape (BitVec.ofNat 64 c.cols)
    let mask ← if act = .plain then .ok 0 else c.findMask rt.id
    let xs := (elemsOf (c.vreg a).bits src.width n).map src.decode
    let (ys, fl0) := if act = .plain then (xs, xs.map fun _ => (0 : Flags)) else
      (List.range c.rows).foldl (fun acc i =>
        (List.range (c.cols / b)).foldl (fun acc j =>
          let r := rotateBlock rt.code.toNat mask (act = .fwd) ((xs.drop (i * c.cols + j * b)).take b)
          (acc.1 ++ r.1, acc.2 ++ r.1.map fun _ => r.2)) acc) ([], [])
    let rnd := s.rndFor false (c.sys.fpstat.getLsbD 11)
    let out := (ys.zip (elemsOf (c.vreg a).bits src.width n)).zipIdx.map fun (y, e) =>
      if same && act = .plain then (y.2, 0) else dst.encode y.1 (rnd e) (act = .plain && !src.isFloat)
    let fl := (out.zip fl0).zipIdx.map fun (x, e) => (if c.kbit k e then x.1.2 else 0) ||| x.2
    let p := passes (n * wide)
    let l := 2 + p + (if act = .plain then 0 else Nat.log2 b)
    return ((s.occupy p).writeVec v l dst.width (c.masked k (out.map Prod.fst)) dt).raiseVec l fl c.cols

/-- VCVT (07 R142). -/
def execVcvt (g : Guard) (v a src t : BitVec 4) (k : BitVec 3) (f : BitVec 2) (s : State) : Host.Outcome State Fault Refusal :=
  runSlot g (convert v a (tyElem src.toNat) (tyElem t.toNat) k (fun c => .ok (match f.toNat with
    | 0 => (c.vreg a).tag
    | 1 => {}
    | _ => (c.vreg v).tag)) false false) s

/-- VROT (07 R143). -/
def execVrot (g : Guard) (v a : BitVec 4) (n : BitVec 3) (t : BitVec 4) (k : BitVec 3) (f : BitVec 2) (s : State) :
    Host.Outcome State Fault Refusal :=
  runSlot g (convert v a (tyElem t.toNat) (tyElem t.toNat) k (fun c =>
    .ok ⟨BitVec.ofNat 3 (f.toNat + 1), BitVec.ofNat 16 ((c.vec.sg.getD n.toNat 0).toNat / 2 ^ 128)⟩) true false) s

/-- VIROT (07 R144). -/
def execVirot (g : Guard) (v a t : BitVec 4) (k : BitVec 3) (s : State) : Host.Outcome State Fault Refusal :=
  runSlot g (convert v a (tyElem t.toNat) (tyElem t.toNat) k (fun _ => .ok {}) true true) s

/-! ### Reductions and layout (07 R145 to R150) -/

/-- The reductions. -/
inductive VRed where
  | sum | max | min
  deriving DecidableEq

/-- The reduction of one list (07 R145). -/
def VRed.elem (o : VRed) (el : Elem) (sat : Bool) (r : Rnd) (l : List Nat) : Nat × Flags :=
  match el, o with
  | .int w sg, .sum =>
    let x := (l.map (bitsInt w sg)).foldl (· + ·) 0
    let y := if sat then clampInt x (intLo w sg) (intHi w sg) else x
    (intBits w y, if y = x then 0 else Fl.sat)
  | .int w sg, o =>
    (l.tail.foldl (fun m x => if decide (bitsInt w sg m < bitsInt w sg x) = decide (o = .max) then x else m) (l.headD 0), 0)
  | .flt f, .sum =>
    let xs := l.map f.decode
    if xs.any Num.isNan then ((f.encode (pickNan xs) r).1, sigFlags xs)
    else if xs.any (· = .inf false) && xs.any (· = .inf true) then ((f.encode .canon r).1, Fl.nv ||| Fl.np)
    else f.encode (xs.tail.foldl (fun a x =>
        match a.add x (r.rm = 2) with
        | .zero z => if a.isZero && x.isZero then .zero z else .zero (r.rm = 2)
        | y => y) (xs.headD (.zero false))) r
  | .flt f, o =>
    let xs := l.map f.decode
    if xs.any Num.isNan then ((f.encode (pickNan xs) .rne).1, sigFlags xs)
    else (l.tail.foldl (fun m x =>
      if (if o = .max then (f.decode m).ltz (f.decode x) else (f.decode x).ltz (f.decode m)) then x else m) (l.headD 0), 0)

/-- VRED.op (07 R145). -/
def vecRed (o : VRed) (v a : BitVec 4) (t : BitVec 4) (k : BitVec 3) (down sat : Bool) : Meaning where
  body s := do
    let c := s.me
    let el := tyElem t.toNat
    let w := el.width
    s.needWidth w
    let tags := [(c.vreg a).tag, (c.vreg v).tag]
    let tag ← if o = .sum && down then carryTags tags else (plainTags tags).map fun _ => {}
    let xs := elemsOf (c.vreg a).bits w c.elems
    let pick (i j : Nat) := xs.getD (i * c.cols + j) 0
    let rnd := s.rndFor false (if el.isFloat then c.sys.fpstat.getLsbD 11 else sat)
    let res := (List.range c.elems).map fun e =>
      let i := e / c.cols
      let j := e % c.cols
      if (if down then i else j) = 0 && c.kbit k e then
        let l := if down then (List.range c.rows).map fun r => pick r j else (List.range c.cols).map fun q => pick i q
        some (o.elem el sat (rnd e) l)
      else none
    let l := 5 + c.passes
    return ((s.occupy c.passes).writeVec v l w (res.map fun x => x.map Prod.fst) tag).raiseVec l
      (res.map fun x => match x with | some y => y.2 | none => 0) c.cols

/-- VRED.SUM. -/
def execVredSum (g : Guard) (v a t : BitVec 4) (k : BitVec 3) (u x : BitVec 1) (s : State) : Host.Outcome State Fault Refusal :=
  runSlot g (vecRed .sum v a t k (x = 1) (u = 1)) s

/-- VRED.MAX. -/
def execVredMax (g : Guard) (v a t : BitVec 4) (k : BitVec 3) (x : BitVec 1) (s : State) : Host.Outcome State Fault Refusal :=
  runSlot g (vecRed .max v a t k (x = 1) false) s

/-- VRED.MIN. -/
def execVredMin (g : Guard) (v a t : BitVec 4) (k : BitVec 3) (x : BitVec 1) (s : State) : Host.Outcome State Fault Refusal :=
  runSlot g (vecRed .min v a t k (x = 1) false) s

/-- VTRN (07 R146). -/
def execVtrn (g : Guard) (v a t : BitVec 4) (k : BitVec 3) (s : State) : Host.Outcome State Fault Refusal :=
  runSlot g { body := fun s => do
    let c := s.me
    let w := (tyElem t.toNat).width
    s.needWidth w
    if 64 < c.cols then trapWith .vectorShape c.vec.vshape
    plainTags ((c.vreg a).tag :: (if k ≠ 0 then [(c.vreg v).tag] else []))
    let xs := elemsOf (c.vreg a).bits w c.elems
    let out := (List.range c.elems).map fun e => xs.getD (e % c.rows * c.cols + e / c.rows) 0
    return (s.occupy c.passes).writeVec v (4 + c.passes) w (c.masked k out) {} } s

/-- VBCAST (07 R147): the tag is checked ahead of the index. (DESIGN CHOICE, log 43) -/
def execVbcast (g : Guard) (v a : BitVec 4) (x : BitVec 5) (t : BitVec 4) (k : BitVec 3) (f : BitVec 1) (s : State) :
    Host.Outcome State Fault Refusal :=
  runSlot g { body := fun s => do
    let c := s.me
    let w := (tyElem t.toNat).width
    s.needWidth w
    let (z, s) ← s.readS x.toNat
    let dt := if k ≠ 0 then [(c.vreg v).tag] else []
    let tag ← carryTags ((if f = 1 then [] else [(c.vreg a).tag]) ++ dt)
    let n := z.toNat % 65536
    let col := z.getLsbD 16
    if f = 0 && decide ((if col then c.cols else c.rows) ≤ n) then trapWith .vectorIndex z
    let xs := elemsOf (c.vreg a).bits w c.elems
    let out := (List.range c.elems).map fun e =>
      if f = 1 then z.toNat % 2 ^ w
      else if col then xs.getD (e / c.cols * c.cols + n) 0 else xs.getD (n * c.cols + e % c.cols) 0
    return (s.occupy c.passes).writeVec v (2 + c.passes) w (c.masked k out) tag } s

/-- VIOTA (07 R148): tag 0. -/
def execViota (g : Guard) (v : BitVec 4) (x : BitVec 5) (t : BitVec 4) (k : BitVec 3) (f : BitVec 1) (s : State) :
    Host.Outcome State Fault Refusal :=
  runSlot g { body := fun s => do
    let c := s.me
    let w := (tyElem t.toNat).width
    s.needWidth w
    let (z, s) ← s.readS x.toNat
    let out := (List.range c.elems).map fun e => (z.toNat + (if f = 1 then e % c.cols else e)) % 2 ^ w
    return (s.occupy c.passes).writeVec v (2 + c.passes) w (c.masked k out) {} } s

/-- A result pushed into a queue after l cycles. -/
def State.pushQ (s : State) (q : BitVec 3) (l : Nat) (v : Word) : Except Trap State :=
  match s.reserve q.toNat with
  | .ok (id, s) => .ok (s.addPend l (.push q.toNat id v none))
  | .error t => .error t

/-- VEXT (07 R149). -/
def execVext (g : Guard) (q : BitVec 3) (a : BitVec 4) (x : BitVec 5) (f : BitVec 1) (s : State) : Host.Outcome State Fault Refusal :=
  runSlot g { body := fun s => do
    let c := s.me
    let (z, s) ← s.readS x.toNat
    if c.elems ≤ z.toNat then trapWith .vectorIndex z
    let b := (c.vreg a).bits.toNat / 2 ^ (z.toNat * c.ew) % 2 ^ c.ew
    (s.occupy 1).pushQ q 3 (if f = 1 then BitVec.ofInt 64 (bitsInt c.ew true b) else BitVec.ofNat 64 b) } s

/-- VINS (07 R149). -/
def execVins (g : Guard) (v : BitVec 4) (x : BitVec 5) (s : State) : Host.Outcome State Fault Refusal :=
  runSlot g { body := fun s => do
    let c := s.me
    let (z, s) ← s.readS x.toNat
    let e := (z >>> 32).toNat % 16384
    if c.elems ≤ e then trapWith .vectorIndex z
    return (s.occupy 1).writeVec v 3 c.ew (List.replicate e none ++ [some (z.toNat % 2 ^ c.ew)]) (c.vreg v).tag } s

/-- A VSHAPE value within the limits of 04 R84. -/
def shapeOk (z : Word) : Bool :=
  let rows := z.toNat % 128
  let cols := (z >>> 7).toNat % 32768
  let w := 4 * 2 ^ ((z >>> 22).toNat % 4)
  (z >>> 24) = 0 && 1 ≤ rows && rows ≤ 64 && 1 ≤ cols && cols ≤ 16384 && rows * cols * w ≤ 65536

/-- VSHP (07 R150). -/
def execVshp (g : Guard) (x : BitVec 5) (s : State) : Host.Outcome State Fault Refusal :=
  runSlot g { body := fun s => do
    let (z, s) ← s.readS x.toNat
    if shapeOk z then return (s.occupy 1).addPend 1 (.vshape z) else trapWith .reservedField z } s

/-! ### Masks (07 R151, R152) -/

/-- KAND, KOR, KNOT. -/
def vecMask (d : BitVec 3) (f : Core → Nat → Bool) : Meaning where
  body s := .ok ((s.occupy 1).writeK d 2 ((List.range s.me.elems).map fun e => some (f s.me e)))

/-- KAND. -/
def execKand (g : Guard) (d a b : BitVec 3) (s : State) : Host.Outcome State Fault Refusal :=
  runSlot g (vecMask d fun c e => c.kbit a e && c.kbit b e) s

/-- KOR. -/
def execKor (g : Guard) (d a b : BitVec 3) (s : State) : Host.Outcome State Fault Refusal :=
  runSlot g (vecMask d fun c e => c.kbit a e || c.kbit b e) s

/-- KNOT. -/
def execKnot (g : Guard) (d a : BitVec 3) (s : State) : Host.Outcome State Fault Refusal :=
  runSlot g (vecMask d fun c e => !c.kbit a e) s

/-- KWIN (07 R152). -/
def execKwin (g : Guard) (d : BitVec 3) (x : BitVec 5) (k : BitVec 3) (s : State) : Host.Outcome State Fault Refusal :=
  runSlot g { body := fun s => do
    let c := s.me
    let (z, s) ← s.readS x.toNat
    let lo := bitsInt 24 true (z.toNat % 2 ^ 24)
    let hi := bitsInt 24 true (z.toNat / 2 ^ 24 % 2 ^ 24)
    let sl := bitsInt 16 true (z.toNat / 2 ^ 48)
    let out := (List.range c.elems).map fun e =>
      let i : Int := (e / c.cols : Nat)
      let j : Int := (e % c.cols : Nat)
      decide (lo + sl * i ≤ j ∧ j < hi + sl * i)
    return (s.occupy 1).writeK d 2 (c.masked k out) } s

end Sys2Proof.Machine
end

