-- ==== Sys2Proof/Machine/Function.lean ====
section
/-! DEFINITION. The special-function unit (07 R157 to R161). -/

namespace Sys2Proof.Machine

/-- The cycles of the unit over the bits in use (07 R134). -/
def Core.fnPasses (c : Core) : Nat := (c.elems * c.ew + 1023) / 1024

/-- The passes that hold an element with 0 < |x| < 2^-12 (07 R159). -/
def slowPasses (w : Nat) (xs : List Num) : Nat :=
  ((xs.zipIdx.filter fun p => match p.1 with
    | .fin _ m d e => decide (flog2Ratio m d + e < -12)
    | _ => false).map fun p => p.2 * w / 1024).eraseDups.length

/-- An element function (07 R158); `land` for those delivered through a landing slot. Under SATD the infinite results of R158's table saturate as
every other result does. (DESIGN CHOICE, log 44) -/
def fnElem (o : FnOp) (v a : BitVec 4) (t : BitVec 4) (k : BitVec 3) (land : Bool) : Meaning where
  lands := land
  body s := do
    let c := s.me
    let el := tyElem t.toNat
    let w := el.width
    s.needWidth w
    plainTags ((c.vreg a).tag :: (if k ≠ 0 then [(c.vreg v).tag] else []))
    let xs := (elemsOf (c.vreg a).bits w c.elems).map el.decode
    let out := xs.map fun x =>
      let (y, f1) := fnEval o x
      let (b, f2) := el.encode y ⟨0, c.sys.fpstat.getLsbD 11, 0⟩
      (b, f1 ||| f2)
    let fl := out.zipIdx.map fun (x, e) => if c.kbit k e then x.2 else 0
    let np := firstNp fl c.cols 3 c.seq.pc s.latch.slot
    let f := c.fnPasses
    if !land then
      return ((s.occupy f).writeVec v (6 + f) w (c.masked k (out.map Prod.fst)) {}).raise (6 + f) (orFlags fl) np
    else
      let x := slowPasses w xs
      let p := packVals w (c.masked k (out.map Prod.fst))
      let ws : List Write := [.vec v.toNat (BitVec.ofNat 65536 p.1) (BitVec.ofNat 65536 p.2) {}] ++
        (if orFlags fl = 0 then [] else [.flags (orFlags fl) np])
      let (n, s) := (s.occupy (f + 4 * x)).addLanding (12 + f)
      let c := s.me
      return s.setMe { c with seq := { c.seq with landings := c.seq.landings.map fun l =>
        if l.id = n then (if x = 0 then { l with arrived := some ws } else { l with late := some (4 * x, ws) }) else l } }

/-- FEXP2 (07 R158). -/
def execFexp2 (g : Guard) (v a t : BitVec 4) (k : BitVec 3) (s : State) : Host.Outcome State Fault Refusal :=
  runSlot g (fnElem .exp2 v a t k false) s

/-- FLOG2 (07 R158). -/
def execFlog2 (g : Guard) (v a t : BitVec 4) (k : BitVec 3) (s : State) : Host.Outcome State Fault Refusal :=
  runSlot g (fnElem .log2 v a t k false) s

/-- FRCP (07 R158). -/
def execFrcp (g : Guard) (v a t : BitVec 4) (k : BitVec 3) (s : State) : Host.Outcome State Fault Refusal :=
  runSlot g (fnElem .rcp v a t k false) s

/-- FRSQ (07 R158). -/
def execFrsq (g : Guard) (v a t : BitVec 4) (k : BitVec 3) (s : State) : Host.Outcome State Fault Refusal :=
  runSlot g (fnElem .rsq v a t k false) s

/-- FSIGM (07 R158). -/
def execFsigm (g : Guard) (v a t : BitVec 4) (k : BitVec 3) (s : State) : Host.Outcome State Fault Refusal :=
  runSlot g (fnElem .sigm v a t k true) s

/-- FTANH (07 R158). -/
def execFtanh (g : Guard) (v a t : BitVec 4) (k : BitVec 3) (s : State) : Host.Outcome State Fault Refusal :=
  runSlot g (fnElem .tanh v a t k true) s

/-- FERF (07 R158). -/
def execFerf (g : Guard) (v a t : BitVec 4) (k : BitVec 3) (s : State) : Host.Outcome State Fault Refusal :=
  runSlot g (fnElem .erf v a t k true) s

/-- a is selected before b (07 R160): larger first, NaNs last, the lower column on a tie, that of two NaNs among them. (DESIGN CHOICE, log 44) -/
def topBefore (el : Elem) (a b : Nat × Nat) : Bool :=
  match el with
  | .int w sg =>
    let x := bitsInt w sg a.1
    let y := bitsInt w sg b.1
    decide (y < x) || (decide (x = y) && decide (a.2 ≤ b.2))
  | .flt f =>
    let x := f.decode a.1
    let y := f.decode b.1
    if x.isNan || y.isNan then (!x.isNan) || (y.isNan && decide (a.2 ≤ b.2))
    else match x.cmp y with
      | .gt => true
      | .lt => false
      | .eq => decide (a.2 ≤ b.2)

/-- A row in order of selection. -/
def topSort (el : Elem) (l : List (Nat × Nat)) : List (Nat × Nat) :=
  l.foldl (fun acc x => (acc.takeWhile fun y => topBefore el y x) ++ x :: acc.dropWhile fun y => topBefore el y x) []

/-- FTOPK (07 R160): the tag is checked ahead of k. (DESIGN CHOICE, log 43) -/
def execFtopk (g : Guard) (v a : BitVec 4) (x : BitVec 5) (t : BitVec 4) (k : BitVec 3) (l : BitVec 1) (s : State) :
    Host.Outcome State Fault Refusal :=
  runSlot g { body := fun s => do
    let c := s.me
    let el := tyElem t.toNat
    let w := el.width
    s.needWidth w
    let (z, s) ← s.readS x.toNat
    plainTags [(c.vreg a).tag, (c.vreg v).tag]
    if z.toNat < 1 ∨ min c.cols 256 < z.toNat then trapWith .vectorIndex z
    if l = 0 ∧ 2 ^ w < c.cols then trapWith .vectorShape c.vec.vshape
    let xs := elemsOf (c.vreg a).bits w c.elems
    let rows := (List.range c.rows).map fun i => topSort el ((List.range c.cols).map fun j => (xs.getD (i * c.cols + j) 0, j))
    let out := (List.range c.elems).map fun e =>
      let m := e % c.cols
      if m < z.toNat && c.kbit k e then
        let p := (rows.getD (e / c.cols) []).getD m (0, 0)
        some (if l = 1 then p.1 else p.2)
      else none
    let f := c.fnPasses
    return (s.occupy (2 * f)).writeVec v (8 + 2 * f) w out {} } s

/-- FHKEY (07 R161). -/
def execFhkey (g : Guard) (q : BitVec 3) (a : BitVec 4) (x : BitVec 5) (r : BitVec 6) (s : State) : Host.Outcome State Fault Refusal :=
  runSlot g { body := fun s => do
    let c := s.me
    let (z, s) ← s.readS x.toNat
    plainTags [(c.vreg a).tag]
    if c.rows ≤ r.toNat then trapWith .vectorIndex (r.setWidth 64)
    if c.cols < 16 then trapWith .vectorShape c.vec.vshape
    let key := (List.range 16).foldl (fun (k : Word) i =>
      k ^^^ rotl64 (BitVec.ofNat 64 ((c.vreg a).bits.toNat / 2 ^ ((r.toNat * c.cols + i) * c.ew) % 2 ^ c.ew)) (4 * i)) (rotl64 z 13)
    (s.occupy 1).pushQ q 4 key } s

end Sys2Proof.Machine
end

