-- ==== Sys2Proof/Machine/Tile.lean ====
section
/-! DEFINITION. Tensor maps and the elements behind them: place, decode, narrow and store (04 R89 to R91, 05 R98 to R107,
06 R117, R123), shared by VLD, VST and the engines. -/

namespace Sys2Proof.Machine

/-! ### Tensor maps (04 R89) -/

namespace TMap
def handle (m : BitVec 512) : Nat := m.toNat % 256
def fmt (m : BitVec 512) : BitVec 8 := BitVec.ofNat 8 (m.toNat / 2 ^ 8)
def tag (m : BitVec 512) : Tag := ⟨BitVec.ofNat 3 (m.toNat / 2 ^ 16), BitVec.ofNat 16 (m.toNat / 2 ^ 19)⟩
def wrap (m : BitVec 512) (d : Nat) : Bool := m.getLsbD (35 + d)
def gather (m : BitVec 512) : Bool := m.getLsbD 40
def base (m : BitVec 512) : Nat := m.toNat / 2 ^ 48 % 2 ^ 48
def size (m : BitVec 512) (d : Nat) : Nat := m.toNat / 2 ^ (96 + 80 * d) % 2 ^ 20
def org (m : BitVec 512) (d : Nat) : Nat := m.toNat / 2 ^ (116 + 80 * d) % 2 ^ 20
def stride (m : BitVec 512) (d : Nat) : Int := (BitVec.ofNat 40 (m.toNat / 2 ^ (136 + 80 * d))).toInt
/-- A reserved bit is set (04 R89). -/
def reserved (m : BitVec 512) : Bool := m.toNat / 2 ^ 496 ≠ 0 || m.toNat / 2 ^ 41 % 128 ≠ 0
end TMap

/-- Where an element lies: whether it is inside the map, its offset in the handle and its nibble (04 R90). -/
structure Loc where
  inside : Bool
  off : Nat
  nib : Nat := 0
  deriving DecidableEq, Repr

/-- The coordinate of dimension d (04 R90). A dimension that the instruction does not name and whose size is 0 bounds
nothing: the programs of 17 R352 and 20 R363 leave the sizes of unnamed dimensions at zero. (DEDUCED, log 16) -/
def TMap.coord (m : BitVec 512) (named d i : Nat) : Nat × Bool :=
  let x := TMap.org m d + i
  if TMap.wrap m d then (x % TMap.size m d, true)
  else (x, decide (x < TMap.size m d) || (decide (named ≤ d) && decide (TMap.size m d = 0)))

/-- The place of element i; `x1` is the row that a gather list selects for dimension 1, none when its entry failed (16 R335). (DEDUCED, log 16) -/
def TMap.locate (m : BitVec 512) (nib : Bool) (named : Nat) (i : List Nat) (x1 : Option (Option Nat)) : Loc :=
  let xs := (List.range 5).map fun d =>
    match d, x1 with
    | 1, some (some r) => (r, decide (r < TMap.size m 1))
    | 1, some none => (0, false)
    | 4, some _ => (0, true)
    | _, _ => TMap.coord m named d (i.getD d 0)
  let sum := (xs.zipIdx.map fun (x, d) => (x.1 : Int) * TMap.stride m d).foldl (· + ·) 0
  let off := (((TMap.base m : Int) + sum) % (2 ^ 64 : Nat)).toNat
  let x0 := (xs.headD (0, true)).1
  { inside := xs.all Prod.snd
    off := if nib then (off + x0 / 2) % 2 ^ 64 else off
    nib := if nib then x0 % 2 else 0 }

/-- A wrapping dimension of size 0 (04 R90). (DEDUCED, log 15) -/
def TMap.badWrap (m : BitVec 512) : Option Nat := (List.range 5).find? fun d => TMap.wrap m d && decide (TMap.size m d = 0)

/-! ### Holders (06 R123) -/

/-- The FMT, AUX, scale source, scale handle and tag of a holder: the bank's BANKFMT or the entry. -/
def State.holder (s : State) (c : Core) (e : BitVec 256) : Fmt :=
  if Ent.space e = 1 then
    let b := (c.sys.bankfmt.getD (Ent.bank e) 0).toNat
    let h := b / 2 ^ 32 % 256
    { code := BitVec.ofNat 8 b, aux := BitVec.ofNat 3 (b / 2 ^ 8), ssrc := BitVec.ofNat 2 (b / 2 ^ 30),
      sh := ⟨h, s.entry c h⟩, tag := ⟨BitVec.ofNat 3 (b / 2 ^ 11), BitVec.ofNat 16 (b / 2 ^ 14)⟩ }
  else
    { code := Ent.fmt e, aux := Ent.aux e, ssrc := Ent.ssrc e, sh := ⟨Ent.shandle e, s.entry c (Ent.shandle e)⟩,
      tag := ⟨Ent.rblk e, Ent.rotid e⟩ }

/-- How the data that a map addresses decode: the holder's way, or the map's behind a RAW holder. -/
def effFmt (hold : Fmt) (m : BitVec 512) : Fmt :=
  if hold.code = 0 then { code := TMap.fmt m, aux := 0, ssrc := 3, sh := {}, tag := TMap.tag m } else hold

/-- The tag check of 06 R123 and 06 R129: a map carries its holder's FMT and tag, unless the holder is RAW. -/
def checkHolder (hold : Fmt) (m : BitVec 512) : Except Trap Unit :=
  if hold.code = 0 || (TMap.fmt m = hold.code && TMap.tag m = hold.tag) then .ok () else tagTrap 4 (TMap.tag m) hold.tag

/-- A map's format and tag are legal, and so are its holder's tag, and its holder's AUX for the format that both name (05 R98, 06 R117). -/
def mapLegal (hold : Fmt) (m : BitVec 512) : Bool :=
  fmtLegal (TMap.fmt m).toNat 0 && tagOk (TMap.tag m).code.toNat (TMap.tag m).id.toNat &&
    (hold.code = 0 || (tagOk hold.tag.code.toNat hold.tag.id.toNat && (hold.code ≠ TMap.fmt m || fmtLegal hold.code.toNat hold.aux.toNat)))

/-- The handle that scales are read from, if the format reads them from one. -/
def Fmt.usesHandle (f : Fmt) : List Nat := if f.sideHandle then [f.sh.h] else []

/-! ### Reading elements -/

/-- How bytes of a handle are read: offset and count give the bytes with the first poisoned one, or the reason and the
first failing byte. -/
abbrev Rd := Nat → Nat → Except (Reason × Nat) (List Byte × Option Nat)

/-- The element bytes of a block (05 R102). -/
def blockBytes (code : BitVec 8) : Nat := if code = 0x42 then 16 else 32

/-- The physical place of a logical byte (05 R102). -/
def Fmt.phys (f : Fmt) (l : Nat) : Nat :=
  if isBlockFmt f.code.toNat && f.ssrc = 0 then let b := blockBytes f.code; l / b * (b + 1) + 1 + l % b else l

/-- The physical place of a block's inline scale (05 R102). -/
def scalePlace (code : BitVec 8) (b : Nat) : Nat := b * (blockBytes code + 1)

/-- An element as read: its bits, the bytes that hold it, its value, its failure (reason, element offset, first failing byte), the failing
physical byte of its scale and the poison met (each in the scale handle or not, offset). -/
structure ERead where
  bits : Nat := 0
  raw : Nat := 0
  val : Num := .zero false
  bad : Option (Reason × Nat × Nat) := none
  sbad : Option (Bool × Nat) := none
  poison : Option (Bool × Nat) := none

/-- A failed access: the handle, the offset that TVAL reports, the first failing byte, where it lies from BASE on, and the reason. -/
structure Viol where
  h : HInfo
  off : Nat
  byte : Nat
  phys : Nat
  why : Reason

/-- What an instruction or command logs of its failed accesses: the first one of each handle (11 R230). -/
def firstEach (l : List Viol) : List Viol := l.foldl (fun a v => if a.any fun w => w.h.h = v.h.h then a else a ++ [v]) []

/-- The failed access of a scale byte: in the scale handle, or in the map's own, at the logical offset of its block. (DEDUCED, log 18) -/
def scaleViol (f : Fmt) (h sh : HInfo) (x : Bool × Nat) : Viol :=
  if x.1 then ⟨sh, x.2, x.2, x.2, .scale⟩
  else let o := x.2 / (blockBytes f.code + 1) * blockBytes f.code; ⟨h, o, o, x.2, .scale⟩

/-- The failed accesses of an element and of its scale. -/
def elemViols (f : Fmt) (h sh : HInfo) (bad : Option (Reason × Nat × Nat)) (sbad : Option (Bool × Nat)) : List Viol :=
  (bad.map fun (r, off, b) => ⟨h, off, b, f.phys b, r⟩).toList ++ (sbad.map (scaleViol f h sh)).toList

/-- Those of an element that is read. -/
def ERead.viols (x : ERead) (f : Fmt) (h sh : HInfo) : List Viol := elemViols f h sh x.bad x.sbad

/-- A scale or channel factor: its bits, its failing byte, and the poison met. -/
def readScale (side : Bool) (srd : Rd) (off n : Nat) : Option Nat × Option (Bool × Nat) × Option (Bool × Nat) :=
  match srd off n with
  | .ok (bs, p) => (some (leNat bs), none, p.map fun x => (side, x))
  | .error (_, b) => (none, some (side, b), none)

/-- A channel product q × c (05 R103). (DEDUCED, log 18) -/
def chanMul (q c : Num) : Num :=
  if c.isNan then c.quiet else if (q.isZero && c.isInf) then .canon else q.mul c

/-- The element at a place, of width w bits, decoded when asked (05 R101 to R103, 04 R91). -/
def readElem (f : Fmt) (w : Nat) (decode : Bool) (rd srd : Rd) (i1 : Nat) (l : Loc) : ERead :=
  let n := max 1 (w / 8)
  if !l.inside then { bad := some (.bounds, l.off, l.off) }
  else if l.off % n ≠ 0 then { bad := some (.misalign, l.off, l.off) }
  else
    let p := f.phys l.off
    match rd p n with
    | .error (r, b) => { bad := some (r, l.off, l.off + (b - p)) }
    | .ok (bs, po) =>
      let bits := if w = 4 then leNat bs / 16 ^ l.nib % 16 else leNat bs
      let po1 := po.map fun x => (false, l.off + (x - p))
      let raw := leNat bs
      if !decode then { bits := bits, raw := raw, poison := po1 }
      else
        let code := f.code.toNat
        let aux := f.aux.toNat
        if isBlockFmt code then
          let b := l.off / blockBytes f.code
          if f.ssrc = 0 then
            let (sc, sb, ps) := readScale false rd (scalePlace f.code b) 1
            { bits := bits, raw := raw, val := match sc with | some x => decodeBlock code aux bits x | none => .zero false, sbad := sb,
              poison := po1.or (ps.map fun _ => (false, l.off)) }
          else if f.ssrc = 1 then
            let (sc, sb, ps) := readScale true srd b 1
            { bits := bits, raw := raw, val := match sc with | some x => decodeBlock code aux bits x | none => .zero false, sbad := sb,
              poison := po1.or ps }
          else { bits := bits, raw := raw, val := decodeBlock code aux bits 0x7F, poison := po1 }
        else if code = 0x50 ∨ code = 0x51 then
          let q : Num := .ofInt (bitsInt w true bits)
          if f.ssrc = 2 then
            let (c, sb, ps) := readScale true srd (4 * i1) 4
            { bits := bits, raw := raw, val := chanMul q (FFmt.fp32.decode (c.getD 0)), sbad := sb, poison := po1.or ps }
          else { bits := bits, raw := raw, val := q, poison := po1 }
        else if code = 0x48 then
          { bits := bits, raw := raw, val := match e8m0 bits with | some k => .fin false 1 1 k | none => .canon, poison := po1 }
        else match fmtElem code aux with
          | some el => { bits := bits, raw := raw, val := el.decode bits, poison := po1 }
          | none => { bits := bits, raw := raw, poison := po1 }

/-! ### Writing elements -/

/-- An element to be written: its place (none when it fails), its row index, its value or bits, whether the value is an
integer format's, its position for SR, and whether it is poisoned. -/
structure EWrite where
  loc : Loc
  i1 : Nat := 0
  bits : Nat := 0
  val : Num := .zero false
  fromInt : Bool := false
  idx : Nat := 0
  poison : Bool := false

/-- A piece of a write: into the scale handle or the map's own, the physical offset, n bytes or one nibble. -/
structure Put where
  side : Bool
  off : Nat
  n : Nat
  nib : Option Nat
  v : Nat
  poison : Bool := false

/-- The piece for an element's bits. -/
def EWrite.put (x : EWrite) (f : Fmt) (w v : Nat) : Put :=
  ⟨false, f.phys x.loc.off, max 1 (w / 8), if w = 4 then some x.loc.nib else none, v, x.poison⟩

/-- Narrowing of a channel element (05 R103). The quotient by a factor that a scale handle gives is no integer source of 05 R106; without
such a factor the element itself is narrowed. (DEDUCED, log 18) -/
def narrowChan (w : Nat) (c : Option Num) (x : Num) (r : Rnd) (fromInt : Bool) : Nat × Flags :=
  match c with
  | none => (Elem.int w true).encode x r fromInt
  | some c =>
    if c.isZero then (0, Fl.dz)
    else if c.isNan || c.isInf then (0, Fl.nv)
    else (Elem.int w true).encode (if x.isNan then x else x.div c) r false

/-- The narrowed elements of a list, in its order, with every scale written, the flags of each element (05 R102, R103, R106, R107) and the
failing byte of each element's channel factor, whose poison the element takes (22 R379); `e8` is the value of each element of an E8M0
destination, which the spec does not state. -/
def narrow (f : Fmt) (rnd : Nat → Rnd) (srd : Rd) (e8 : Nat → Nat) (ws : List EWrite) : List Put × List Flags × List (Option (Bool × Nat)) :=
  let code := f.code.toNat
  let aux := f.aux.toNat
  let w := fmtWidth code
  if isBlockFmt code then
    let last : List (EWrite × Nat) := ws.zipIdx.filter fun (x, i) => !((ws.drop (i + 1)).any fun y => y.loc = x.loc)
    let blk (x : EWrite) : Nat := x.loc.off / blockBytes f.code
    let blocks := (last.map fun x => blk x.1).eraseDups
    let done : List (List Put × List Nat × Flags) := blocks.map fun b =>
      let mine : List (EWrite × Nat) := last.filter fun x => blk x.1 = b
      let (sc, es, fl) := narrowBlock code aux (f.ssrc = 2 || f.ssrc = 3) (mine.map fun x => x.1.val)
      let po := mine.any fun x => x.1.poison
      let scale : List Put := match sc with
        | some v => if f.ssrc = 0 then [⟨false, scalePlace f.code b, 1, none, v, po⟩] else [⟨true, b, 1, none, v, po⟩]
        | none => []
      -- a scale that is computed, and a NaN or an infinity, make every element of the block depend on all of them (22 R379)
      let all := po && (sc.isSome || mine.any fun x => x.1.val.isNan || x.1.val.isInf)
      (scale ++ (mine.zip es).map (fun (x, v) => { x.1.put f w v with poison := x.1.poison || all }), mine.map Prod.snd, fl)
    (done.flatMap fun d => d.1,
      ws.zipIdx.map fun (_, i) => match done.find? fun d => d.2.1.head? = some i with | some d => d.2.2 | none => 0, ws.map fun _ => none)
  else
    let out : List (Put × Flags × Option (Bool × Nat)) := ws.map fun x =>
      if code = 0x50 ∨ code = 0x51 then
        let c := if f.ssrc = 2 then some (readScale true srd (4 * x.i1) 4) else none
        let (v, fl) := narrowChan w (c.map fun y => FFmt.fp32.decode (y.1.getD 0)) x.val (rnd x.idx) x.fromInt
        ({ x.put f w v with poison := x.poison || (c.bind fun y => y.2.2).isSome }, fl, c.bind fun y => y.2.1)
      else if code = 0x48 then (x.put f w (e8 x.idx % 256), 0, none)
      else match fmtElem code aux with
        | some el => let (v, fl) := el.encode x.val (rnd x.idx) x.fromInt; (x.put f w v, fl, none)
        | none => (x.put f w x.bits, 0, none)
    (out.map Prod.fst, out.map fun o => o.2.1, out.map fun o => o.2.2)

/-- The bytes that pieces leave, one after another; a nibble keeps the other half of its byte. -/
def putCells (addr : Bool → Nat → Nat) (old : Nat → Byte) : List Put → List Host.Cell → List Host.Cell
  | [], acc => acc
  | p :: r, acc =>
    let a := addr p.side p.off
    let cells : List Host.Cell := match p.nib with
      | none => (natLe p.n p.v).zipIdx.map fun (b, i) => (a + i, b)
      | some h =>
        let o := ((acc.reverse.find? fun c => c.1 = a).map Prod.snd).getD (old a)
        [(a, if h = 0 then (o &&& 0xF0) ||| BitVec.ofNat 8 (p.v % 16) else (o &&& 0x0F) ||| BitVec.ofNat 8 (p.v % 16 * 16))]
    putCells addr old r (acc ++ cells)

/-- The failed accesses of the scales among pieces written, each at the first element of its block: `locs` numbers the elements in order. -/
def scaleViols (f : Fmt) (h sh : HInfo) (fail : Put → Option (Reason × Nat)) (ps : List Put) (locs : List (Nat × Loc)) : List (Nat × Viol) :=
  ps.filterMap fun p => (fail p).map fun x =>
    let b := if p.side then p.off else p.off / (blockBytes f.code + 1)
    (((locs.find? fun l => l.2.off / blockBytes f.code = b).map Prod.fst).getD 0, scaleViol f h sh (p.side, x.2))

/-- A piece's failure in the handle it goes to. -/
def putFail (rd srd : Rd) (p : Put) : Option (Reason × Nat) :=
  match (if p.side then srd else rd) p.off p.n with
  | .error f => some f
  | .ok _ => none

/-- The first poisoned byte of a channel factor that narrowing reads for elements of rows i1 (05 R103). -/
def chanPoison (f : Fmt) (srd : Rd) (rows : List Nat) : Option Nat :=
  if (f.code = 0x50 ∨ f.code = 0x51) ∧ f.ssrc = 2 then rows.findSome? fun i => (readScale true srd (4 * i) 4).2.2.map Prod.snd else none

/-- The first poisoned byte among the elements read. -/
def poisonOf (l : List ERead) : Option (Bool × Nat) := l.findSome? ERead.poison

end Sys2Proof.Machine
end

