-- ==== Sys2Proof/Machine/Memory.lean ====
section
/-! DEFINITION. Loads and stores (03 R67), VLD and VST (07 R153 to R156), atomics, the tag table, tensor-map instructions
(12 R239 to R248). -/

namespace Sys2Proof.Machine

/-! ### Scalar loads and stores (03 R67) -/

/-- The address operand of format ML: offset register plus displacement (01 R26), and its alignment (01 R27), which is checked ahead of a store's data
queue and of a load's destination queue. (DESIGN CHOICE, log 43) -/
def State.mlOffset (s : State) (h : BitVec 8) (o : BitVec 5) (disp n : Nat) : Except Trap (Nat × State) := do
  let (x, s) ← s.readS o.toNat
  let off := (x + BitVec.ofNat 64 disp).toNat
  checkAligned h.toNat off n
  return (off, s)

/-- Bytes of a LOCAL handle read by the core itself (01 R27, 22 R380): none after a violation, which has been logged, or
after poison, which has been consumed. -/
def State.readLocal (s : State) (h : Nat) (e : BitVec 256) (off n : Nat) : Option (List Byte) × Bool × State :=
  match coreFail e off n false with
  | some (r, b) => (none, false, s.violate s.memUnit h off b r)
  | none =>
    let a := localAddr e off
    match firstPoison s.me.poison a n with
    | some i => (none, true, s.consume (off + i) h)
    | none => (some (s.me.bytes a n), false, s)

/-- A load of n bytes (03 R67): the register takes them at L = 4, zero after a violation, nothing after poison. -/
def scalarLoad (n : Nat) (signed : Bool) (d : BitVec 5) (h : BitVec 8) (o : BitVec 5) (j : BitVec 3) : Meaning where
  uses _ := [h.toNat]
  body s := do
    let (off, s) ← s.mlOffset h o (mlDisp n j) n
    match s.readLocal h.toNat (s.entry s.me h.toNat) off n with
    | (some bs, _, s) =>
      let v := leNat bs
      s.writeS d.toNat 4 (if signed then BitVec.ofInt 64 (bitsInt (8 * n) true v) else BitVec.ofNat 64 v)
    | (none, true, s) => .ok s
    | (none, false, s) => s.writeS d.toNat 4 0

/-- A store of n bytes (03 R67), in the issue cycle. -/
def scalarStore (n : Nat) (d : BitVec 5) (h : BitVec 8) (o : BitVec 5) (j : BitVec 3) : Meaning where
  uses _ := [h.toNat]
  endsRegion := true
  body s := do
    let (off, s) ← s.mlOffset h o (mlDisp n j) n
    let (v, s) ← s.readS d.toNat
    let e := s.entry s.me h.toNat
    match coreFail e off n true with
    | some (r, b) => .ok (s.violate s.memUnit h.toNat off b r)
    | none => .ok (s.putOwn (wordCells (localAddr e off) n v.toNat))

/-- LD.8 (03 R67). -/
def execLd8 (g : Guard) (d : BitVec 5) (h : BitVec 8) (o : BitVec 5) (j : BitVec 3) (s : State) : Host.Outcome State Fault Refusal :=
  runSlot g (scalarLoad 1 false d h o j) s

/-- LD.16 (03 R67). -/
def execLd16 (g : Guard) (d : BitVec 5) (h : BitVec 8) (o : BitVec 5) (j : BitVec 3) (s : State) : Host.Outcome State Fault Refusal :=
  runSlot g (scalarLoad 2 false d h o j) s

/-- LD.32 (03 R67). -/
def execLd32 (g : Guard) (d : BitVec 5) (h : BitVec 8) (o : BitVec 5) (j : BitVec 3) (s : State) : Host.Outcome State Fault Refusal :=
  runSlot g (scalarLoad 4 false d h o j) s

/-- LD.64 (03 R67). -/
def execLd64 (g : Guard) (d : BitVec 5) (h : BitVec 8) (o : BitVec 5) (j : BitVec 3) (s : State) : Host.Outcome State Fault Refusal :=
  runSlot g (scalarLoad 8 false d h o j) s

/-- LD.8S (03 R67). -/
def execLd8s (g : Guard) (d : BitVec 5) (h : BitVec 8) (o : BitVec 5) (j : BitVec 3) (s : State) : Host.Outcome State Fault Refusal :=
  runSlot g (scalarLoad 1 true d h o j) s

/-- LD.16S (03 R67). -/
def execLd16s (g : Guard) (d : BitVec 5) (h : BitVec 8) (o : BitVec 5) (j : BitVec 3) (s : State) : Host.Outcome State Fault Refusal :=
  runSlot g (scalarLoad 2 true d h o j) s

/-- LD.32S (03 R67). -/
def execLd32s (g : Guard) (d : BitVec 5) (h : BitVec 8) (o : BitVec 5) (j : BitVec 3) (s : State) : Host.Outcome State Fault Refusal :=
  runSlot g (scalarLoad 4 true d h o j) s

/-- ST.8 (03 R67). -/
def execSt8 (g : Guard) (d : BitVec 5) (h : BitVec 8) (o : BitVec 5) (j : BitVec 3) (s : State) : Host.Outcome State Fault Refusal :=
  runSlot g (scalarStore 1 d h o j) s

/-- ST.16 (03 R67). -/
def execSt16 (g : Guard) (d : BitVec 5) (h : BitVec 8) (o : BitVec 5) (j : BitVec 3) (s : State) : Host.Outcome State Fault Refusal :=
  runSlot g (scalarStore 2 d h o j) s

/-- ST.32 (03 R67). -/
def execSt32 (g : Guard) (d : BitVec 5) (h : BitVec 8) (o : BitVec 5) (j : BitVec 3) (s : State) : Host.Outcome State Fault Refusal :=
  runSlot g (scalarStore 4 d h o j) s

/-- ST.64 (03 R67). -/
def execSt64 (g : Guard) (d : BitVec 5) (h : BitVec 8) (o : BitVec 5) (j : BitVec 3) (s : State) : Host.Outcome State Fault Refusal :=
  runSlot g (scalarStore 8 d h o j) s

/-! ### VLD and VST (07 R153 to R156) -/

/-- What the core's own bytes answer: the handle check of 11 R222 and the poison of 22 R380. -/
def Core.localRd (c : Core) (e : BitVec 256) (write : Bool) : Rd := fun o n =>
  match coreFail e o n write with
  | some f => .error f
  | none => .ok (c.bytes (localAddr e o) n, (firstPoison c.poison (localAddr e o) n).map fun i => o + i)

/-- The checks that VLD and VST make at issue (07 R153), and what follows from them: the entry, the decode of the data and
the element width. The register's tag is checked against the data's before the map against its holder (06 R129). (DEDUCED, log 16) -/
def State.tileChecks (s : State) (m : BitVec 4) (cvt : Bool) (reg : Tag → Except Trap Unit) : Except Trap (BitVec 512 × BitVec 256 × Fmt × Nat) := do
  let c := s.me
  let map := c.vec.tm.getD m.toNat 0
  let e := s.entry c (TMap.handle map)
  let hold := s.holder c e
  let code := (TMap.fmt map).toNat
  let w := if code = 0 then c.ew else fmtWidth code
  if TMap.gather map || (w = 4 && decide (TMap.stride map 0 ≠ 0)) then trapWith .tensorMap (m.setWidth 64)
  match TMap.badWrap map with
  | some d => if c.elems ≠ 0 then trapWith .tensorMap (BitVec.ofNat 64 d) else pure ()
  | none => pure ()
  if !mapLegal hold map || code = 0x60 || code = 0x61 || (cvt && code = 0) then trapWith .format (TMap.fmt map |>.setWidth 64)
  reg (effFmt hold map).tag
  checkHolder hold map
  if (if cvt then c.ew ≠ 32 else code ≠ 0 ∧ w ≠ c.ew) then trapWith .vectorShape c.vec.vshape
  return (map, e, effFmt hold map, w)

/-- The places of a tile's elements in element order of the map, i0 fastest, with the register element each one is. -/
def Core.tile (c : Core) (map : BitVec 512) (w : Nat) (x : Word) (t : Bool) : List (Nat × Nat × Loc) :=
  let i2 := x.toNat % 2 ^ 20
  let i3 := x.toNat / 2 ^ 20 % 2 ^ 20
  let i4 := x.toNat / 2 ^ 40 % 2 ^ 20
  let n0 := if t then c.rows else c.cols
  let n1 := if t then c.cols else c.rows
  (List.range (n0 * n1)).map fun k =>
    let i0 := k % n0
    let i1 := k / n0
    (if t then i0 * c.cols + i1 else i1 * c.cols + i0, i1, TMap.locate map (w = 4) 5 [i0, i1, i2, i3, i4] none)

/-- The violations of a tile access, given in element order: one for the map's handle, one for its scale handle when that is another (04 R91,
05 R102, R103, 11 R230). -/
def State.violateTile (s : State) (l : List Viol) : State :=
  (firstEach l).foldl (fun s v => s.violate s.memUnit v.h.h v.off v.byte v.why v.phys) s

/-- The handles that a tile access uses (11 R227). (DEDUCED, log 16) -/
def State.tileUses (s : State) (m : BitVec 4) (cvt : Bool) : List Nat :=
  let c := s.me
  let map := c.vec.tm.getD m.toNat 0
  let f := effFmt (s.holder c (s.entry c (TMap.handle map))) map
  TMap.handle map :: if cvt then f.usesHandle else []

/-- VLD (07 R154). (DEDUCED, log 16) -/
def vecLoad (v m : BitVec 4) (x : BitVec 5) (k : BitVec 3) (cvt t : Bool) : Meaning where
  uses s := s.tileUses m cvt
  body s := do
    let (x, s) ← s.readS x.toNat
    let c := s.me
    let (map, e, f, w) ← s.tileChecks m cvt fun tag => if k ≠ 0 && (c.vreg v).tag ≠ tag then tagTrap 0 (c.vreg v).tag tag else .ok ()
    let rd := c.localRd e false
    let srd := c.localRd f.sh.e false
    let tile := c.tile map w x t
    let out := tile.map fun (r, i1, l) => (r, readElem f w cvt rd srd i1 l)
    let s := s.violateTile (out.flatMap fun o => o.2.viols f ⟨TMap.handle map, e⟩ f.sh)
    let s := s.occupy c.passes
    match poisonOf (out.map Prod.snd) with
    | some (side, off) => return s.consume off (if side then f.sh.h else TMap.handle map)
    | none =>
      let vals := out.map fun (r, x) =>
        if x.bad.isSome then (r, 0, (0 : Flags)) else if cvt then let y := FFmt.fp32.encode x.val .rne; (r, y.1, y.2) else (r, x.bits, 0)
      let at_ (i : Nat) : Nat × Flags := ((vals.find? fun z => z.1 = i).map fun z => z.2).getD (0, 0)
      let elems := (List.range c.elems).map at_
      let l := 4 + c.passes
      let s := s.writeVec v l c.ew (c.masked k (elems.map Prod.fst)) f.tag
      return s.raise l (orFlags (elems.zipIdx.map fun (y, i) => if c.kbit k i then y.2 else 0)) none

/-- VST (07 R155): a collision goes by the elements of the register, and a poisoned channel factor is consumed (22 R380). (DEDUCED, log 16;
DESIGN CHOICE, log 17) -/
def vecStore (v m : BitVec 4) (x : BitVec 5) (k : BitVec 3) (cvt t : Bool) : Meaning where
  uses s := s.tileUses m cvt
  endsRegion := true
  body s := do
    let (x, s) ← s.readS x.toNat
    let c := s.me
    let (map, e, f, w) ← s.tileChecks m cvt fun tag => if (c.vreg v).tag ≠ tag then tagTrap 6 (c.vreg v).tag tag else .ok ()
    let s := s.occupy c.passes
    let own := c.localRd e true
    let src := elemsOf (c.vreg v).bits c.ew c.elems
    let tile := (c.tile map w x t).filter fun z => c.kbit k z.1
    let seen := tile.map fun (r, i1, l) => (r, i1, l, (readElem f w false own own i1 l).bad)
    let good := seen.filter fun z => z.2.2.2.isNone
    let order := (List.range c.elems).filterMap fun i => good.find? fun z => z.1 = i
    let rnd := s.rndFor false (c.sys.fpstat.getLsbD 11)
    let ws := order.map fun (r, i1, l, _) =>
      ({ loc := l, i1 := i1, bits := src.getD r 0, val := FFmt.fp32.decode (src.getD r 0), idx := r } : EWrite)
    let srd := c.localRd f.sh.e false
    let wrd := c.localRd f.sh.e true
    let (ps, fls, sbs) := if cvt then narrow f rnd srd (fun i => Config.freeNat (s.free + i)) ws
      else (ws.map fun y => y.put f w y.bits, [], [])
    let fail := putFail own wrd
    let s := { s with free := s.free + c.elems }
    let place (r : Nat) : Nat := (tile.findIdx? fun z => z.1 = r).getD 0
    let h : HInfo := ⟨TMap.handle map, e⟩
    let vs := seen.zipIdx.flatMap (fun z => (elemViols f h f.sh z.1.2.2.2 none).map fun v => (z.2, v)) ++
      (ws.zip sbs).flatMap (fun z => (elemViols f h f.sh none z.2).map fun v => (place z.1.idx, v)) ++
      scaleViols f h f.sh fail ps (good.map fun z => (place z.1, z.2.2.1))
    let s := s.violateTile ((sortOn Prod.fst vs).map Prod.snd)
    let addr (side : Bool) (o : Nat) : Nat := if side then localAddr f.sh.e o else localAddr e o
    match if cvt then chanPoison f srd (good.map fun z => z.2.1) else none with
    | some off => return s.consume off f.sh.h
    | none =>
    let (u, s) := s.choose 6
    let s := s.putOwn (putCells addr c.byte (ps.filter fun p => (fail p).isNone) [])
    let np := (fls.zip ws).find? fun z => z.1.getLsbD 6
    let info : Option NpInfo := np.map fun z =>
      { unit := BitVec.ofNat 4 u, pc := c.seq.pc, row := BitVec.ofNat 7 (z.2.idx / c.cols), col := BitVec.ofNat 14 (z.2.idx % c.cols),
        slot := BitVec.ofNat 3 s.latch.slot }
    return s.raise 1 (orFlags fls) info

/-- VLD (07 R153, R154). -/
def execVld (g : Guard) (v m : BitVec 4) (x : BitVec 5) (k : BitVec 3) (c t : BitVec 1) (s : State) : Host.Outcome State Fault Refusal :=
  runSlot g (vecLoad v m x k (c = 1) (t = 1)) s

/-- VST (07 R153, R155). -/
def execVst (g : Guard) (v m : BitVec 4) (x : BitVec 5) (k : BitVec 3) (c t : BitVec 1) (s : State) : Host.Outcome State Fault Refusal :=
  runSlot g (vecStore v m x k (c = 1) (t = 1)) s

/-! ### Atomics (12 R240 to R242) -/

/-- The result that an atomic step returns (12 R241). -/
def atomResult (w64 u : Bool) (old : Nat) : Word :=
  if w64 || u then BitVec.ofNat 64 old else BitVec.ofInt 64 (bitsInt 32 true old)

/-- The operands of an atomic instruction: offset, then the data register (12 R240). -/
def State.atomOperands (s : State) (d : BitVec 5) (h : BitVec 8) (o : BitVec 5) (w64 : Bool) :
    Except Trap (Nat × Nat × Nat × Nat × State) := do
  let n := if w64 then 8 else 4
  let (off, s) ← s.mlOffset h o 0 n
  let v := (s.me.sreg d.toNat).toNat % 2 ^ (8 * n)
  let new := (s.me.sreg (d.toNat + 1)).toNat % 2 ^ (8 * n)
  return (n, off, v, new, s)

/-- ATOM (12 R241): the word read and written in the issue cycle. -/
def atom (op : AtomOp) (d : BitVec 5) (h : BitVec 8) (o : BitVec 5) (u w : BitVec 1) : Meaning where
  uses _ := [h.toNat]
  endsRegion := true
  body s := do
    let (n, off, v, new, s) ← s.atomOperands d h o (w = 1)
    let e := s.entry s.me h.toNat
    match coreFail e off n true with
    | some (r, b) => (s.violate s.memUnit h.toNat off b r).writeS d.toNat 4 0
    | none =>
      match s.readLocal h.toNat e off n with
      | (some bs, _, s) =>
        let old := leNat bs
        let s := s.putAtom (localAddr e off) n op (u = 1) old v new
        s.writeS d.toNat 4 (atomResult (w = 1) (u = 1) old)
      | (none, _, s) => .ok s

/-- Why RATOM's step at offset o of a handle fails at issue (11 R222, 12 R242). (DEDUCED, log 19) -/
def remoteFail (e : BitVec 256) (o n : Nat) : Option (Reason × Nat) :=
  if Ent.space e = 0 then some (.invalid, o)
  else if Ent.state e = 4 then some (.retHandle, o)
  else if Ent.space e ≠ 4 then some (.space, o)
  else if Ent.ronly e then some (.ronly, o)
  else if Ent.len e < o + n then some (.bounds, max o (Ent.len e))
  else none

/-- The result of a landing delivered with its writes at a cycle (14 R289). -/
def State.sendLanding (s : State) (at_ : Nat) (core landing : Nat) (ws : List Write) : State :=
  s.send at_ (.landed core landing ws)

/-- RATOM (12 R242). -/
def ratom (op : AtomOp) (d : BitVec 5) (h : BitVec 8) (o : BitVec 5) (f u w : BitVec 1) : Meaning where
  ban := Core.rpl
  waits s := s.me.fenced
  lands := true
  honour := true
  uses _ := [h.toNat]
  endsRegion := true
  body s := do
    let (n, off, v, new, s) ← s.atomOperands d h o (w = 1)
    let e := s.entry s.me h.toNat
    let l := if f = 1 then 1200 else 256
    let (id, s) := s.addLanding l
    match remoteFail e off n with
    | some (r, b) =>
      return (s.violate s.memUnit h.toNat off b r).sendLanding (s.clock + 1) s.cur.val id [.scalar d.toNat 0]
    | none =>
      let (rid, s) := s.addRemote
      let owner := Ent.rcore e
      let bound := if dieOf owner = dieOf s.cur then 256 else 1200
      let (k, s) := s.choose (bound - 2)
      let mine (b : MsgBody) : Bool := match b with
        | .ratom c _ _ _ e' .. => c = s.cur.val && Ent.rcore e' = owner && Ent.rbank e' = Ent.rbank e
        | _ => false
      return s.send (s.afterAll (s.clock + k) mine)
        (.ratom s.cur.val id ((s.me.ctx).getD 64) h.toNat e (BitVec.ofNat 64 off) op.code (w = 1) (u = 1) (BitVec.ofNat 64 v)
          (BitVec.ofNat 64 new) d.toNat rid s.me.seq.pc s.latch.slot (s.clock + bound - 1))

/-- ATOM.ADD (12 R241). -/
def execAtomAdd (g : Guard) (d : BitVec 5) (h : BitVec 8) (o : BitVec 5) (u w : BitVec 1) (s : State) : Host.Outcome State Fault Refusal :=
  runSlot g (atom .add d h o u w) s

/-- ATOM.MIN (12 R241). -/
def execAtomMin (g : Guard) (d : BitVec 5) (h : BitVec 8) (o : BitVec 5) (u w : BitVec 1) (s : State) : Host.Outcome State Fault Refusal :=
  runSlot g (atom .min d h o u w) s

/-- ATOM.MAX (12 R241). -/
def execAtomMax (g : Guard) (d : BitVec 5) (h : BitVec 8) (o : BitVec 5) (u w : BitVec 1) (s : State) : Host.Outcome State Fault Refusal :=
  runSlot g (atom .max d h o u w) s

/-- ATOM.SWAP (12 R241). -/
def execAtomSwap (g : Guard) (d : BitVec 5) (h : BitVec 8) (o : BitVec 5) (u w : BitVec 1) (s : State) : Host.Outcome State Fault Refusal :=
  runSlot g (atom .swap d h o u w) s

/-- ATOM.CAS (12 R241). -/
def execAtomCas (g : Guard) (d : BitVec 5) (h : BitVec 8) (o : BitVec 5) (u w : BitVec 1) (s : State) : Host.Outcome State Fault Refusal :=
  runSlot g (atom .cas d h o u w) s

/-- RATOM.ADD (12 R242). -/
def execRatomAdd (g : Guard) (d : BitVec 5) (h : BitVec 8) (o : BitVec 5) (f u w : BitVec 1) (s : State) : Host.Outcome State Fault Refusal :=
  runSlot g (ratom .add d h o f u w) s

/-- RATOM.MIN (12 R242). -/
def execRatomMin (g : Guard) (d : BitVec 5) (h : BitVec 8) (o : BitVec 5) (f u w : BitVec 1) (s : State) : Host.Outcome State Fault Refusal :=
  runSlot g (ratom .min d h o f u w) s

/-- RATOM.MAX (12 R242). -/
def execRatomMax (g : Guard) (d : BitVec 5) (h : BitVec 8) (o : BitVec 5) (f u w : BitVec 1) (s : State) : Host.Outcome State Fault Refusal :=
  runSlot g (ratom .max d h o f u w) s

/-- RATOM.SWAP (12 R242). -/
def execRatomSwap (g : Guard) (d : BitVec 5) (h : BitVec 8) (o : BitVec 5) (f u w : BitVec 1) (s : State) : Host.Outcome State Fault Refusal :=
  runSlot g (ratom .swap d h o f u w) s

/-- RATOM.CAS (12 R242). -/
def execRatomCas (g : Guard) (d : BitVec 5) (h : BitVec 8) (o : BitVec 5) (f u w : BitVec 1) (s : State) : Host.Outcome State Fault Refusal :=
  runSlot g (ratom .cas d h o f u w) s

/-! ### The tag table (12 R243 to R246) -/

/-- A lookup (11 R233): slot and payload of the lowest match, or all ones. -/
def tagLookup (t : Vector TagEntry 64) (key : Word) : Word :=
  match t.toList.zipIdx.find? fun (x, _) => x.v && x.key = key with
  | some (x, i) => BitVec.ofNat 64 (i + x.payload.toNat * 64)
  | none => BitVec.allOnes 64

/-- The table with an entry changed. -/
def State.setTag (s : State) (i : Nat) (x : TagEntry) : State :=
  let c := s.me
  s.setMe { c with sto := { c.sto with tags := vset c.sto.tags i x } }

/-- TLOOK (12 R244). -/
def execTlook (g : Guard) (d a : BitVec 5) (s : State) : Host.Outcome State Fault Refusal :=
  runSlot g { body := fun s => do
    let (k, s) ← s.readS a.toNat
    s.writeS d.toNat 4 (tagLookup s.me.sto.tags k) } s

/-- A landing whose result goes to a scalar operand code: a queue entry is reserved at issue (12 R239). -/
def State.landingDest (s : State) (d l : Nat) : Except Trap (Nat × Nat × State) := do
  let (qid, s) ← if 24 ≤ d then s.reserve (d - 24) else .ok (0, s)
  let (id, s) := s.addLanding l
  return (id, qid, s)

/-- The write that a landing result makes to its destination. -/
def landWrite (d qid : Nat) (v : Word) : Write := if 24 ≤ d then .push (d - 24) qid v none else .scalar d v

/-- TLOOK.R (12 R245): a probe of another core's table. -/
def execTlookR (g : Guard) (d a b : BitVec 5) (s : State) : Host.Outcome State Fault Refusal :=
  runSlot g { lands := true, body := fun s => do
    let (k, s) ← s.readS a.toNat
    let (t, s) ← s.readS b.toNat
    if 255 < t.toNat then trapWith .reservedField t
    let (id, qid, s) ← s.landingDest d.toNat 1200
    let (n, s) := s.choose 1197
    return s.send (s.clock + n) (.probe s.cur.val id ((s.me.ctx).getD 64) t.toNat k d.toNat qid (s.clock + 1199)) } s

/-- A slot instruction of the tag table: its status and the entry it leaves (12 R244). -/
def tagStep (d a : BitVec 5) (f : TagEntry → Nat × Option TagEntry) : Meaning where
  ban := Core.rpl
  endsRegion := true
  body s := do
    let (x, s) ← s.readS a.toNat
    if 63 < x.toNat then s.writeS d.toNat 4 5
    else
      let (st, e) := f (s.me.sto.tags.getD x.toNat {})
      (match e with | some y => s.setTag x.toNat y | none => s).writeS d.toNat 4 (BitVec.ofNat 64 st)

/-- TSET (12 R244). -/
def execTset (g : Guard) (d a b : BitVec 5) (s : State) : Host.Outcome State Fault Refusal :=
  runSlot g { ban := Core.rpl, endsRegion := true, body := fun s => do
    let (k, s) ← s.readS a.toNat
    let (x, s) ← s.readS b.toNat
    if x.toNat / 64 % 2 ^ 26 ≠ 0 then s.writeS d.toNat 4 5
    else
      let i := x.toNat % 64
      let e := s.me.sto.tags.getD i {}
      if e.v && e.pins ≠ 0 then s.writeS d.toNat 4 1
      else (s.setTag i { v := true, pins := 0, payload := BitVec.ofNat 32 (x.toNat / 2 ^ 32), key := k }).writeS d.toNat 4 0 } s

/-- TDEL (12 R244). -/
def execTdel (g : Guard) (d a : BitVec 5) (s : State) : Host.Outcome State Fault Refusal :=
  runSlot g (tagStep d a fun e => if !e.v then (2, none) else if e.pins ≠ 0 then (1, none) else (0, some { e with v := false })) s

/-- TPIN (12 R244). -/
def execTpin (g : Guard) (d a : BitVec 5) (s : State) : Host.Outcome State Fault Refusal :=
  runSlot g (tagStep d a fun e => if !e.v then (2, none) else if e.pins = 255 then (3, none) else (0, some { e with pins := e.pins + 1 })) s

/-- TUNPIN (12 R244). -/
def execTunpin (g : Guard) (d a : BitVec 5) (s : State) : Host.Outcome State Fault Refusal :=
  runSlot g (tagStep d a fun e => if !e.v then (2, none) else if e.pins = 0 then (4, none) else (0, some { e with pins := e.pins - 1 })) s

/-! ### Tensor-map registers (12 R247, R248) -/

/-- TMLD (12 R247). -/
def execTmld (g : Guard) (m : BitVec 4) (h : BitVec 8) (o : BitVec 5) (z : BitVec 4) (s : State) : Host.Outcome State Fault Refusal :=
  runSlot g { uses := fun _ => [h.toNat], body := fun s => do
    let (off, s) ← s.mlOffset h o (64 * z.toNat) 64
    match s.readLocal h.toNat (s.entry s.me h.toNat) off 64 with
    | (some bs, _, s) =>
      let v := BitVec.ofNat 512 (leNat bs)
      if TMap.reserved v then trapWith .reservedField (BitVec.ofNat 64 off)
      else return s.addPend 4 (.tmap m.toNat (BitVec.allOnes 512) v)
    | (none, true, s) => .ok s
    | (none, false, s) => .ok (s.addPend 4 (.tmap m.toNat (BitVec.allOnes 512) 0)) } s

/-- TMST (12 R247). -/
def execTmst (g : Guard) (m : BitVec 4) (h : BitVec 8) (o : BitVec 5) (z : BitVec 4) (s : State) : Host.Outcome State Fault Refusal :=
  runSlot g { ban := Core.rpl, uses := fun _ => [h.toNat], body := fun s => do
    let (off, s) ← s.mlOffset h o (64 * z.toNat) 64
    let e := s.entry s.me h.toNat
    match coreFail e off 64 true with
    | some (r, b) => .ok (s.violate s.memUnit h.toNat off b r)
    | none =>
      let v := (s.me.vec.tm.getD m.toNat 0).toNat
      .ok (s.putOwn ((natLe 64 v).zipIdx.map fun (b, i) => (localAddr e off + i, b))) } s

/-- A field of a tensor map by its selector: lowest bit and width (12 R248). -/
def tmField (x : Nat) : Nat × Nat :=
  if x = 0 then (0, 8) else if x = 1 then (8, 8) else if x = 2 then (16, 19) else if x = 3 then (35, 6)
  else if x = 4 then (48, 48) else if x < 16 then (96 + 80 * (x - 8), 20) else if x < 24 then (116 + 80 * (x - 16), 20)
  else if x < 32 then (136 + 80 * (x - 24), 40) else (0, 48)

/-- A write of one field of a tensor map. -/
def State.writeTm (s : State) (m lo w v : Nat) : State :=
  s.addPend 1 (.tmap m (BitVec.ofNat 512 ((2 ^ w - 1) * 2 ^ lo)) (BitVec.ofNat 512 (v % 2 ^ w * 2 ^ lo)))

/-- TMSET (12 R248). -/
def execTmset (g : Guard) (m : BitVec 4) (a : BitVec 5) (x : BitVec 6) (s : State) : Host.Outcome State Fault Refusal :=
  runSlot g { body := fun s => do
    let (v, s) ← s.readS a.toNat
    if x = 32 ∧ v.toNat / 2 ^ 41 % 128 ≠ 0 then trapOf .reservedField
    let (lo, w) := tmField x.toNat
    return s.writeTm m.toNat lo w v.toNat } s

/-- TMSET CLEAR (12 R248). -/
def execTmsetClear (g : Guard) (m : BitVec 4) (s : State) : Host.Outcome State Fault Refusal :=
  runSlot g { body := fun s => .ok (s.writeTm m.toNat 0 512 0) } s

/-- TMADD (12 R248). -/
def execTmadd (g : Guard) (m : BitVec 4) (a : BitVec 5) (x : BitVec 6) (s : State) : Host.Outcome State Fault Refusal :=
  runSlot g { body := fun s => do
    let (v, s) ← s.readS a.toNat
    let (lo, w) := tmField x.toNat
    let old := (s.me.vec.tm.getD m.toNat 0).toNat / 2 ^ lo
    return s.writeTm m.toNat lo w (old + v.toNat) } s

end Sys2Proof.Machine
end

