-- ==== Sys2Proof/Machine/Sync.lean ====
section
/-! DEFINITION. Sign registers, fences, semaphores, barriers, token queues, gangs, tasks and futures (12 R249 to R261). -/

namespace Sys2Proof.Machine

/-! ### Physical HBM (11 R234, R236) -/

/-- Why a byte of HBM cannot be reached, or its physical address (11 R234). -/
def Ctx.translate (x : Ctx) (va : Nat) (write : Bool) : Except Reason Nat :=
  if 2 ^ 40 ≤ va then .error .notMapped
  else
    let e1 := ((Table.get x.l1 (va / 2 ^ 30)).getD 0).toNat
    if e1 % 2 = 0 ∨ e1 / 2 ^ 40 ≠ 0 ∨ e1 / 2 % 2 ^ 11 ≠ 0 then .error .notMapped
    else
      let e2 := ((Table.get x.l2 (e1 / 2 ^ 12 * 512 + va / 2 ^ 21 % 512)).getD 0).toNat
      if e2 % 2 = 0 ∨ e2 / 2 ^ 40 ≠ 0 ∨ e2 / 2 ^ 3 % 2 ^ 18 ≠ 0 then .error .notMapped
      else if e2 / 4 % 2 = 1 then .error .retPage
      else if write && decide (e2 / 2 % 2 = 0) then .error .ronly
      else .ok (e2 / 2 ^ 21 * 2 ^ 21 + va % 2 ^ 21)

/-- Bytes of HBM by virtual address: the first failure with its place, or the bytes with the first poisoned one. -/
def State.hbmRead (s : State) (ctx va n : Nat) : Except (Reason × Nat) (List Byte × Option Nat) :=
  match Table.get s.ctxs ctx with
  | none => .error (.notMapped, va)
  | some x =>
    let ps := (List.range n).map fun i => (x.translate (va + i) false, va + i)
    match ps.find? fun p => match p.1 with | .error _ => true | .ok _ => false with
    | some (.error r, a) => .error (r, a)
    | _ =>
      let as := ps.filterMap fun p => match p.1 with | .ok a => some a | .error _ => none
      .ok (as.map s.hbm.read, (List.range n).find? fun i => s.hbmPoison.contains ((as.getD i 0) / 32))

/-! ### Repair stalls (22 R394, R395) -/

/-- The frames of 2 MiB of physical HBM: 32,768 in each of twelve stacks (00 R2, 22 R394). (DESIGN CHOICE, log 7) -/
def frameCount : Nat := 393216

/-- The stack of a frame. -/
def frameStack (f : Nat) : Fin 12 := Fin.ofNat 12 (f / 32768)

/-- The pseudo-channel of a frame, of 1,024 frames: 64 banks with 16 frames each (22 R394). -/
def framePch (f : Nat) : Nat := f / 1024 % 32

/-- Where a row of 2 KiB of physical HBM lies: its stack, its pseudo-channel, and its row in all the banks of that (22 R394). -/
def rowPlace (row : Nat) : Fin 12 × Nat × Nat :=
  (frameStack (row / 1024), framePch (row / 1024), row % 1048576)

/-- A row of 2 KiB of physical HBM stands on a resource whose repair step is in progress. -/
def State.rowStalled (s : State) (row : Nat) : Bool :=
  let (stack, pch, own) := rowPlace row
  match Table.get (s.hbmStacks[stack]).steps pch with
  | none => false
  | some (res, unit, _) => res = 2 || unit = own

/-- Some row of a frame is under repair. -/
def State.frameStalled (s : State) (f : Nat) : Bool :=
  match Table.get (s.hbmStacks[frameStack f]).steps (framePch f) with
  | none => false
  | some (res, unit, _) => res = 2 || unit / 1024 = f % 1024

/-- The row of HBM that a byte of a context's memory lies in is under repair. -/
def State.vaStalled (s : State) (x : Ctx) (va : Nat) : Bool :=
  match x.translate va false with
  | .ok a => s.rowStalled (a / 2048)
  | .error _ => false

/-- What is left of each repair step that rows meet, one entry for each step. -/
def State.stepsLeft (s : State) (rows : List Nat) : List Nat :=
  let places := ((rows.filter s.rowStalled).map fun r => let x := rowPlace r; (x.1.val, x.2.1)).eraseDups
  places.map fun x => match Table.get (s.hbmStacks.getD x.1 {}).steps x.2 with
    | some (_, _, t) => t - s.clock
    | none => 0

/-! ### Sign registers (12 R249) -/

/-- A sign-table failure (12 R249). -/
def signTrap {α : Type} (id h sub : Nat) : Except Trap α :=
  .error { cause := .signTable, tval := BitVec.ofNat 64 (id + h * 2 ^ 16 + sub * 2 ^ 24) }

/-- The table bytes of an identifier as the core reads them: LOCAL at issue, HBM when they arrive. -/
def State.signBytes (s : State) (e : BitVec 256) (id : Nat) : Except (Reason × Nat) (List Byte × Option Nat) :=
  if Ent.space e = 1 then s.me.localRd e false (32 * id) 32
  else if Ent.space e = 2 then s.hbmRead (s.me.ctx.getD 64) (Ent.base e + 32 * id) 32
  else .error (.space, 0)

/-- The row of HBM that holds an entry of a sign table. -/
def State.signRows (s : State) (e : BitVec 256) (id : Nat) : List Nat :=
  match Table.get s.ctxs (s.me.ctx.getD 64) with
  | none => []
  | some x => match x.translate (Ent.base e + 32 * id) false with
    | .ok a => [a / 2048]
    | .error _ => []

/-- The cycle in which the bytes of an HBM table arrive: 401 cycles, and the stall of a row under repair (12 R249, 22 R395). -/
def State.signAt (s : State) (e : BitVec 256) (id : Nat) : Nat :=
  s.later s.cur.val 401 + (s.stepsLeft (s.signRows e id)).foldl (· + ·) 0

/-- SGSET (12 R249): the bundle waits for the bytes of an HBM table before issue. -/
def execSgset (g : Guard) (d : BitVec 3) (a b : BitVec 5) (s : State) : Host.Outcome State Fault Refusal :=
  runSlot g { honour := true
              uses := fun s => [((s.me.peekS b.toNat).toNat) % 256]
              waits := fun s => s.me.seq.wait.any fun w => match w with | .sgSent k _ _ => k = s.latch.slot | _ => false
              body := fun s => do
    let (x, s) ← s.readS a.toNat
    let (y, s) ← s.readS b.toNat
    let id := x.toNat % 65536
    let h := y.toNat % 256
    let e := s.entry s.me h
    let arrived := s.me.seq.wait.any fun w => match w with | .sgArrived k => k = s.latch.slot | _ => false
    if Ent.space e = 2 && !arrived then
      let q : SlotWait := .sgSent s.latch.slot (s.signAt e id) (s.signRows e id)
      return { s with latch := { s.latch with reqs := s.latch.reqs ++ [q], honour := true } }
    else if Ent.kind e ≠ 3 ∨ Ent.state e ≠ 2 then signTrap id h 0
    else if id = 0 ∨ Ent.len e < 32 * id + 32 then signTrap id h 1
    else match s.signBytes e id with
      | .error _ => signTrap id h 2
      | .ok (bs, po) =>
        let v := leNat bs
        if v / 2 ^ 144 % 2 = 0 ∨ v / 2 ^ 128 % 65536 ≠ id then signTrap id h 2
        else if po.isSome then signTrap id h 3
        else return s.addPend 1 (.sign d.toNat (BitVec.ofNat 144 (v % 2 ^ 128 + id * 2 ^ 128))) } s

/-! ### Fences (12 R250, R251) -/

/-- A fence takes effect at issue, or at the pass's retirement in replay (04 R95). -/
def State.fence (s : State) (e : HeldEff) : State :=
  let c := s.me
  let h : Held := ⟨s.latch.iter, e⟩
  if c.holds then s.setMe { c with eng := { c.eng with held := c.eng.held ++ [h] } } else s.setMe (c.release [h])

/-- FENCE.scope (12 R250): later engine commands and remote effects wait for the earlier ones; at SYSTEM scope also for the host's and the
peers' answers to their writes (13 R276, R279). -/
def execFenceScope (g : Guard) (x : BitVec 3) (s : State) : Host.Outcome State Fault Refusal :=
  runSlot g { body := fun s => .ok (s.fence (.fence (x = 4))) } s

/-- FENCE.X (12 R251). -/
def execFenceX (g : Guard) (s : State) : Host.Outcome State Fault Refusal :=
  runSlot g { body := fun s => .ok (s.fence .fenceX) } s

/-! ### Semaphores (10 R206, R207, 12 R253, R254) -/

/-- The unloaded bounds of the way to a flag store (12 R253, R254); TQPUSH and TQPOP, which keep their order with SEMSIG, take the same.
(DEDUCED, log 5) -/
def flagBound (die : Nat) (core : Fin 256) : Nat := if die = (dieOf core).val then 20 else 240

/-- SEMSIG (12 R253): the increment is a remote effect on its way. -/
def execSemsig (g : Guard) (a : BitVec 5) (n : BitVec 6) (s : State) : Host.Outcome State Fault Refusal :=
  runSlot g { ban := Core.rpl, endsRegion := true, honour := true, waits := fun s => s.me.fenced, body := fun s => do
    let (x, s) ← s.readS a.toNat
    let f ← s.flagRef x
    let (rid, s) := s.addRemote
    let (k, s) := s.choose (flagBound f.die s.cur)
    return s.send (s.flagOrder (s.clock + k)) (.signal s.cur.val rid f.die f.sem (n.toNat + 1)) } s

/-- SEMWAIT (12 R254): the bundle waits before issue until its decrement is granted. -/
def execSemwait (g : Guard) (a : BitVec 5) (s : State) : Host.Outcome State Fault Refusal :=
  runSlot g { ban := Core.rpl, endsRegion := true, honour := true
              waits := fun s => s.me.seq.wait.any fun w => match w with
                | .semSent k .. => k = s.latch.slot
                | .semGranted k _ _ t => k = s.latch.slot && decide (s.clock < t)
                | _ => false
              body := fun s => do
    let (x, s) ← s.readS a.toNat
    let f ← s.flagRef x
    let granted := s.me.seq.wait.any fun w => match w with | .semGranted k .. => k = s.latch.slot | _ => false
    let sem := (Table.get (s.dies.getD f.die Die.reset).sems f.sem).getD {}
    if sem.ovf then trapWith .flagOverflow (BitVec.ofNat 64 f.rel)
    if granted then
      let s := s.setMe s.me.seesEngines
      return { s with latch := { s.latch with spent := s.latch.spent ++ [s.latch.slot] } }
    let q : SlotWait := .semSent s.latch.slot f.die f.sem 0
    return { s with latch := { s.latch with reqs := s.latch.reqs ++ [q], honour := true } } } s

/-! ### Barriers and token queues (12 R255, R256) -/

/-- BARR (12 R255): the bundle issues, the core then waits for the release. -/
def execBarr (g : Guard) (d : BitVec 3) (x : BitVec 2) (s : State) : Host.Outcome State Fault Refusal :=
  runSlot g { ban := Core.rpl, endsRegion := true, honour := true, waits := fun s => s.me.fenced, body := fun s => do
    let grp ← s.groupRef x.toNat
    let again := s.latch.modes.any fun m => match m with | .barrier x _ _ _ => x = grp | _ => false
    if again || (match Table.get s.groups grp with | some e => e.arrived.getLsbD s.cur.val | none => false) then
      trapWith .group (x.setWidth 64)
    let (k, s) := s.choose 149
    let s := s.send (s.clock + 1 + k) (.arrive s.cur.val grp)
    return { s with latch := { s.latch with modes := s.latch.modes ++ [.barrier grp d.toNat none s.latch.slot] } } } s

/-- The landing latency of a token-queue instruction (12 R239). -/
def tqLatency (die : Nat) (core : Fin 256) : Nat := if die = (dieOf core).val then 64 else 512

/-- TQPUSH (12 R256). -/
def execTqpush (g : Guard) (d : BitVec 3) (a b : BitVec 5) (s : State) : Host.Outcome State Fault Refusal :=
  runSlot g { ban := Core.rpl, endsRegion := true, honour := true, lands := true, waits := fun s => s.me.fenced, body := fun s => do
    let (x, s) ← s.readS a.toNat
    let (v, s) ← s.readS b.toNat
    let (die, q) ← s.tqRef x
    let l := tqLatency die s.cur
    let (id, s) := s.addLanding l
    let (rid, s) := s.addRemote
    let (k, s) := s.choose (flagBound die s.cur)
    return s.send (s.flagOrder (s.clock + k)) (.tqPush s.cur.val id d.toNat die q s.latch.slot (s.clock + l - 1) rid v) } s

/-- TQPOP (12 R256). -/
def execTqpop (g : Guard) (d a : BitVec 5) (k : BitVec 3) (s : State) : Host.Outcome State Fault Refusal :=
  runSlot g { ban := Core.rpl, endsRegion := true, honour := true, lands := true, waits := fun s => s.me.fenced, body := fun s => do
    let (x, s) ← s.readS a.toNat
    let (die, q) ← s.tqRef x
    let l := tqLatency die s.cur
    let (id, s) := s.addLanding l
    let (rid, s) := s.addRemote
    let (n, s) := s.choose (flagBound die s.cur)
    return s.send (s.flagOrder (s.clock + n)) (.tqPop s.cur.val id k.toNat d.toNat die q s.latch.slot (s.clock + l - 1) rid) } s

/-! ### Gangs (10 R204, R205, 12 R257) -/

/-- FUSE (10 R204). -/
def execFuse (g : Guard) (m : BitVec 4) (s : State) : Host.Outcome State Fault Refusal :=
  runSlot g { ban := Core.rpl, endsRegion := true, body := fun s => do
    let k := s.cur.val % 4
    if !m.getLsbD k || m.toNat = 2 ^ k || s.me.gstate ≠ 0 then .error { cause := .gang, sub := 0 }
    else .ok { s with latch := { s.latch with modes := s.latch.modes ++ [.fusing m s.clock s.latch.slot] } } } s

/-- DECOUPLE (10 R205): at the end of the cycle this member is decoupled, and every other with it (`State.spreadDecouple`). -/
def execDecouple (g : Guard) (s : State) : Host.Outcome State Fault Refusal :=
  runSlot g { ban := Core.rpl, endsRegion := true, body := fun s => do
    if s.me.gstate ≠ 1 then .ok s
    else .ok (s.addPend 1 (.sys .role (2#64 <<< 36) (3#64 <<< 36))) } s

/-- REJOIN (10 R205). -/
def execRejoin (g : Guard) (s : State) : Host.Outcome State Fault Refusal :=
  runSlot g { ban := Core.rpl, endsRegion := true, body := fun s => do
    if s.me.gstate ≠ 2 then .ok s
    else .ok { s with latch := { s.latch with modes := s.latch.modes ++ [.rejoining s.clock s.latch.slot] } } } s

/-! ### Tasks and futures (10 R212 to R216, 12 R259 to R261) -/

/-- A loop-record field. -/
def recField (r : BitVec 512) (off n : Nat) : Nat := r.toNat / 2 ^ (8 * off) % 2 ^ (8 * n)

/-- The futures that a record names (10 R212). -/
def recFutures (r : BitVec 512) : List Nat :=
  ((List.range 4).filter fun i => recField r (0x10 + 2 * i) 2 / 256 % 2 = 1).map fun i => recField r (0x10 + 2 * i) 1

/-- A record is valid (10 R212) for an image of some code length and a context's handle table. -/
def recValid (codelen : Nat) (kind : Nat → Nat) (r : BitVec 512) : Bool :=
  let pro := recField r 0 2
  let ker := recField r 2 2
  let epi := recField r 4 2
  decide (pro < 8192 ∧ ker < 8192 ∧ epi < 8192) && decide (pro ≤ ker ∧ ker < epi ∧ epi < codelen) &&
    decide (recField r 0x0C 2 = 0) && decide (recField r 0x0E 2 = 1) && decide (recField r 0x38 8 = 0) &&
    ((List.range 4).all fun i => decide (recField r (0x10 + 2 * i) 2 < 512)) &&
    ((recFutures r).all fun h => decide (kind h = 1 ∨ kind h = 2))

/-- The entry of a context's table as a launch resolves it (15 R307, R316). -/
def State.launchEntry (s : State) (launch h : Nat) : BitVec 256 :=
  match Table.get s.launches launch with
  | none => Ent.fresh
  | some l => match Table.get s.ctxs l.ctx with
    | none => Ent.fresh
    | some x =>
      let e := x.entry h
      if Ent.kind e = 2 then x.resolve e ((Table.get l.bindings h).getD (Ent.auxw e)) else e

/-- A context's entry as a launch resolves it, or as the table has it once the launch is gone. -/
def State.entryFor (s : State) (launch ctx h : Nat) : BitVec 256 :=
  match Table.get s.launches launch with
  | some _ => s.launchEntry launch h
  | none => s.homeEntry ctx h

/-- The page that a fetch request names: that of its handle in this cycle, under its launch's binding (15 R309, R316). -/
def State.fetchPage (s : State) (r : FetchReq) : Nat := Ent.auxw (s.entryFor r.launch r.ctx r.handle)

/-- A record that takes a place of a task store: all but those that a launch starts on its cores (10 R196, R215). -/
def TaskRec.stored (t : TaskRec) : Bool := match t.state with | .first _ => false | _ => true

/-- A record is bound already. -/
def Die.bound (d : Die) (id : Nat) : Bool := d.binds.any fun b => b.act = .start id || b.act = .resume id

/-- The records that a launch holds in every task store, each until it is bound (10 R215). -/
def State.heldRecords (s : State) (launch : Nat) : Nat :=
  (s.dies.toList.map fun d => (d.tasks.filter fun t => t.launch = launch && t.stored && !d.bound t.id).length).foldl (· + ·) 0

/-- Demand fetches for the weight handles among these that hold no staged copy (10 R216, 15 R309). (DEDUCED, log 21) -/
def State.demand (s : State) (d : Fin 4) (launch : Nat) (hs : List Nat) : State :=
  match Table.get s.launches launch with
  | none => s
  | some l => hs.foldl (fun s h =>
      let e := s.launchEntry launch h
      if Ent.kind e = 2 ∧ (Ent.state e = 0 ∨ Ent.state e = 3) then
        s.send (s.clock + 1) (.fetchReq d { ctx := l.ctx, handle := h, launch := launch, demand := true, prosp := false })
      else s) s

/-- A record put into a die's task store, parked or ready (10 R216); false when there is no room (12 R259). -/
def State.putTask (s : State) (d : Fin 4) (launch : Nat) (r : BitVec 512) : Bool × State :=
  match Table.get s.launches launch with
  | none => (false, s)
  | some l =>
    if l.quota ≤ s.heldRecords launch ∨ 16384 ≤ (s.dies[d].tasks.filter TaskRec.stored).length then (false, s)
    else
      let shut := (recFutures r).eraseDups.filter fun h => let st := Ent.state (s.launchEntry launch h); !(st = 2 ∨ st = 4)
      let t (id : Nat) : TaskRec := { id := id, launch := launch, record := r, prio := BitVec.ofNat 8 (recField r 6 1),
                                      state := if shut.isEmpty then .ready else .parked shut }
      let s := s.onDie d fun x => { x with tasks := x.tasks ++ [t x.nextTask], nextTask := x.nextTask + 1 }
      (true, s.demand d launch shut)

/-- TASKPUT (12 R259). (DEDUCED, log 21) -/
def execTaskput (g : Guard) (d : BitVec 3) (a b : BitVec 5) (s : State) : Host.Outcome State Fault Refusal :=
  runSlot g { ban := Core.rpl, endsRegion := true, honour := true, lands := true, waits := fun s => s.me.fenced
              uses := fun s => [((s.me.peekS a.toNat).toNat) % 256]
              body := fun s => do
    let (x, s) ← s.readS a.toNat
    let (off, s) ← s.readS b.toNat
    let h := x.toNat % 256
    checkAligned h off.toNat 64
    let land (s : State) (ok : Bool) : State :=
      let (id, s) := s.addLanding 64
      s.sendLanding (s.clock + 1) s.cur.val id [.pred d.toNat ok]
    match s.readLocal h (s.entry s.me h) off.toNat 64 with
    | (none, true, s) => return s
    | (none, false, s) => return land s false
    | (some bs, _, s) =>
      let r := BitVec.ofNat 512 (leNat bs)
      match s.me.run with
      | none => return land s false
      | some run =>
        if !recValid (hdr (s.image s.me) 6 2) (fun h => Ent.kind (s.launchEntry run.launch h)) r then trapWith .taskRecord off
        let (ok, s) := s.putTask (dieOf s.cur) run.launch r
        return land s ok } s

/-- A future trap (12 R260, R261). -/
def futureTrap {α : Type} (h sub : Nat) : Except Trap α :=
  .error { cause := .future, sub := BitVec.ofNat 4 sub, tval := BitVec.ofNat 64 (h + sub * 256) }

/-- FUTRD (12 R260): the core's later reads of its scratchpad follow what its filler's copies have written (13 R267, R274). -/
def execFutrd (g : Guard) (d a : BitVec 5) (s : State) : Host.Outcome State Fault Refusal :=
  runSlot g { ban := Core.rpl, uses := fun s => [((s.me.peekS a.toNat).toNat) % 256], body := fun s => do
    let (x, s) ← s.readS a.toNat
    let h := x.toNat % 256
    let e := s.entry s.me h
    if !s.me.seq.entryRegion then trapOf .entryRegion
    else if Ent.space e = 0 ∨ Ent.state e = 4 then futureTrap h 1
    else if Ent.kind e ≠ 1 ∧ Ent.kind e ≠ 2 then futureTrap h 0
    else if Ent.kind e = 1 ∧ Ent.state e = 3 then
      .error { cause := .poisonConsumption, sub := 5, tval := BitVec.ofNat 64 (h + s.memUnit * 256) }
    else if Ent.state e ≠ 2 then return { s with latch := { s.latch with squash := s.latch.squash ++ [h] } }
    else (s.setMe s.me.seesEngines).writeS d.toNat 2 (BitVec.ofNat 64 (if Ent.kind e = 1 then Ent.auxw e else Ent.base e)) } s

/-- FUTFILL (12 R250, R261): the fence, the request, the answer. (DEDUCED, log 21) -/
def execFutfill (g : Guard) (a b : BitVec 5) (s : State) : Host.Outcome State Fault Refusal :=
  let sent (s : State) : Bool := s.me.seq.wait.any fun w => match w with | .futSent k .. => k = s.latch.slot | _ => false
  let answer (s : State) : Option (Option (BitVec 4)) :=
    s.me.seq.wait.findSome? fun w => match w with | .futAnswer k r => if k = s.latch.slot then some r else none | _ => none
  runSlot g { ban := Core.rpl, endsRegion := true, honour := true
              uses := fun s => [((s.me.peekS a.toNat).toNat) % 256]
              locks := fun s => sent s
              waits := fun s => sent s || ((answer s).isNone && (!s.me.eng.remote.isEmpty || s.me.fenced))
              body := fun s => do
    let (x, s) ← s.readS a.toNat
    let (v, s) ← s.readS b.toNat
    let h := x.toNat % 256
    match answer s with
    | some none => return s
    | some (some sub) => futureTrap h sub.toNat
    | none =>
      let q : SlotWait := .futSent s.latch.slot h (v.setWidth 32)
      return { s with latch := { s.latch with reqs := s.latch.reqs ++ [q], locked := true } } } s

end Sys2Proof.Machine
end

