-- ==== Sys2Proof/Machine/Engine.lean ====
section
/-! DEFINITION. Engines: how a command's bytes are reached (11 R220, R222, 13 R271), its violations, its faults, its
completion, and the transfer that a copy makes (14 R286 to R292, 16 R333 to R339). -/

namespace Sys2Proof.Machine

/-! ### Bytes behind a captured handle -/

/-- An open value for place i of the choice in hand. (DESIGN CHOICE, log 1) -/
def State.freeAt (s : State) (i : Nat) : Nat := Config.freeNat ((s.free + 1) * 2 ^ 80 + i)

/-- The choice in hand used up. (DESIGN CHOICE, log 1) -/
def State.bump (s : State) : State := { s with free := s.free + 1 }

/-- A byte of a scratchpad as it stood before the store with a number (13 R271). -/
def Store.byteAt (t : Store) (point a : Nat) : Byte :=
  match t.old.find? fun o => decide (point ≤ o.seq) && decide (o.addr = a / 4 * 4) with
  | some o => BitVec.ofNat 8 (o.old.toNat / 256 ^ (a % 4))
  | none => t.spad.read a

/-- The writes to the unit of a place that a reader follows: those of the core's stores before its FENCE.X, those of the engines that it has
seen complete (13 R271, R272), and those whose values of the unit's words have been read (13 R266). -/
def Store.floorAt (t : Store) (e : Epoch) (u a : Nat) : Nat :=
  ((t.old.filter fun o => decide (o.addr / u = a / u) && decide (o.seq < if o.eng then e.eng else e.own)).map fun o => o.seq + 1).foldl max
    (((t.seen.filter fun x => decide (x.1 / u = a / u)).map Prod.snd).foldl max 0)

/-- The bytes that race whole with the one at a local address: the unit of the read, or the 8 bytes of a .64 atomic that no reader follows yet
(13 R264). -/
def Store.unitAt (t : Store) (e : Epoch) (unit a : Nat) : Nat :=
  if unit < 8 && t.old.any fun o => o.pair && decide (o.addr / 8 = a / 8) && decide (t.floorAt e 8 a ≤ o.seq) then 8 else unit

/-- The number of the write up to which an engine of core c sees the writes to a place: one choice for each unit that races whole (13 R264,
R271, 08 R170). (DEDUCED, log 4) -/
def State.racePoint (s : State) (c : Fin 256) (epoch : Epoch) (unit a : Nat) : Nat :=
  let t := (s.core c).sto
  let u := t.unitAt epoch unit a
  let low := t.floorAt epoch u a
  low + s.freeAt ((c.val * 64 + u) * 2 ^ 32 + a / u) % (t.storeSeq - low + 1)

/-- No engine reads a value of a word older than the one that this read has taken (13 R266). -/
def State.sawBytes (s : State) (c : Fin 256) (epoch : Epoch) (unit : Nat) (as : List Nat) : State :=
  let point := s.racePoint c epoch unit
  s.onCore c fun k => { k with sto := k.sto.see (as.filter fun a => k.sto.old.any fun o => o.addr = a / 4 * 4) point }

/-- A byte that an engine of core c reads from the core's own scratchpad (13 R271). (DEDUCED, log 4) -/
def State.ownByte (s : State) (c : Fin 256) (epoch : Epoch) (unit a : Nat) : Byte :=
  (s.core c).sto.byteAt (s.racePoint c epoch unit a) a

/-- A core runs a context. -/
def State.runsCtx (s : State) (c ctx : Nat) : Bool := (s.core (coreId c)).ctx = some ctx

/-- A window of a context. -/
def State.window (s : State) (ctx : Nat) (net : Bool) (w : Nat) : Option Window :=
  (Table.get s.ctxs ctx).bind fun x => Table.get (if net then x.netWin else x.hostWin) w

/-- Why n bytes at offset o of a captured entry fail for an engine, before translation (11 R222, 16 R338). -/
def engFail (e : BitVec 256) (spaces : Nat → Bool) (o n : Nat) (write : Bool) : Option (Reason × Nat) :=
  if Ent.space e = 0 then some (.invalid, o)
  else if Ent.state e = 4 then some (.retHandle, o)
  else if !spaces (Ent.space e) then some (.space, o)
  else if write && decide (Ent.kind e = 2) then some (.kind, o)
  else if write && (Ent.ronly e || Ent.kind e = 3 || Ent.space e = 3) then some (.ronly, o)
  else if Ent.len e < o + n then some (.bounds, max o (Ent.len e))
  else none

/-- Physical HBM addresses of n virtual bytes, or the first failure. -/
def State.hbmPlaces (s : State) (ctx va n : Nat) (write : Bool) : Except (Reason × Nat) (List Nat) :=
  match Table.get s.ctxs ctx with
  | none => .error (.notMapped, 0)
  | some x => (List.range n).foldr (fun i acc =>
      match x.translate (va + i) write with
      | .error r => .error (r, i)
      | .ok a => acc.map fun l => a :: l) (.ok [])

/-- How an engine command of core c reaches bytes through a captured handle: `unit` is the size that races whole. (DEDUCED, log 4; DESIGN CHOICE, log 17) -/
def State.engRd (s : State) (c : Fin 256) (ctx : Nat) (epoch : Epoch) (spaces : Nat → Bool) (unit : Nat) (h : HInfo) (write : Bool) : Rd :=
  fun o n =>
  match engFail h.e spaces o n write with
  | some f => .error f
  | none =>
    let b := Ent.base h.e + o
    match Ent.space h.e with
    | 1 =>
      let a := localAddr h.e o
      .ok ((List.range n).map fun i => s.ownByte c epoch unit (a + i), (firstPoison (s.core c).sto.poison a n).map fun i => o + i)
    | 2 =>
      match s.hbmPlaces ctx b n write with
      | .error (r, i) => .error (r, o + i)
      | .ok as => .ok (as.map s.hbm.read, ((List.range n).find? fun i => s.hbmPoison.contains (as.getD i 0 / 32)).map fun i => o + i)
    | 3 =>
      match Table.get s.ctxs ctx with
      | none => .error (.bounds, o)
      | some x => .ok (x.flash.readN b n, ((List.range n).find? fun i => x.flashBad.contains ((b + i) / 16384)).map fun i => o + i)
    | 4 =>
      if s.runsCtx (Ent.rcore h.e) ctx then
        let t := (s.core (coreId (Ent.rcore h.e))).sto
        let a := bankAddr (Ent.rbank h.e) b
        .ok (t.spad.readN a n, (firstPoison t.poison a n).map fun i => o + i)
      else .error (.remoteCtx, o)
    | 5 =>
      match s.window ctx false (Ent.window h.e) with
      | none => .error (.bounds, o)
      | some w => if w.len < b + n then .error (.bounds, o + (max b w.len - b))
        else if write && !w.w then .error (.ronly, o)
        else if Ent.window h.e = 63 then .ok (List.replicate n 0, none)
        else .ok (s.host.readN (w.base.toNat + b) n,
          ((List.range n).find? fun i => s.hostPoison.contains ((w.base.toNat + b + i) / 32)).map fun i => o + i)
    | _ =>
      match s.window ctx true (Ent.window h.e) with
      | none => .error (.bounds, o)
      | some w => if w.len < b + n then .error (.bounds, o + (max b w.len - b))
        else if write && !w.w then .error (.ronly, o)
        else .ok ((List.range n).map fun i => BitVec.ofNat 8 (s.freeAt (b + i)), none)

/-- A read through an engine buffer in which sectors of a source have been struck: their bytes carry poison (22 R379). -/
def struckRd (struck : List Nat) (rd : Rd) : Rd :=
  if struck.isEmpty then rd
  else fun o n => (rd o n).map fun x =>
    (x.1, x.2.or (((List.range n).find? fun i => struck.contains ((o + i) / 32)).map fun i => o + i))

/-- HBM bytes written; whole sectors become clean, the listed ones poisoned (22 R379). -/
def State.hbmWrite (s : State) (cells : List Host.Cell) (poison : List Nat) : State :=
  { s with hbm := s.hbm.writeCells cells
           hbmPoison := poison.foldl setInsert (s.hbmPoison.filter fun k => !((wholeSectors cells).contains k)) }

/-- Host bytes written, with the poison that they carry (22 R379). -/
def State.hostWrite (s : State) (cells : List Host.Cell) (poison : List Nat) : State :=
  { s with host := s.host.writeCells cells
           hostPoison := poison.foldl setInsert (s.hostPoison.filter fun k => !((wholeSectors cells).contains k)) }

/-- Runs of consecutive cells. -/
def cellRuns : List Host.Cell → List (Nat × List Byte)
  | [] => []
  | (a, b) :: r =>
    match cellRuns r with
    | (x, l) :: t => if x = a + 1 then (a, b :: l) :: t else (a, [b]) :: (x, l) :: t
    | [] => [(a, [b])]

/-- A command of a core by its number. -/
def Core.cmd (c : Core) (id : Nat) : Option Cmd := (c.eng.all 0 ++ c.eng.all 1 ++ c.eng.all 2).find? fun x => x.id = id

/-- The number of the writer of a copy to the wake space: core, context, handle, pc, the command modulo 16, and BASE of the handle. -/
def coreWriter (core ctx handle pc cmd base : Nat) : Nat :=
  2 ^ 42 * base + 2 ^ 40 + 2 ^ 35 * (cmd % 16) + 2 ^ 22 * pc + 2 ^ 14 * handle + 2 ^ 8 * ctx + core

/-- Bytes of a command written behind a captured handle, at offsets that have passed their checks; `bad` lists the
offsets that carry poison. -/
def State.engWrite (s : State) (c : Fin 256) (cmd : Nat) (ctx : Nat) (h : HInfo) (cells : List Host.Cell) (bad : List Nat) : State :=
  let sec (f : Nat → Nat) : List Nat := (bad.map fun o => f o / 32).eraseDups
  match Ent.space h.e with
  | 1 =>
    let f := localAddr h.e
    s.onCore c fun k => { k.overtake (cells.map fun x => (f x.1, x.2)) with sto := k.sto.putRacing (cells.map fun x => (f x.1, x.2)) (sec f) }
  | 4 =>
    let f (o : Nat) : Nat := bankAddr (Ent.rbank h.e) (Ent.base h.e + o)
    s.onCore (coreId (Ent.rcore h.e)) fun k => { k.overtake (cells.map fun x => (f x.1, x.2)) with sto := k.sto.putRacing (cells.map fun x => (f x.1, x.2)) (sec f) }
  | 2 =>
    match Table.get s.ctxs ctx with
    | none => s
    | some x =>
      let f (o : Nat) : Nat := match x.translate (Ent.base h.e + o) true with | .ok a => a | .error _ => 0
      s.hbmWrite (cells.map fun y => (f y.1, y.2)) (sec f)
  | 5 =>
    match s.window ctx false (Ent.window h.e) with
    | none => s
    | some w =>
      if Ent.window h.e = 63 then
        -- the wake space (24 R407): each run of bytes is one write
        let pc := (((s.core c).cmd cmd).map fun x => x.pc.toNat).getD 0
        (cellRuns cells).foldl (fun s r =>
          s.send s.clock (.wake (coreWriter c.val ctx h.h pc cmd (Ent.base h.e)) (Ent.base h.e + r.1) r.2)) s
      else
        let f (o : Nat) : Nat := w.base.toNat + Ent.base h.e + o
        s.hostWrite (cells.map fun y => (f y.1, y.2)) (sec f)
  | 6 =>
    { s with netOut := s.netOut ++ (cellRuns cells).map fun r =>
        ⟨c.val, cmd, ctx, Ent.window h.e, Ent.base h.e + r.1, r.2, (List.range r.2.length).filter fun i => bad.contains (r.1 + i)⟩ }
  | _ => s

/-- A violation of an engine command, logged as it is found (11 R230, R231); `phys` is where the failing byte lies from BASE on. -/
def State.engViolate (s : State) (c : Fin 256) (cmd : Cmd) (unit : Nat) (h : HInfo) (off byte : Nat) (r : Reason) (phys : Nat := byte)
    (cyc : Nat := s.clock) : State :=
  let va := if Ent.space h.e = 2 then Ent.base h.e + phys else 0
  let s := s.onCore c fun k => { k with sys := { k.sys with
    viol := true, tval := if k.sys.mode then k.sys.tval else violTval h.h off } }
  s.logViolation cmd.ctx byte h.h r c.val unit cmd.pc.toNat va cyc

/-- A violation found before the command's completion: logged now, VIOL and TVAL set when it completes (11 R230). -/
def State.engLater (s : State) (c : Fin 256) (cmd : Cmd) (unit : Nat) (h : HInfo) (off byte : Nat) (r : Reason) (phys : Nat := byte)
    (cyc : Nat := s.clock) : State :=
  let va := if Ent.space h.e = 2 then Ent.base h.e + phys else 0
  let s := s.logViolation cmd.ctx byte h.h r c.val unit cmd.pc.toNat va cyc
  s.onCore c fun k => { k with eng := { k.eng with queues := k.eng.queues.map fun q => q.map fun x =>
    if x.id = cmd.id then { x with prog := { x.prog with viol := some (violTval h.h off), logged := x.prog.logged ++ [h.h] } } else x } }

/-- What a command's completion shows of its violations (11 R230), its flags and its first NP event (05 R112, R114). -/
def Core.showDone (k : Core) (cmd : Cmd) (clock : Nat) : Core :=
  let k := match cmd.prog.viol with
    | some v => { k with sys := { k.sys with viol := true, tval := if k.sys.mode then k.sys.tval else v } }
    | none => k
  k.raiseFlags cmd.prog.flags (cmd.prog.np.map Prod.fst) (cmd.prog.np.map fun p => (clock, p.2))

/-- The failed accesses of a subscription logged. -/
def State.engViolates (s : State) (c : Fin 256) (cmd : Cmd) (unit : Nat) (l : List Viol) (cyc : Nat := s.clock) : State :=
  (firstEach l).foldl (fun s v => s.engViolate c cmd unit v.h v.off v.byte v.why v.phys cyc) s

/-- A command as its queue holds it now. -/
def State.fresh (s : State) (c : Fin 256) (cmd : Cmd) : Cmd := ((s.core c).cmd cmd.id).getD cmd

/-- The failed accesses of a command logged, once for each of its handles, a restart included (11 R230). -/
def State.cmdViolates (s : State) (c : Fin 256) (cmd : Cmd) (unit : Nat) (l : List Viol) (cyc : Nat := s.clock) : State :=
  ((firstEach l).filter fun v => !(s.fresh c cmd).prog.logged.contains v.h.h).foldl
    (fun s v => s.engLater c cmd unit v.h v.off v.byte v.why v.phys cyc) s

/-! ### Page tables (11 R236) -/

/-- A context's page tables. -/
def State.pages (s : State) (ctx : Nat) : Option (Table (BitVec 64) × Table (BitVec 64)) := (Table.get s.ctxs ctx).map fun x => (x.l1, x.l2)

/-- A context with other page tables in place of its own. -/
def State.withPages (s : State) (ctx : Nat) (p : Option (Table (BitVec 64) × Table (BitVec 64))) : State :=
  match p with
  | some p => s.onCtx ctx fun x => { x with l1 := p.1, l2 := p.2 }
  | none => s

/-- What a command does with its bytes: its accesses have been translated as it started, and complete against the old frames (11 R236).
(DEDUCED, log 45) -/
def State.translated (s : State) (cmd : Cmd) (f : State → State) : State :=
  match cmd.prog.pages with
  | some p => (f (s.withPages cmd.ctx (some p))).withPages cmd.ctx (s.pages cmd.ctx)
  | none => f s

/-! ### Flags, queues, completion -/

/-- A semaphore of a die. -/
def Die.sem (d : Die) (f : Nat) : Sem := (Table.get d.sems f).getD {}

/-- An increment applied at a flag store (10 R207). -/
def State.increment (s : State) (die sem n : Nat) : State :=
  s.onDie (Fin.ofNat 4 die) fun d =>
    let x := d.sem sem
    let v := x.count.toNat + n
    { d with sems := Table.set d.sems sem (if v < 2 ^ 32 then { x with count := BitVec.ofNat 32 v } else ⟨0xFFFFFFFF, true⟩) }

/-- A change of one command of a core, wherever it stands. -/
def State.onCmd (s : State) (c : Fin 256) (id : Nat) (f : Cmd → Cmd) : State :=
  s.onCore c fun k => { k with eng := { k.eng with
    queues := k.eng.queues.map fun q => q.map fun x => if x.id = id then f x else x
    fault := k.eng.fault.map fun o => o.map fun x => if x.id = id then f x else x } }

/-- The token counts from a queue towards its neighbours: load→compute, compute→load, compute→store, store→compute (14 R283). -/
def tokenTo (queue : Nat) (next : Bool) : Option Nat :=
  match queue, next with
  | 0, true => some 0
  | 1, false => some 1
  | 1, true => some 2
  | 2, false => some 3
  | _, _ => none

/-- The token count that a pop bit takes from: the neighbour's count towards this queue. -/
def tokenFrom (queue : Nat) (next : Bool) : Option Nat :=
  match queue, next with
  | 0, true => some 1
  | 1, false => some 0
  | 1, true => some 3
  | 2, false => some 2
  | _, _ => none

/-- A token count changed. -/
def Core.bumpToken (c : Core) (t : Option Nat) (up : Bool) : Core :=
  match t with
  | none => c
  | some i =>
    let v := c.eng.tokens.getD i 0
    { c with eng := { c.eng with tokens := vset c.eng.tokens i (if up then v + 1 else v - 1) } }

/-- The command leaves its queue (14 R284) and ends as a remote effect (12 R250). -/
def Core.retireCmd (c : Core) (cmd : Cmd) : Core :=
  { c with eng := { c.eng with
      queues := c.eng.queues.map fun q => q.filter fun x => x.id ≠ cmd.id
      remote := c.eng.remote.filter fun x => x ≠ cmd.remote } }

/-- The completion of a command (14 R283, R284, 16 R330, R331): tokens, release, result, departure. -/
def State.finish (s : State) (c : Fin 256) (cmd : Cmd) (release : Bool) (result : Option Word) : State :=
  let s := s.onCore c fun k =>
    let k := (k.retireCmd cmd).showDone ((k.cmd cmd.id).getD cmd) s.clock
    let k := if cmd.thp then k.bumpToken (tokenTo cmd.queue false) true else k
    let k := if cmd.thn then k.bumpToken (tokenTo cmd.queue true) true else k
    match cmd.rq, result with
    | some (q, id), some v => k.land (.push q id v none)
    | _, _ => k
  match cmd.rel with
  | some f => if release then s.increment f.die f.sem 1 else s
  | none => s

/-- A fault's command in its queue's fault slot, its event pending (21 R371); behind an earlier fault it waits in its queue, and starts nothing.
(DEDUCED, log 20) -/
def Core.intoSlot (k : Core) (cmd : Cmd) (req : TrapReq) : Core :=
  if (k.eng.fault.getD cmd.queue none).isSome then
    let x : Cmd := { cmd with prog := { cmd.prog with pending := some req, waiting := true } }
    { k with eng := { k.eng with queues := k.eng.queues.map fun (q : List Cmd) => q.map fun y => if y.id = cmd.id then x else y } }
  else
    let k : Core := { k with
      eng := { k.eng with
        queues := k.eng.queues.map fun (q : List Cmd) => q.filter fun x => x.id ≠ cmd.id
        fault := vset k.eng.fault cmd.queue (some { cmd with prog := { cmd.prog with pending := none } }) } }
    if k.run.isNone then k.dropFault cmd.queue else { k with seq := { k.seq with events := k.seq.events ++ [req] } }

/-- A fault (21 R368, R371): the command moves to its queue's fault slot, the event is pending with the positions of its record; `keep` is
the committed position from which a restart goes on. -/
def State.faultAs (s : State) (c : Fin 256) (cmd : Cmd) (t : Trap) (keep commit spec : Nat) : State :=
  let now := (s.fresh c cmd).prog
  let prog : Progress := { cmd.prog with
    start := none, due := none, commit := keep, spec := spec, tile := [], bad := none, viol := now.viol, logged := now.logged
    leaseReq := if t.cause = Cause.lease then some 64 else none }
  let req : TrapReq :=
    { trap := t, kind := .s, slot := cmd.slot, eng := true, queue := BitVec.ofNat 2 cmd.queue, commit := BitVec.ofNat 20 commit,
      spec := BitVec.ofNat 20 spec }
  s.onCore c fun k => k.intoSlot { cmd with prog := prog } req

/-- A fault while running. -/
def State.faultCmd (s : State) (c : Fin 256) (cmd : Cmd) (t : Trap) (commit spec : Nat) : State := s.faultAs c cmd t commit commit spec

/-- A fault at the start: its record shows positions of zero, also of a command that is started again (08 R165, 09 R182, 16 R332). -/
def State.faultStart (s : State) (c : Fin 256) (cmd : Cmd) (t : Trap) : State :=
  s.faultAs c { cmd with prog := { cmd.prog with acq := .idle } } t cmd.prog.commit 0 0

/-! ### Durations (14 R286, 24 R420) -/

/-- The base and the bytes per cycle of a copy by its slower space (14 R286). -/
def farEnd (c : Fin 256) (e : BitVec 256) : Nat × Nat :=
  match Ent.space e with
  | 2 => (400, 512)
  | 3 => (4200, 1024)
  | 4 =>
    let r := Ent.rcore e
    if r / 4 = c.val / 4 then (40, 64) else if r / 64 = c.val / 64 then (120, 64) else (580, 64)
  | 5 => (1400, 64)
  | 6 => (6000, 128)
  | _ => (4, 256)

/-- The slower of two far ends. -/
def slower (a b : Nat × Nat) : Nat × Nat := if a.1 < b.1 then b else a

/-! ### Copies (16 R333 to R339) -/

/-- Which copy: COPY, COPY2, GATH, MCAST by opcode, and .T. -/
structure CopyKind where
  op : Nat
  t : Bool
  deriving DecidableEq, Repr

/-- The dimensions walked and named (16 R334). -/
def CopyKind.named (k : CopyKind) : Nat := if k.op = 0x48 then 1 else 5

/-- The count of a dimension from one map (16 R333). -/
def mapCount (m : BitVec 512) (d : Nat) : Nat := TMap.size m d - TMap.org m d

/-- The counts of a copy's source index space (16 R333, R335); an error where both maps wrap. -/
def copyCounts (k : CopyKind) (dst src : BitVec 512) : Except Unit (List Nat) :=
  (List.range 5).foldr (fun d acc =>
    match acc with
    | .error u => .error u
    | .ok l =>
      if k.named ≤ d then .ok (1 :: l)
      else if TMap.gather src && decide (d = 4) then .ok (1 :: l)
      else if TMap.gather src && decide (d = 1) then .ok ((TMap.size src 4 - TMap.org src 1) :: l)
      else
        let d' := if k.t then (if d = 0 then 1 else if d = 1 then 0 else d) else d
        if TMap.wrap src d then (if TMap.wrap dst d' then .error () else .ok (mapCount dst d' :: l))
        else .ok (mapCount src d :: l)) (.ok [])

/-- The index at position p of an index space, dimension 0 fastest. -/
def unrank : List Nat → Nat → List Nat
  | [], _ => []
  | n :: r, p => p % n :: unrank r (p / n)

/-- The size of an index space. -/
def volume (n : List Nat) : Nat := n.foldl (· * ·) 1

/-- A plain move (14 R291): both sides decode alike. -/
def plainPair (a b : Fmt) : Bool := a.code = b.code && a.aux = b.aux && a.ssrc = b.ssrc && a.tag = b.tag

/-- Where entry n of a gather list stands in its handle (16 R335); strides are signed (04 R89), and nothing stands below offset 0. -/
def listAt (src : BitVec 512) (n : Nat) : Option Nat :=
  let o := TMap.stride src 4 + 4 * (n : Int)
  if o < 0 then none else some o.toNat

/-- The gather list's entry for row n (16 R335): none when its bytes fail. -/
def gatherEntry (src : BitVec 512) (rd : Rd) (n : Nat) : Option Nat :=
  (listAt src n).bind fun o => match rd o 4 with
    | .ok (bs, _) => some (leNat bs)
    | .error _ => none

/-- The bytes of the gather list's entry for row n carry poison. -/
def listPoison (src : BitVec 512) (rd : Rd) (n : Nat) : Bool :=
  match listAt src n with
  | none => false
  | some o => match rd o 4 with
    | .ok (_, p) => p.isSome
    | .error _ => false

/-- The bytes of the gather list that a copy of n1 rows reads (16 R335). -/
def listBytes (src : BitVec 512) (rd : Rd) (n1 : Nat) : List Nat :=
  if !TMap.gather src then []
  else (List.range n1).flatMap fun i => match listAt src (TMap.org src 1 + i) with
    | none => []
    | some o => match rd o 4 with
      | .ok _ => (List.range 4).map fun k => o + k
      | .error _ => []

/-- The source and destination places of every element of a copy, in element order, with i1 and the destination's i1. -/
def copyPlaces (k : CopyKind) (n : List Nat) (dst src : BitVec 512) (sw dw : Nat) (rd : Rd) : List (Nat × Loc × Nat × Loc) :=
  (List.range (volume n)).map fun p =>
    let i := unrank n p
    let i1 := i.getD 1 0
    let x1 := if TMap.gather src then some (gatherEntry src rd (TMap.org src 1 + i1)) else none
    let j := if k.t then [i1, i.getD 0 0, i.getD 2 0, i.getD 3 0, i.getD 4 0] else i
    (i1, TMap.locate src (sw = 4) k.named i x1, j.getD 1 0, TMap.locate dst (dw = 4) k.named j none)

/-- The width of the elements of a side. -/
def Fmt.width (f : Fmt) : Nat := fmtWidth f.code.toNat

/-- Permutation of element positions from source order to destination order under .T: i1 fastest. -/
def swapOrder (n : List Nat) (p : Nat) : Nat :=
  let a := n.getD 0 1
  let b := n.getD 1 1
  let q := p / (a * b)
  let r := p % (a * b)
  q * (a * b) + r % a * b + r / a

/-- Values rotated along chunks of n consecutive elements, a last block filled up with zeros (06 R122), with the flags; a poisoned source
poisons its block. -/
def rotateChunks (code : Nat) (mask : BitVec 128) (fwd : Bool) (n : Nat) (xs : List (Num × Bool)) : List (Num × Bool) × List Flags :=
  let b := tagB code
  (List.range (xs.length / max n 1)).foldl (fun acc i =>
    let row := (xs.drop (i * n)).take n
    (List.range (cdiv n b)).foldl (fun acc j =>
      let blk := (row.drop (j * b)).take b
      let (ys, fl) := rotateBlock code mask fwd (blk.map Prod.fst ++ List.replicate (b - blk.length) (.zero false))
      let po := blk.any Prod.snd
      (acc.1 ++ (ys.take blk.length).map fun y => (y, po), acc.2 ++ blk.map fun _ => fl)) acc) ([], [])

/-- The values of a conversion with its transform, in source element order (06 R124, 16 R337). -/
def transform (src dst : Tag) (mask : Option (BitVec 128)) (t : Bool) (n : List Nat) (xs : List (Num × Bool)) :
    List (Num × Bool) × List Flags :=
  if src = dst then (xs, xs.map fun _ => 0)
  else
    let fwd := src.none?
    let code := (if fwd then dst else src).code.toNat
    let m := mask.getD 0
    if fwd && t then
      let b := n.getD 1 1
      let perm := (List.range xs.length).map fun q =>
        let a := n.getD 0 1
        let k := q / (a * b)
        let r := q % (a * b)
        xs.getD (k * (a * b) + r % b * a + r / b) (.zero false, false)
      let (ys, fl) := rotateChunks code m fwd b perm
      ((List.range xs.length).map fun p => ys.getD (swapOrder n p) (.zero false, false),
       (List.range xs.length).map fun p => fl.getD (swapOrder n p) 0)
    else rotateChunks code m fwd (n.getD 0 1) xs

/-- The bytes that an element of a side takes. -/
def Fmt.bytes (f : Fmt) : Nat := max 1 (f.width / 8)

/-- The bytes that an element takes at a copy's destination: into RAW those of the source (01 R29). -/
def outBytes (fa fb : Fmt) : Nat := if fa.code = 0 then fb.bytes else fa.bytes

/-- Why the n bytes of an element of a side fail, if they do (04 R91). -/
def elemFail (f : Fmt) (n : Nat) (rd : Rd) (l : Loc) : Option (Reason × Nat × Nat) :=
  match (readElem f f.width false rd rd 0 l).bad, rd (f.phys l.off) n with
  | some b, _ => some b
  | none, .error (r, b) => some (r, l.off, l.off + (b - f.phys l.off))
  | none, .ok _ => none

/-- The elements of a side that are accessed: inside the map, their n bytes passing their check (04 R91). -/
def reached (f : Fmt) (n : Nat) (rd : Rd) (l : List (Nat × Loc)) : List (Nat × Loc) :=
  l.filter fun x => (elemFail f n rd x.2).isNone

/-- The bytes of an element's scale that pass their check: (in the scale handle or not, offset). A channel factor is read on either side. -/
def scaleBytes (write : Bool) (f : Fmt) (rd srd : Rd) (x : Nat × Loc) : List (Bool × Nat) :=
  let code := f.code.toNat
  let sc : List (Bool × Nat) :=
    if isBlockFmt code then
      let b := x.2.off / blockBytes f.code
      if f.ssrc = 0 then [(false, scalePlace f.code b)] else if f.ssrc = 1 then [(true, b)] else []
    else if (code = 0x50 ∨ code = 0x51) ∧ f.ssrc = 2 ∧ !write then (List.range 4).map fun i => (true, 4 * x.1 + i)
    else []
  sc.filter fun b => match (if b.1 then srd else rd) b.2 1 with | .ok _ => true | .error _ => false

/-- The bytes accessed of the elements of one side, n bytes each, and of their scales: (in the scale handle or not, offset). -/
def sideBytes (write : Bool) (f : Fmt) (n : Nat) (rd srd : Rd) (l : List (Nat × Loc)) : List (Bool × Nat) :=
  ((reached f n rd l).flatMap fun x =>
    (List.range n).map (fun i => (false, f.phys x.2.off + i)) ++ scaleBytes write f rd srd x).eraseDups

/-- How many bytes a copy reads on one side: its elements one by one, each scale byte once (16 R339's example). (DEDUCED, log 18) -/
def readCount (f : Fmt) (rd srd : Rd) (l : List (Nat × Loc)) : Nat :=
  let ok := reached f f.bytes rd l
  cdiv (ok.length * f.width) 8 + (ok.flatMap (scaleBytes false f rd srd)).eraseDups.length

/-- Where a byte lies for 14 R292: the bank of a core, or the virtual address of the context. -/
def bytePlace (c : Fin 256) (h : HInfo) (o : Nat) : Option (Nat × Nat) :=
  match Ent.space h.e with
  | 1 => some (c.val, localAddr h.e o)
  | 4 => some (Ent.rcore h.e, bankAddr (Ent.rbank h.e) (Ent.base h.e + o))
  | 2 => some (256, Ent.base h.e + o)
  | _ => none

/-- The kind of a command that copies. -/
def Cmd.copyKind (c : Cmd) : CopyKind := ⟨c.op.toNat, decide (c.op.toNat = 0x49 ∧ c.cf.getLsbD 0 = true)⟩

/-- The spaces an engine of R220 reads. -/
def anySpace (n : Nat) : Bool := decide (1 ≤ n ∧ n ≤ 6)

/-- How the copy engine reaches bytes behind a handle. -/
def State.copyRd (s : State) (c : Fin 256) (cmd : Cmd) (h : HInfo) (write : Bool) : Rd :=
  s.engRd c cmd.ctx cmd.cap.epoch anySpace 4 h write

/-- The counts of a copy that has passed its checks, and its places. -/
def State.copyTiles (s : State) (c : Fin 256) (cmd : Cmd) : List Nat × List (Nat × Loc × Nat × Loc) :=
  match copyCounts cmd.copyKind cmd.cap.ma cmd.cap.mb with
  | .error _ => ([], [])
  | .ok n => (n, copyPlaces cmd.copyKind n cmd.cap.ma cmd.cap.mb cmd.cap.fb.width cmd.cap.fa.width (s.copyRd c cmd cmd.cap.hb false))

/-- The bytes that a command reads or writes behind each handle. -/
abbrev Bytes := List (HInfo × List Nat)

/-- Bytes of a side by handle: the map's own and the scale handle's. -/
def byHandle (h sh : HInfo) (l : List (Bool × Nat)) : Bytes :=
  [(h, (l.filter fun b => !b.1).map Prod.snd), (sh, (l.filter fun b => b.1).map Prod.snd)]

/-- The source side of a copy as it is read: a plain move reads the scales of blocks, whose bytes it moves, and no channel factor
(14 R291). -/
def Cmd.srcSide (c : Cmd) : Fmt :=
  let fb := c.cap.fb
  if plainPair c.cap.fa fb && !isBlockFmt fb.code.toNat then { fb with ssrc := 3 } else fb

/-- The bytes of the destination's channel factors that a copy which converts reads (05 R103). -/
def State.chanReads (s : State) (c : Fin 256) (cmd : Cmd) (ps : List (Nat × Loc × Nat × Loc)) : List Nat :=
  let fa := cmd.cap.fa
  if isBlockFmt fa.code.toNat || plainPair fa cmd.cap.fb then []
  else
    let wrd := s.copyRd c cmd cmd.cap.ha true
    ((reached fa (outBytes fa cmd.cap.fb) wrd (ps.map fun p => (p.2.2.1, p.2.2.2))).flatMap
      (scaleBytes false fa wrd (s.copyRd c cmd fa.sh false))).eraseDups.map Prod.snd

/-- The bytes that a copy reads: elements, scales, the gather list, and the channel factors of its destination (16 R335). -/
def State.copyReads (s : State) (c : Fin 256) (cmd : Cmd) : Bytes :=
  let (n, ps) := s.copyTiles c cmd
  let rd (h : HInfo) : Rd := s.copyRd c cmd h false
  let fb := cmd.srcSide
  (cmd.cap.hb, listBytes cmd.cap.mb (rd cmd.cap.hb) (n.getD 1 0)) :: (cmd.cap.fa.sh, s.chanReads c cmd ps) ::
    byHandle cmd.cap.hb fb.sh (sideBytes false fb fb.bytes (rd cmd.cap.hb) (rd fb.sh) (ps.map fun p => (p.1, p.2.1)))

/-- The bytes that a copy writes behind a destination and its scale handle, in element order. -/
def State.copyWrites (s : State) (c : Fin 256) (cmd : Cmd) (d : HInfo × HInfo) : List (Bool × Nat) :=
  sideBytes true cmd.cap.fa (outBytes cmd.cap.fa cmd.cap.fb) (s.copyRd c cmd d.1 true) (s.copyRd c cmd d.2 true) ((s.copyTiles c cmd).2.map fun p => (p.2.2.1, p.2.2.2))

/-- The bytes that a copy moves: the larger of those read and those written (14 R286). (DESIGN CHOICE, log 14; DEDUCED, log 18) -/
def State.copyBytes (s : State) (c : Fin 256) (cmd : Cmd) : Nat :=
  let (n, ps) := s.copyTiles c cmd
  let rd (h : HInfo) : Rd := s.copyRd c cmd h false
  max (readCount cmd.srcSide (rd cmd.cap.hb) (rd cmd.cap.fb.sh) (ps.map fun p => (p.1, p.2.1)) +
      (listBytes cmd.cap.mb (rd cmd.cap.hb) (n.getD 1 0)).length + (s.chanReads c cmd ps).length)
    (s.copyWrites c cmd (cmd.cap.ha, cmd.cap.fa.sh)).length

/-- No engine reads a value older than those that a command has read from its core's scratchpad (13 R266). -/
def State.sawReads (s : State) (c : Fin 256) (epoch : Epoch) (unit : Nat) (l : Bytes) : State :=
  let s := s.sawBytes c epoch unit (l.flatMap fun x => if Ent.space x.1.e = 1 then x.2.map (localAddr x.1.e) else [])
  -- a REMOTE handle of the core itself gives the word as it stands
  let own := l.flatMap fun x => if Ent.space x.1.e = 4 ∧ Ent.rcore x.1.e = c.val then x.2.map fun o => bankAddr (Ent.rbank x.1.e) (Ent.base x.1.e + o) / 4 * 4 else []
  if own.isEmpty then s
  else s.onCore c fun k => { k with sto := k.sto.see own fun _ => k.sto.storeSeq }

/-- The members that an MCAST reaches (16 R339). -/
def State.mcastMembers (s : State) (c : Fin 256) (cmd : Cmd) : List Nat :=
  let g := cmd.cap.x.toNat
  match Table.get s.groups g with
  | none => []
  | some e => (List.range 256).filter fun m => e.members.getLsbD m && (decide (m ≠ c.val) || cmd.cf.getLsbD 2)

/-- The unloaded duration of a copy (14 R286). (DEDUCED, log 5) -/
def State.copyDuration (s : State) (c : Fin 256) (cmd : Cmd) : Nat :=
  let b := s.copyBytes c cmd
  let far := slower (farEnd c cmd.cap.ha.e) (farEnd c cmd.cap.hb.e)
  let far := if cmd.op.toNat = 0x4B then
      (s.mcastMembers c cmd).foldl (fun a m => if m = c.val then a else slower a (farEnd c (Ent.put (Ent.put 0 128 4 4) 200 8 m))) far
    else far
  let conv := if plainPair cmd.cap.fa cmd.cap.fb then 0 else 2
  let rot := if cmd.cap.fa.tag = cmd.cap.fb.tag then 0
    else Nat.log2 (tagB (if cmd.cap.fb.tag.none? then cmd.cap.fa.tag else cmd.cap.fb.tag).code.toNat)
  far.1 + cdiv b far.2 + conv + rot

/-- Elements converted from one side to the other, as writes at the destination (14 R291, 16 R337): the pieces, the flags of
each element and the failing channel factors. Under SR the word is that of the destination element's position. (DESIGN CHOICE, log 17) -/
def convertAll (src dst : Fmt) (cap : Cap) (t : Bool) (n : List Nat) (srd : Rd) (e8 : Nat → Nat)
    (xs : List (ERead × Nat × Loc × Nat)) (keep : Nat → Bool) :
    List Put × List (Nat × Flags) × List (Nat × Bool × Nat) :=
  let real := isBlockFmt src.code.toNat || src.code = 0x50 || src.code = 0x51
  let int : Bool := match fmtElem src.code.toNat src.aux.toNat with | some (.int ..) => !real | _ => false
  let ws0 : List EWrite := xs.map fun (r, i1, l, i) =>
    { loc := l, i1 := i1, bits := if dst.code = 0 then r.raw else r.bits, val := r.val, idx := i, fromInt := int, poison := r.poison.isSome }
  if plainPair src dst then
    let ps := (ws0.zipIdx.filter fun w => keep w.2).map fun w => w.1.put dst dst.width w.1.bits
    (ps, ws0.map fun w => (w.idx, 0), [])
  else if src.code = 0 || dst.code = 0 then
    -- RAW bytes are never converted (05 R98): into RAW the bytes that hold an element move unchanged (01 R29), as they do between equal widths;
    -- what another pair writes is open
    let put (w : EWrite) : Put :=
      if src.width = dst.width ∨ dst.code = 0 then w.put dst (max 8 src.width) w.bits
      else w.put dst dst.width (e8 w.idx % 2 ^ dst.width)
    let ps := (ws0.zipIdx.filter fun w => keep w.2).map fun w => put w.1
    (ps, ws0.map fun w => (w.idx, 0), [])
  else
    let (ys, fl0) := transform src.tag dst.tag cap.mask t n (ws0.map fun w => (w.val, w.poison))
    let ws := ((ws0.zip ys).zipIdx.filter fun w => keep w.2).map fun (w, _) =>
      { w.1 with val := w.2.1, poison := w.2.2, fromInt := w.1.fromInt && decide (src.tag = dst.tag) }
    let rnd (e : Nat) : Rnd := ⟨cap.rm, cap.sat, if cap.rm = 4 then srword cap.srBase (if t then swapOrder n e else e) else 0⟩
    let (ps, fl, sbs) := narrow dst rnd srd e8 ws
    (ps, (ws0.zip fl0).map (fun p => (p.1.idx, p.2)) ++ (ws.zip fl).map fun p => (p.1.idx, p.2),
      (ws.zip sbs).filterMap fun p => p.2.map fun x => (p.1.idx, x))

/-- The pieces of a plain move's block scales: each destination block takes its source block's scale, or 0 when that fails. (DEDUCED, log 18) -/
def scalePieces (src dst : Fmt) (rd srd : Rd) (xs : List (Loc × Loc)) : List Put :=
  if !isBlockFmt src.code.toNat || 1 < src.ssrc.toNat then []
  else xs.map fun (a, b) =>
    let sb := a.off / blockBytes src.code
    let db := b.off / blockBytes dst.code
    let r := if src.ssrc = 0 then rd (scalePlace src.code sb) 1 else srd sb 1
    let (v, po) := match r with
      | .ok (bs, po) => (leNat bs, po.isSome)
      | .error _ => (0, false)
    ⟨dst.ssrc = 1, if dst.ssrc = 0 then scalePlace dst.code db else db, 1, none, v, po⟩

/-- The byte behind a handle as it stands at its home, for a nibble written beside it. -/
def State.byteNow (s : State) (c : Fin 256) (ctx : Nat) (spaces : Nat → Bool) (h : HInfo) (o : Nat) : Byte :=
  if Ent.space h.e = 1 then (s.core c).sto.spad.read (localAddr h.e o)
  else match s.engRd c ctx {} spaces 4 h false o 1 with | .ok (b :: _, _) => b | _ => 0

/-- Pieces written behind a map's handle and its scale handle. -/
def State.engPuts (s : State) (c : Fin 256) (cmd : Nat) (ctx : Nat) (h sh : HInfo) (spaces : Nat → Bool) (ps : List Put) : State :=
  let part (s : State) (side : Bool) (h : HInfo) : State :=
    let mine := ps.filter fun p => p.side = side
    if mine.isEmpty then s
    else
      let cells := putCells (fun _ o => o) (s.byteNow c ctx spaces h) mine []
      s.engWrite c cmd ctx h cells ((mine.filter fun p => p.poison).flatMap fun p => (List.range p.n).map fun i => p.off + i)
  part (part s false h) true sh

/-- The lowest element that raised NP. -/
def npElem (fl : List (Nat × Flags)) : Option Nat :=
  (fl.filter fun p => p.2.getLsbD 6).foldl (fun a p => match a with | some m => some (min m p.1) | none => some p.1) none

/-- The first-NaN place of an engine command's flags (05 R114): element index in the given counts. -/
def engNp (cmd : Cmd) (unit : BitVec 4) (n0 n1 : Nat) (fl : List (Nat × Flags)) : Option NpInfo :=
  (npElem fl).map fun i =>
    { unit := unit, pc := cmd.pc, row := BitVec.ofNat 7 (i / max n0 1 % max n1 1), col := BitVec.ofNat 14 (i % max n0 1), slot := cmd.slot,
      queue := some (BitVec.ofNat 2 cmd.queue) }

/-- One destination of a copy, with its scale handle: every element converted and written (16 R337); the failed accesses by element,
and the flags. -/
def State.copyTo (s : State) (c : Fin 256) (cmd : Cmd) (d : HInfo × HInfo) (n : List Nat) (xs : List (ERead × Nat × Loc × Nat))
    (places : List (Loc × Loc)) : State × List (Nat × Viol) × List (Nat × Flags) :=
  let fa : Fmt := { cmd.cap.fa with sh := d.2 }
  let fb := cmd.cap.fb
  let rd (h : HInfo) (w : Bool) : Rd := s.copyRd c cmd h w
  let wrd := rd d.1 true
  let swr := rd d.2 true
  let fails := xs.map fun x => elemFail fa (outBytes fa fb) wrd x.2.2.1
  let ok (i : Nat) : Bool := (fails.getD i none).isNone
  let (ps, fl, sbs) := convertAll fb fa cmd.cap cmd.copyKind.t n (rd d.2 false) (fun i => s.freeAt (2 ^ 60 + i)) xs ok
  let scs := if plainPair fb fa then
      scalePieces fb fa (struckRd cmd.prog.struck (rd cmd.cap.hb false)) (rd fb.sh false) ((places.zipIdx.filter fun p => ok p.2).map Prod.fst)
    else []
  let ps := ps ++ scs
  let viols := (fails.zipIdx.flatMap fun x => (elemViols fa d.1 d.2 x.1 none).map fun v => (x.2, v)) ++
    (sbs.flatMap fun x => (elemViols fa d.1 d.2 none (some x.2)).map fun v => (x.1, v)) ++
    scaleViols fa d.1 d.2 (putFail wrd swr) ps ((xs.filter fun x => ok x.2.2.2).map fun x => (x.2.2.2, x.2.2.1))
  (s.engPuts c cmd.id cmd.ctx d.1 d.2 anySpace (ps.filter fun p => (putFail wrd swr p).isNone), viols, fl)

/-- A LOCAL handle of the context's table as it addresses member m's own bank (16 R339). -/
def memberEntry (c : Fin 256) (m : Nat) (h : HInfo) : HInfo :=
  if m = c.val ∨ Ent.space h.e ≠ 1 then h
  else ⟨h.h, Ent.put (Ent.put (Ent.put h.e 208 4 (Ent.bank h.e)) 200 8 m) 128 4 4⟩

/-- The offsets whose bytes pass their check. -/
def passing (rd : Rd) (os : List Nat) : List Nat := os.filter fun o => match rd o 1 with | .ok _ => true | .error _ => false

/-- The places that a copy writes to, each with its scale handle: its destination, or each member's (16 R339). (DEDUCED, log 18) -/
def State.copyDests (s : State) (c : Fin 256) (cmd : Cmd) : List (HInfo × HInfo) :=
  if cmd.op.toNat = 0x4B then
    (s.mcastMembers c cmd).map fun m => (memberEntry c m cmd.cap.ha, memberEntry c m cmd.cap.fa.sh)
  else [(cmd.cap.ha, cmd.cap.fa.sh)]

/-- A copy reads one source element for two or more destination elements (14 R292): a stride of 0 in a walked dimension, 4-bit sources among
them (16 R334), or two elements at one place, as where a wrapping dimension is walked past its size. (DEDUCED, log 18) -/
def rereads (k : CopyKind) (src : BitVec 512) (n : List Nat) (ps : List (Nat × Loc × Nat × Loc)) : Bool :=
  let at_ := (ps.filter fun p => p.2.1.inside).map fun p => (p.2.1.off, p.2.1.nib)
  (n.zipIdx.any fun (m, d) => decide (1 < m ∧ d < k.named) && decide (TMap.stride src d = 0)) || at_.eraseDups.length ≠ at_.length

/-- Why a copy is refused whole (14 R292): the handle and the first byte, in element order, that it would write and also reads.
(DEDUCED, log 18) -/
def State.copyLap (s : State) (c : Fin 256) (cmd : Cmd) : Option (HInfo × Nat) :=
  let k := cmd.copyKind
  let (n, ps) := s.copyTiles c cmd
  let expanding := k.op = 0x4A || k.op = 0x4B || TMap.gather cmd.cap.mb || rereads k cmd.cap.mb n ps
  if !(expanding || k.t || !plainPair cmd.cap.fa cmd.cap.fb) then none
  else
    let reads := (s.copyReads c cmd).flatMap fun x => x.2.filterMap (bytePlace c x.1)
    (s.copyDests c cmd).findSome? fun d =>
      let at_ (b : Bool × Nat) : HInfo := if b.1 then d.2 else d.1
      ((s.copyWrites c cmd d).find? fun b => match bytePlace c (at_ b) b.2 with
        | some x => reads.contains x
        | none => false).map fun b => (at_ b, b.2)

/-! ### Flash pages that the engines read (15 R305, 22 R390) -/

/-- A change of one HBF stack's record. -/
def State.onHbf (s : State) (n : Nat) (f : Hbf → Hbf) : State :=
  { s with hbfStacks := vset s.hbfStacks n (f (s.hbfStacks.getD n {})) }

/-- The context whose completion ring takes the physical function's events (24 R413): the lowest one that it owns. (DEDUCED, log 24) -/
def State.pfCtx (s : State) : Option Nat := (s.ctxs.find? fun p => p.2.d 0x02 1 = 0).map Prod.fst

/-- An event for the physical function. -/
def State.pfEvent (s : State) (kind : BitVec 8) (d0 d1 : Word) : State :=
  match s.pfCtx with
  | some x => s.hold x ⟨0, kind, 0, 0xFF, 0, d0, d1, none, false⟩
  | none => s

/-- A page read that the full recovery fails (15 R305, 22 R390): counted, reported, its channel fenced at the fourth. -/
def State.uncorrectable (s : State) (stack chan page : Nat) : State :=
  let s := s.onHbf stack fun h =>
    let n := (Table.get h.chanUnc chan).getD 0 + 1
    { h with
      unc := h.unc + 1
      chanUnc := Table.set h.chanUnc chan n
      chan := if 4 ≤ n then h.chan &&& ~~~(1#16 <<< chan) else h.chan }
  s.pfEvent 35 (BitVec.ofNat 64 stack) (BitVec.ofNat 64 page)

/-- The pages of a read that the flash layer cannot correct, each counted and reported: those known to be bad, and at most one more, which is
open. Pages on a channel that has been fenced since go on being read; only new placements avoid it (00 R3). (DEDUCED, log 24;
DESIGN CHOICE, log 24) -/
def State.readPages (s : State) (ctx : Nat) (pages : List Nat) : List Nat × State :=
  if pages.isEmpty then ([], s)
  else
    let known := ((Table.get s.ctxs ctx).map Ctx.flashBad).getD []
    let (k, s) := s.choose pages.length
    let bad := (pages.zipIdx.filter fun p => p.2 + 1 = k || known.contains p.1).map Prod.fst
    (bad, bad.foldl (fun s p => let x := Config.flashPlace ctx p; s.uncorrectable (x / 16 % 8) (x % 16) p) s)

/-- The flash pages of the bytes that a command reads. -/
def flashPages (l : Bytes) : List Nat :=
  (l.flatMap fun x => if Ent.space x.1.e = 3 then x.2.map fun o => (Ent.base x.1.e + o) / 16384 else []).eraseDups

/-- The effect of COPY, COPY2, GATH and MCAST (14 R291, 16 R337, R339); its flags and violations show at its completion. (DESIGN CHOICE, log 14;
DEDUCED, log 18) -/
def State.doCopy (s : State) (c : Fin 256) (cmd : Cmd) : State :=
  let k := cmd.copyKind
  let fb := cmd.cap.fb
  match copyCounts k cmd.cap.ma cmd.cap.mb with
  | .error _ => s
  | .ok n =>
    let reads := s.copyReads c cmd
    let (bad, s) := s.readPages cmd.ctx (flashPages reads)
    let now := if bad.isEmpty then s else s.onCtx cmd.ctx fun x => { x with flashBad := bad }
    let rd := struckRd cmd.prog.struck (now.copyRd c cmd cmd.cap.hb false)
    let srd := now.copyRd c cmd fb.sh false
    let ps := (now.copyTiles c cmd).2
    let plain := plainPair cmd.cap.fa fb
    let org := TMap.org cmd.cap.mb 1
    let xs := ps.zipIdx.map fun (p, i) =>
      let r := readElem fb fb.width (!plain) rd srd p.1 p.2.1
      -- a plain move reads the scales too (05 R102); what a poisoned entry of the list selects carries its poison
      let r := if plain && isBlockFmt fb.code.toNat then { r with sbad := (readElem fb fb.width true rd srd p.1 p.2.1).sbad } else r
      let r := if TMap.gather cmd.cap.mb && listPoison cmd.cap.mb rd (org + p.1) then { r with poison := r.poison.or (some (false, 0)) } else r
      (r, p.2.2.1, p.2.2.2, i)
    let places := ps.map fun p => (p.2.1, p.2.2.2)
    let src := xs.zipIdx.flatMap fun x => (x.1.1.viols fb cmd.cap.hb fb.sh).map fun v => (x.2, v)
    let dests := s.copyDests c cmd
    -- what fails is found when the copy starts, as 23 R401's CYC shows
    let found := cmd.prog.start.getD s.clock
    let (s, dst, fl) := dests.foldl (fun (acc : State × List (Nat × Viol) × List (Nat × Flags)) d =>
      let other := acc.1.core (coreId (if Ent.space d.1.e = 4 then Ent.rcore d.1.e else c.val))
      if k.op = 0x4B && acc.1.runsCtx (if Ent.space d.1.e = 4 then Ent.rcore d.1.e else c.val) cmd.ctx &&
          (other.sys.bankfmt.getD (Ent.bank cmd.cap.ha.e) 0) ≠ cmd.cap.y then
        (acc.1.engLater c cmd 2 d.1 0 0 .mfmt 0 found, acc.2)
      else
        let (t, v, fl) := acc.1.copyTo c cmd d n xs places
        (t, acc.2.1 ++ v, acc.2.2 ++ fl)) (s.sawReads c cmd.cap.epoch 4 reads, [], [])
    let s := s.cmdViolates c cmd 2 ((sortOn Prod.fst (src ++ dst)).map Prod.snd) found
    (s.onCmd c cmd.id fun x => { x with prog := { x.prog with
      flags := orFlags (fl.map Prod.snd)
      np := (engNp cmd 5 (n.getD 0 1) (n.getD 1 1) fl).map fun i => (i, (npElem fl).getD 0) } }).bump

end Sys2Proof.Machine
end

