-- ==== Sys2Proof/Machine/Command.lean ====
section
/-! DEFINITION. The issue of an engine command (14 R281, R283, R287, 16 R329 to R331): operands, flag operand, promise, queue;
and the unloaded durations of 09 R183 and 16 R331. -/

namespace Sys2Proof.Machine

/-! ### Operands of an engine command -/

/-- Scalar register v of a map field (09 R179). -/
def Core.mreg (c : Core) (v : BitVec 4) : Word := c.sreg v.toNat

/-- A tensor map. -/
def Core.tmap (c : Core) (m : BitVec 4) : BitVec 512 := c.vec.tm.getD m.toNat 0

/-- The handle of a map with its captured entry. -/
def State.mapHandle (s : State) (m : BitVec 512) : HInfo := ⟨TMap.handle m, s.entry s.me (TMap.handle m)⟩

/-- The captured decode of a map's data. -/
def State.mapFmt (s : State) (m : BitVec 512) : Fmt := effFmt (s.holder s.me (s.mapHandle m).e) m

/-- The handles that a command with these maps uses (11 R227). (DEDUCED, log 36) -/
def State.mapUses (s : State) (ms : List (BitVec 4)) : List Nat :=
  ms.flatMap fun m => let x := s.me.tmap m; TMap.handle x :: (s.mapFmt x).usesHandle

/-- The handles of a weight or A operand: channel scales are not read (08 R168, 09 R186). -/
def State.matUses (s : State) (m : BitVec 4) : List Nat :=
  let x := s.me.tmap m
  TMap.handle x :: (if isBlockFmt (s.mapFmt x).code.toNat then (s.mapFmt x).usesHandle else [])

/-- A map's own checks: format and tag legal, else the format trap (05 R98, 06 R117). -/
def State.checkLegal (s : State) (m : BitVec 512) : Except Trap Unit :=
  if mapLegal (s.holder s.me (s.mapHandle m).e) m then .ok () else trapWith .format ((TMap.fmt m).setWidth 64)

/-- A tensor-map trap that names the map (09 R193, 16 R336). -/
def mapTrap {α : Type} (m : BitVec 4) : Except Trap α := trapWith .tensorMap (m.setWidth 64)

/-- The wrap rule of 04 R90. -/
def checkWrap (x : BitVec 512) : Except Trap Unit :=
  match TMap.badWrap x with
  | some d => trapWith .tensorMap (BitVec.ofNat 64 d)
  | none => .ok ()

/-- The wrap rule of 04 R90 and, under a 4-bit format of the map, the stride rule, at issue. -/
def checkMap (m : BitVec 4) (x : BitVec 512) : Except Trap Unit :=
  if fmtWidth (TMap.fmt x).toNat = 4 ∧ TMap.stride x 0 ≠ 0 then mapTrap m else checkWrap x

/-- An engine command: its queue, its handles and its checks (16 R329); it ends the entry region (10 R214). -/
def engCmd (queue : State → Nat) (uses : State → List Nat) (body : Body) : Meaning where
  endsRegion := true
  queue := fun s => some (queue s)
  uses := uses
  body := body

/-- The extent of a copy's transform along its axis (16 R336): destination i0 for a forward transform, source i0, of count n0, for an inverse. -/
def axisCount (src : Tag) (dst : BitVec 512) (n0 : Nat) : Nat :=
  if src.none? && !TMap.wrap dst 0 then TMap.size dst 0 - TMap.org dst 0 else n0

/-- An unrotated side, or the sign mask that a transform needs (06 R119, R122): extent n along its axis. -/
def State.captureMask (s : State) (src dst : Tag) (n : Nat) : Except Trap (Option (BitVec 128)) := do
  if src = dst then return none
  let t := if src.none? then dst else src
  if n % tagB t.code.toNat ≠ 0 then trapWith .rotationShape (BitVec.ofNat 64 n)
  let m ← s.me.findMask t.id
  return some m

/-! ### Pins (11 R225, 15 R312) -/

/-- Parked records whose handles have become FULL or RETIRED have DEPC lowered; at zero they enter the tail (10 R215). -/
def State.wakeRecords (s : State) : State :=
  { s with dies := s.dies.map fun d =>
      let step (t : TaskRec) : TaskRec × Bool :=
        match t.state with
        | .parked hs =>
          let left := hs.filter fun h => let st := Ent.state (s.launchEntry t.launch h); !(st = 2 ∨ st = 4)
          ({ t with state := if left.isEmpty then .ready else .parked left }, left.isEmpty)
        | _ => (t, false)
      let l := d.tasks.map step
      { d with tasks := ((l.filter fun x => !x.2) ++ l.filter fun x => x.2).map Prod.fst } }

/-- The pins of a handle that are on their way to its home (11 R224). -/
def State.pinsSent (s : State) (ctx h : Nat) : Nat :=
  (s.msgs.filter fun m => match m.body with | .pin _ x k up => up && decide (x = ctx ∧ k = h) | _ => false).length

/-- A pin requested at issue by a command that reads through a weight handle: the home takes it after the cycle's uses (11 R224).
(DEDUCED, log 36) -/
def State.pinSource (s : State) (h : HInfo) : Except Trap State :=
  let ctx := s.me.ctx.getD 64
  if 65535 ≤ Ent.pin (s.homeEntry ctx h.h) + s.pinsSent ctx h.h then trapWith .pinOverflow (BitVec.ofNat 64 h.h)
  else .ok (s.send s.clock (.pin s.cur.val ctx h.h true))

/-- The pins that a command requests. -/
def State.pinSources (s : State) (l : List HInfo) : Except Trap State := l.foldlM State.pinSource s

/-! ### Durations -/

/-- The rows and first row of a matrix descriptor (09 R180). -/
def descRow0 (d : Word) : Nat := d.toNat % 64
def descM (d : Word) : Nat := d.toNat / 64 % 128
def descPlane (d : Word) : Nat := d.toNat / 2 ^ 13 % 2
def descCol0 (d : Word) : Nat := d.toNat / 2 ^ 13 % 1024
def descN (d : Word) : Nat := d.toNat / 2 ^ 23 % 2048

/-- The sparse N of a code (05 R98). -/
def sparseN (code : BitVec 3) : Nat := match code.toNat with | 0 => 2 | 1 => 3 | 2 => 4 | _ => 6

/-- A plane format is sparse. -/
def isSparse (f : BitVec 8) : Bool := f = 0x60 || f = 0x61

/-- The bytes of a sparse record (05 R104). -/
def recordBytes (f : BitVec 8) (n : Nat) : Nat := 16 + n * (if f = 0x60 then 128 else 64)

/-- The bytes that an MLDW reads (09 R183). -/
def mldwBytes (f : Fmt) (p : PlaneInfo) : Nat :=
  if isSparse p.fmt then p.next / 128 * (p.kext / 12) * recordBytes p.fmt (sparseN p.ncode)
  else p.kext * p.next * f.width / 8 + p.kext * p.next * f.width % 8 / 4 +
    (if isBlockFmt f.code.toNat && f.ssrc.toNat < 2 then p.kext / 32 * p.next else 0)

/-- The places of an MRUN's A tile: for each row, the element places (09 R188). -/
def mrunPlaces (cmd : Cmd) : List (List Loc) :=
  (List.range (descM cmd.cap.x)).map fun r => (List.range cmd.cap.plane.kext).map fun k =>
    TMap.locate cmd.cap.ma (cmd.cap.fa.width = 4) 2 [k, r] none

/-- The aligned 32-byte groups of each row of the A tile (08 R169). -/
def mrunGroups (cmd : Cmd) : List (List Nat) :=
  (mrunPlaces cmd).map fun row =>
    ((row.filter fun l => l.inside).map fun l => localAddr cmd.cap.ha.e (cmd.cap.fa.phys l.off) / 32).eraseDups

/-- Cycles per A row (08 R168). -/
def rowCycles (a : BitVec 8) : Nat := if a = 0x03 ∨ a = 0x51 then 4 else 8

/-- The cycle, from its start, in which an MRUN's A is consumed, and its duration (09 R183). -/
def mrunTiming (cmd : Cmd) : Nat × Nat :=
  let rows := mrunGroups cmd
  let order := (rows.flatMap id).eraseDups
  let enter (g : Nat) : Nat := 2 + (order.idxOf g) / 16
  let c := rowCycles cmd.cap.fa.code
  let done := (rows.drop cmd.prog.commit).foldl (fun e row =>
    let last := (row.map enter).foldl max 2
    max (last + 1) (e + 1) + c - 1) 2
  (2 + (order.length - 1) / 16, done + 6)

/-- A source that an HBM latency precedes (09 R183). -/
def slowSource (h : HInfo) : Bool := Ent.space h.e = 2 || Ent.kind h.e = 2

/-- The bytes of a ring's data (14 R293). -/
def ringSize (e : BitVec 256) : Nat := Ent.len e - 64

/-- The bytes that a packet takes in its ring (14 R294). -/
def packetBytes (len : Nat) : Nat := 16 + 16 * cdiv len 16

/-- The bits of an element in a packet: into a RAW ring the bytes of the source's move unchanged (01 R29). -/
def Cap.ringWidth (cap : Cap) : Nat := if cap.fa.code = 0 then 8 * cap.fb.bytes else cap.fa.width

/-- The payload of a packet in TILE mode, in bytes (16 R341). -/
def Cap.packetLen (cap : Cap) : Nat :=
  (mapCount cap.mb 0 * mapCount cap.mb 1 * mapCount cap.mb 2 * mapCount cap.mb 3 * cap.ringWidth + 7) / 8

/-- The cycles from a packet's reading to its placing, and between two packets of TILE mode (14 R295). -/
def placeFirst (len : Nat) : Nat := 400 + cdiv (packetBytes len) 64
def placeNext (len : Nat) : Nat := max 1 (cdiv (packetBytes len) 64)

/-- The packets of a tile in cycles u, u + p, …, as many as are left and as the ring has room for (14 R295): the cycles from t until the next one
is placed, 0 with none in flight. One that the ring cannot hold ends the sequence (14 R296). -/
def tileWait (cap : Cap) (size free next u p t : Nat) : Nat :=
  let j := cdiv (t - u) p
  if size - 16 < cap.packetLen then (if j = 0 && decide (next < mapCount cap.mb 4) then u - t else 0)
  else if next + j < mapCount cap.mb 4 ∧ (j + 1) * packetBytes cap.packetLen ≤ free then u + j * p - t
  else 0

/-- The placing of a packet in flight that an UNSUB meets in cycle t, unloaded (14 R295, 16 R331): of the ring's subscription, or of one that a
command ahead establishes or ends. Of a packet list, whose later records are the producer's, only the packet already in hand. (DEDUCED, log 5) -/
def State.placing (s : State) (c : Fin 256) (ring t : Nat) (ahead : List (Cmd × Nat)) : Nat :=
  let stretch := stretch (s.dies[dieOf c.val].step)
  let mine := ahead.reverse.find? fun p => (p.1.op.toNat = 0x4C || p.1.op.toNat = 0x4D) && p.1.cap.ha.h = ring && decide (p.2 ≤ t)
  match mine, (s.core c).eng.subs.find? fun x => x.ring.h = ring with
  | some (x, e), _ =>
    if x.op.toNat = 0x4D || x.cf.getLsbD 0 then 0
    else
      let len := x.cap.packetLen
      let size := ringSize x.cap.ha.e
      tileWait x.cap size size 0 (e + stretch (placeFirst len)) (stretch (placeNext len)) t
  | none, some x =>
    if x.suspended || !x.ready then 0
    else if x.list then x.unl - t
    else
      let size := ringSize x.ring.e
      tileWait x.cmd.cap size (size + x.freetot.toNat - x.wrtot.toNat) x.next (max x.unl s.clock) (stretch (placeNext x.cmd.cap.packetLen)) t
  | none, none => 0

/-- The unloaded duration of a command from its start (09 R183, 14 R286, 16 R331). (DEDUCED, log 5) -/
def State.duration (s : State) (c : Fin 256) (cmd : Cmd) : Nat :=
  match cmd.op.toNat with
  | 0x40 => 0
  | 0x41 => 0
  | 0x42 => 8 + cdiv (mldwBytes cmd.cap.fa cmd.cap.plane) 512 + (if slowSource cmd.cap.ha then 400 else 0)
  | 0x43 => (mrunTiming cmd).2
  | 0x44 => (descM cmd.cap.x - cmd.prog.commit) * cdiv (descN cmd.cap.x) 128 + 6 +
      (if cmd.cap.fa.tag.none? then 0 else Nat.log2 (tagB cmd.cap.fa.tag.code.toNat))
  | 0x45 => cdiv (descM cmd.cap.x) 8
  | 0x46 => 2 + (if cmd.cap.plane.fmt = 0x03 ∨ cmd.cap.plane.fmt = 0x51 ∨ cmd.cap.plane.fmt = 0x61 then 32 else 64) + 6
  | 0x48 => s.copyDuration c cmd
  | 0x49 => s.copyDuration c cmd
  | 0x4A => s.copyDuration c cmd
  | 0x4B => s.copyDuration c cmd
  | 0x4C => 300
  | 0x4D => 300
  | 0x4E => 300
  | 0x50 => if cmd.cf.getLsbD 0 && cmd.cap.y = 0 then 16 + 4200 + cdiv (Ent.len cmd.cap.ha.e) 1024 else 16
  | 0x51 => 16 + cdiv (mapCount cmd.cap.ma 0) 64
  | 0x52 => 200
  | _ => 0

/-- The rows of a core's quarter that a matrix command touches, and the plane that it loads or reads (08 R167). -/
def Cmd.rows (c : Cmd) : Option (Nat × Nat) :=
  if c.op.toNat = 0x43 ∨ c.op.toNat = 0x44 ∨ c.op.toNat = 0x45 then some (descRow0 c.cap.x, descM c.cap.x) else none

/-- The plane that a command names (09 R179). -/
def Cmd.planeNo (c : Cmd) : Option Nat :=
  match c.op.toNat with
  | 0x42 => some (c.cap.y.toNat % 2)
  | 0x43 => some (descPlane c.cap.x)
  | 0x46 => some (c.cf.toNat % 2)
  | _ => none

/-- Two matrix commands of one face cannot run together (08 R167); `same` for commands of one core. -/
def conflicts (a b : Cmd) (same : Bool) : Bool :=
  let x := a.op.toNat
  let y := b.op.toNat
  let load (n : Nat) : Bool := n = 0x42
  let broad (n : Nat) : Bool := n = 0x43 || n = 0x46
  let drain (n : Nat) : Bool := n = 0x44
  (load x && load y) || (broad x && broad y) || (drain x && drain y) ||
    ((load x || load y) && (match a.planeNo, b.planeNo with | some p, some q => p = q | _, _ => false)) ||
    (same && (match a.rows, b.rows with
      | some (r, m), some (q, n) => decide (r < q + n ∧ q < r + m)
      | _, _ => false))

/-- The commands ahead of one in its queue; behind a fault, those held back stand after it (21 R371). -/
def Core.ahead (c : Core) (q id : Nat) : List Cmd := (c.eng.queues.getD q []).takeWhile fun x => x.id ≠ id

/-- The number as a remote effect of a message of a core that still has to take its effect (12 R250). -/
def MsgBody.remoteOf (c : Fin 256) : MsgBody → Option Nat
  | .signal x n _ _ _ => if x = c.val then some n else none
  | .tqPush x _ _ _ _ _ _ n _ => if x = c.val then some n else none
  | .tqPop x _ _ _ _ _ _ _ n => if x = c.val then some n else none
  | .ratom x _ _ _ _ _ _ _ _ _ _ _ n _ _ _ => if x = c.val then some n else none
  | _ => none

/-- The first cycle in which the markers ahead of a command are satisfied, as a promise takes it (12 R250, 14 R282): the remote effects before
them have ended, the commands among them as `runs` has them, the messages as they arrive. (DEDUCED, log 5) -/
def State.fenceEnd (s : State) (c : Fin 256) (runs : List (Cmd × Nat × Nat)) (cmd : Cmd) : Nat :=
  let cmds := (runs.filter fun p => decide (p.1.remote < cmd.after)).map fun p => p.2.2 + 1
  let msgs := s.msgs.filterMap fun m => match m.body with
    | .flush x id => if x = c.val && (s.core c).eng.sysOut.any fun y => y.cmd = id && decide (y.remote < cmd.afterSys) then some m.at_ else none
    | b => (b.remoteOf c).bind fun n => if n < cmd.after then some (m.at_ + 1) else none
  (cmds ++ msgs).foldl max 0

/-- Commands with the cycles in which they start and complete as a promise takes them (14 R287), in issue order: each queue in its order, each
command as its resources and fence markers allow, for its unloaded duration. (DEDUCED, log 5) -/
def State.predict (s : State) (c : Fin 256) (l : List Cmd) : List (Cmd × Nat × Nat) :=
  let step := s.dies[dieOf c.val].step
  l.foldl (fun acc x =>
    let mine := acc.filter fun p => p.1.queue = x.queue
    let wall := (mine.filter fun p => conflicts p.1 x true || (x.op.toNat = 0x41)).foldl (fun m p => max m p.2.2) 0
    let last := ((mine.getLast?).map fun p => p.2.1).getD 0
    let begin_ := match x.prog.start with
      | some t => t
      | none => max (max (max (last + 1) (s.clock + 1)) (s.fenceEnd c acc x))
          (max wall (if wall = 0 then 0 else wall + (if x.op.toNat = 0x41 then 0 else 1)))
    let end_ := begin_ + stretch step (s.duration c x)
    let end_ := if x.op.toNat = 0x4D then end_ + s.placing c x.cap.ha.h end_ (mine.map fun p => (p.1, p.2.2)) else end_
    acc ++ [(x, begin_, end_)]) []

/-- The completion cycle that a promise states (14 R287): the commands ahead run at their unloaded durations, and so do those of the other
queues that a fence marker waits for. -/
def State.promise (s : State) (c : Fin 256) (ahead : List Cmd) (cmd : Cmd) : Nat :=
  let l := ahead ++ [cmd]
  let others := ([0, 1, 2].filter fun q => q ≠ cmd.queue).flatMap fun q =>
    ((s.core c).eng.queues.getD q []).filter fun x => decide (x.remote < cmd.remote)
  let l := if l.any fun x => (s.core c).behind x.after x.afterSys then sortOn Cmd.remote (others ++ l) else l
  (((s.predict c l).find? fun p => p.1.id = cmd.id).map fun p => p.2.2).getD s.clock

/-! ### Issue -/

/-- The scope of a command (02 R40): SCOPE, or SYSTEM with Y. -/
def engScope (e : EngOpt) : BitVec 3 := if e.y = 1 then 4 else e.scope.setWidth 3

/-- Token bits that name a queue which does not exist (02 R39). -/
def tokenBad (q : Nat) (e : EngOpt) : Bool := (q = 0 && (e.tpp = 1 || e.thp = 1)) || (q = 2 && (e.tpn = 1 || e.thn = 1))

/-- The flag operand (02 R41): acquire and release flags, checked against the window. -/
def State.flagOperand (s : State) (e : EngOpt) : Except Trap (Option FlagRef × Option FlagRef × State) := do
  if e.acq = 0 ∧ e.rel = 0 then return (none, none, s)
  let ((v, _), s) ← s.popQ 6
  let a ← if e.acq = 1 then (s.flagRef (v &&& 0xFFFF)).map some else .ok none
  let r ← if e.rel = 1 then (s.flagRef ((v >>> 16) &&& 0xFFFF)).map some else .ok none
  return (a, r, s)

/-- A command issued to queue q (14 R281, R287, 16 R330): flag operand, result entry, promise, then queue or hold. -/
def State.issueCmd (s : State) (q op : Nat) (e : EngOpt) (cf : BitVec 3) (rq : Option Nat) (cap : Cap) : Except Trap State := do
  if tokenBad q e then trapOf .reservedField
  let (a, r, s) ← s.flagOperand e
  let (rqe, s) ← match rq with
    | some k => (s.reserve k).map fun x => (some (k, x.1), x.2)
    | none => .ok (none, s)
  let (pe, s) ← if e.p = 1 then (s.reserve 7).map fun x => (some x.1, x.2) else .ok (none, s)
  let c := s.me
  let y := c.sys.fpstat
  let cap := { cap with rm := (y >>> 12).setWidth 3, sat := y.getLsbD 11, srBase := s.srBase, hostord := c.sys.hostord.getLsbD 0,
                        epoch := ⟨c.sto.fenceX, c.sto.engSeen⟩, step := s.dies[dieOf s.cur.val].step }
  let cmd : Cmd := {
    id := c.eng.nextCmd, op := BitVec.ofNat 7 op, pc := c.seq.pc, slot := BitVec.ofNat 3 s.latch.slot, queue := q,
    tpp := e.tpp = 1, tpn := e.tpn = 1, thp := e.thp = 1, thn := e.thn = 1, acq := a, rel := r, scope := engScope e, cf := cf,
    rq := rqe, after := c.eng.fenceAt, afterSys := c.eng.fenceSys, remote := c.eng.nextRemote, ctx := c.ctx.getD 64,
    launch := (c.run.map RunRec.launch).getD 256, cap := cap }
  let held := c.heldCmds.filter fun x => x.queue = q
  if c.holds && decide (16 ≤ held.length) then trapWith .replayHoldOverflow (BitVec.ofNat 64 q)
  if c.holds then
    let h : Held := ⟨s.latch.iter, .cmd { cmd with promise := pe }⟩
    return s.setMe { c with eng := { c.eng with nextCmd := c.eng.nextCmd + 1, held := c.eng.held ++ [h] } }
  else
    let c := { c with eng := { c.eng with nextCmd := c.eng.nextCmd + 1, nextRemote := c.eng.nextRemote + 1,
                                          remote := c.eng.remote ++ [c.eng.nextRemote] } }
    let s := s.setMe (c.enqueue cmd)
    let p := s.promise s.cur (s.me.ahead q cmd.id) cmd
    return match pe with
      | some id => s.addPend 2 (.push 7 id (BitVec.ofNat 64 p) (some cmd.id))
      | none => s

/-- The promises of commands released in this cycle, landing 2 cycles later (14 R287). (DEDUCED, log 19) -/
def State.releasePromises (s : State) (c : Fin 256) : State :=
  (List.range 3).foldl (fun s q =>
    let l := (s.core c).eng.queues.getD q []
    l.zipIdx.foldl (fun s (x : Cmd × Nat) =>
      match x.1.promise with
      | none => s
      | some id =>
        let p := s.promise c (l.take x.2) x.1
        let s := s.onCmd c x.1.id fun y => { y with promise := none }
        s.onCore c fun k => { k with seq := { k.seq with
          pend := k.seq.pend ++ [⟨k.seq.rn, x.1.slot.toNat, .push 7 id (BitVec.ofNat 64 p) (some x.1.id)⟩] } }) s) s

end Sys2Proof.Machine
end

