-- ==== Sys2Proof/Machine/Matrix.lean ====
section
/-! DEFINITION. The matrix commands: issue (09 R178 to R191), the plane load, the product, the drain and the known-answer test
(08 R162 to R177, 06 R126, R127), and the faults of 22 R382, R389. -/

namespace Sys2Proof.Machine

/-! ### Issue views (09 R181) -/

/-- The fields of a core's latest uncompleted MLDW into a plane. -/
def Core.loading (c : Core) (p : Nat) : Option PlaneInfo :=
  let l := (c.eng.all 1 ++ c.heldCmds).filter fun x => x.op.toNat = 0x42 && x.planeNo = some p
  (l.foldl (fun (a : Option Cmd) x => match a with
    | some y => if y.id < x.id then some x else a
    | none => some x) none).map fun x => x.cap.plane

/-- The issue view of a plane: whether it is valid, and its fields. -/
def State.planeView (s : State) (c : Fin 256) (p : Nat) : Bool × PlaneInfo :=
  match (s.core c).loading p with
  | some i => (true, i)
  | none =>
    let pl := (s.faces[clusterOf c]).planes.getD p {}
    (pl.valid, pl.info)

/-- The plane trap at issue (09 R193). -/
def State.needPlane (s : State) (p : Nat) : Except Trap PlaneInfo :=
  let (v, i) := s.planeView s.cur p
  if !v then trapWith .plane (BitVec.ofNat 64 p)
  else if some i.ctx ≠ s.me.ctx then trapWith .plane (BitVec.ofNat 64 (p + 2))
  else .ok i

/-- The descriptor checks of 09 R180; `top` is its first reserved bit. -/
def checkDesc (d : Word) (top : Nat) : Except Trap Unit :=
  if d.toNat / 2 ^ top ≠ 0 then trapWith .reservedField d
  else if descM d = 0 ∨ 64 < descM d ∨ 64 < descRow0 d + descM d then trapWith .matrixOperand d
  else .ok ()

/-- A format trap of a matrix command (09 R193). -/
def matFormat {α : Type} (code plane : BitVec 8) : Except Trap α :=
  trapWith .format (BitVec.ofNat 64 (code.toNat + 256 * plane.toNat))

/-- The weight formats (08 R163). -/
def isWeight (f : BitVec 8) : Bool := [0x40, 0x01, 0x50, 0x03, 0x51, 0x60, 0x61].contains f.toNat

/-- 4-bit weights or activations. -/
def isHalf (f : BitVec 8) : Bool := f = 0x03 || f = 0x51 || f = 0x61

/-- The extents that MLDW accepts (09 R187). -/
def extentOk (f : BitVec 8) (n : BitVec 3) (k j : Nat) : Bool :=
  match f.toNat with
  | 0x40 => decide (k % 32 = 0 ∧ 32 ≤ k ∧ k ≤ 768 ∧ 1 ≤ j ∧ j ≤ 1024)
  | 0x60 => decide (k % 12 = 0 ∧ 12 ≤ k ∧ k ≤ 9216 / sparseN n ∧ j % 128 = 0 ∧ 128 ≤ j ∧ j ≤ 1024)
  | 0x61 => decide (k % 12 = 0 ∧ 12 ≤ k ∧ k ≤ 18432 / sparseN n ∧ j % 128 = 0 ∧ 128 ≤ j ∧ j ≤ 1024)
  | _ => decide (1 ≤ k ∧ k ≤ (if isHalf f then 1536 else 768) ∧ 1 ≤ j ∧ j ≤ 1024)

/-- The operand pairs of 08 R168. -/
def pairOk (a w : BitVec 8) : Bool :=
  (a = 0x40 && w = 0x40) || ([0x01, 0x50, 0x03, 0x51].contains a.toNat && isWeight w && w ≠ 0x40)

/-! ### The seven commands at issue -/

/-- MLEASE (09 R184). -/
def execMlease (g : Guard) (n : BitVec 8) (e : EngOpt) (s : State) : Host.Outcome State Fault Refusal :=
  runSlot g (engCmd (fun _ => 1) (fun _ => []) fun s => do
    s.issueCmd 1 0x40 e 0 none { x := n.setWidth 64 }) s

/-- MFREE (09 R185). -/
def execMfree (g : Guard) (e : EngOpt) (s : State) : Host.Outcome State Fault Refusal :=
  runSlot g (engCmd (fun _ => 1) (fun _ => []) fun s => do
    s.issueCmd 1 0x41 e 0 none {}) s

/-- MLDW (09 R186, R187). (DEDUCED, log 15) -/
def execMldw (g : Guard) (a : BitVec 4) (l u : BitVec 1) (c : BitVec 3) (e : EngOpt) (s : State) : Host.Outcome State Fault Refusal :=
  runSlot g (engCmd (fun _ => 1) (fun s => s.matUses a) fun s => do
    let m := s.me.tmap a
    let h := s.mapHandle m
    let hold := s.holder s.me h.e
    let f := TMap.fmt m
    let p := l.toNat
    if TMap.wrap m 0 || TMap.wrap m 1 || TMap.gather m then mapTrap a
    checkWrap m
    if !isWeight f || (u = 1) != (f = 0x40 : Bool) || (!isSparse f && c ≠ 0) ||
        (isSparse hold.code && hold.aux ≠ c) || !tagOk (TMap.tag m).code.toNat (TMap.tag m).id.toNat ||
        (hold.code ≠ 0 && !tagOk hold.tag.code.toNat hold.tag.id.toNat) then
      matFormat f (s.planeView s.cur p).2.fmt
    checkHolder hold m
    if !isSparse f then checkMap a m
    let k := mapCount m 0
    let j := mapCount m 1
    if !extentOk f c k j then trapWith .matrixOperand (BitVec.ofNat 64 (k % 65536 + j % 65536 * 65536))
    let fa := effFmt hold m
    let s ← s.pinSources (pinsOf (isBlockFmt fa.code.toNat && fa.ssrc = 1) fa h)
    let pl : PlaneInfo := { fmt := f, ncode := c, layout := u, ktag := TMap.tag m, kext := k, next := j, ctx := s.me.ctx.getD 64 }
    s.issueCmd 1 0x42 e 0 none { ma := m, ha := h, fa := fa, y := l.setWidth 64, plane := pl }) s

/-- The rows' checks of an MRUN (06 R127, 08 R174). -/
def checkRows (acc : Vector AccRow 64) (r m : Nat) (kind : AccKind) (tag : Tag) : Except Trap Unit :=
  (List.range m).foldl (fun ok i => do
    ok
    let row := acc.getD (r + i) {}
    if row.tag ≠ tag then tagTrap 3 row.tag tag
    if row.kind ≠ .clear ∧ row.kind ≠ kind then trapWith .accumulatorKind (BitVec.ofNat 64 (r + i))) (.ok ())

/-- The row view changed. -/
def Core.viewRows (c : Core) (r m : Nat) (f : AccRow → AccRow) : Core :=
  { c with sto := { c.sto with acc := (List.range m).foldl (fun v i => vset v (r + i) (f (v.getD (r + i) {}))) c.sto.acc } }

/-- Row kinds and tag codes, five bits a row. -/
def packRows (acc : Vector AccRow 64) (r m : Nat) : BitVec 512 :=
  BitVec.ofNat 512 (((List.range m).map fun i =>
    let row := acc.getD (r + i) {}
    ((match row.kind with | .clear => 0 | .int => 1 | .fp => 2) + 4 * row.tag.code.toNat) * 32 ^ i).foldl (· + ·) 0)

/-- MRUN (09 R188). -/
def execMrun (g : Guard) (a b : BitVec 4) (f h k : BitVec 1) (e : EngOpt) (s : State) : Host.Outcome State Fault Refusal :=
  runSlot g (engCmd (fun _ => 1) (fun s => s.matUses a) fun s => do
    let d := s.me.mreg b
    checkDesc d 14
    let m := s.me.tmap a
    let hd := s.mapHandle m
    let hold := s.holder s.me hd.e
    let fa := effFmt hold m
    if TMap.gather m then mapTrap a
    checkMap a m
    checkHolder hold m
    let pl ← s.needPlane (descPlane d)
    let bad : Bool := pl.layout = 1 && (TMap.wrap m 0 || decide (TMap.stride m 0 ≠ 1) ||
      ([1, 2, 3, 4].any fun d => decide (TMap.stride m d % 32 ≠ 0)) ||
      decide ((((List.range 5).map fun d => (TMap.org m d : Int) * TMap.stride m d).foldl (· + ·) (TMap.base m : Int)) % 32 ≠ 0))
    if !pairOk fa.code pl.fmt || !tagOk fa.tag.code.toNat fa.tag.id.toNat || bad then matFormat fa.code pl.fmt
    if fa.tag ≠ pl.ktag then tagTrap 2 fa.tag pl.ktag
    let kind : AccKind := if pl.layout = 1 then .fp else .int
    let tag : Tag := if pl.layout = 1 then {} else pl.ktag
    if k = 0 then checkRows s.me.sto.acc (descRow0 d) (descM d) kind tag
    let cf : BitVec 3 := k.setWidth 3 ||| (h.setWidth 3 <<< 1) ||| (f.setWidth 3 <<< 2)
    let s ← s.issueCmd 1 0x43 e cf none { ma := m, ha := hd, fa := fa, x := d, plane := pl,
                                          mb := packRows s.me.sto.acc (descRow0 d) (descM d) }
    return s.setMe (s.me.viewRows (descRow0 d) (descM d) fun r => { r with kind := kind, tag := tag })) s

/-- MDRAIN (09 R189). -/
def execMdrain (g : Guard) (a b : BitVec 4) (h k : BitVec 1) (e : EngOpt) (s : State) : Host.Outcome State Fault Refusal :=
  let rsh (d : Word) : Nat := d.toNat / 2 ^ 34 % 256
  let csh (d : Word) : Nat := d.toNat / 2 ^ 42 % 256
  runSlot g (engCmd (fun _ => 1) (fun s => s.mapUses [a] ++ (if k = 1 then [rsh (s.me.mreg b)] else []) ++
      (if h = 1 then [csh (s.me.mreg b)] else [])) fun s => do
    let d := s.me.mreg b
    checkDesc d 50
    if descN d = 0 ∨ 1024 < descCol0 d + descN d then trapWith .matrixOperand d
    let m := s.me.tmap a
    let hd := s.mapHandle m
    let hold := s.holder s.me hd.e
    let fa := effFmt hold m
    if TMap.gather m then mapTrap a
    checkMap a m
    if fa.code = 0 || fa.code = 0x48 || isSparse fa.code || !fmtLegal fa.code.toNat fa.aux.toNat || !mapLegal hold m then
      matFormat fa.code 0
    checkHolder hold m
    let mask ← s.captureMask {} fa.tag (descN d)
    let cf : BitVec 3 := k.setWidth 3 ||| (h.setWidth 3 <<< 1)
    let hc : HInfo := if k = 1 then ⟨rsh d, s.entry s.me (rsh d)⟩ else {}
    let hcs : HInfo := if h = 1 then ⟨csh d, s.entry s.me (csh d)⟩ else {}
    s.issueCmd 1 0x44 e cf none { ma := m, ha := hd, fa := fa, x := d, mask := mask, hc := hc, hd := hcs,
                                  mb := packRows s.me.sto.acc (descRow0 d) (descM d) }) s

/-- MCLR (09 R190). -/
def execMclr (g : Guard) (b : BitVec 4) (e : EngOpt) (s : State) : Host.Outcome State Fault Refusal :=
  runSlot g (engCmd (fun _ => 1) (fun _ => []) fun s => do
    let d := s.me.mreg b
    checkDesc d 13
    let s ← s.issueCmd 1 0x45 e 0 none { x := d }
    return s.setMe (s.me.viewRows (descRow0 d) (descM d) fun r => { r with kind := .clear, tag := {} })) s

/-- MASSAY (09 R191). -/
def execMassay (g : Guard) (a b : BitVec 4) (l : BitVec 1) (e : EngOpt) (s : State) : Host.Outcome State Fault Refusal :=
  runSlot g (engCmd (fun _ => 1) (fun _ => []) fun s => do
    let pl ← s.needPlane l.toNat
    s.issueCmd 1 0x46 e (l.setWidth 3) none { x := a.setWidth 64, y := s.me.mreg b, plane := pl }) s

/-! ### The plane load (09 R186, 08 R171) -/

/-- The spaces that a matrix command's scratchpad operand may lie in, and those of a weight source. -/
def localSpace (n : Nat) : Bool := n = 1
def weightSpace (n : Nat) : Bool := n = 1 || n = 2

/-- n bytes read one by one, a failed one as zero: the bytes, the first failure, the first poisoned offset. -/
def readEach (rd : Rd) (o n : Nat) : List Byte × Option (Reason × Nat) × Option Nat :=
  let l := (List.range n).map fun i => (rd (o + i) 1, o + i)
  (l.map fun x => match x.1 with | .ok (b :: _, _) => b | _ => 0,
   l.findSome? (fun x => match x.1 with | .error (r, _) => some (r, x.2) | .ok _ => none),
   l.findSome? fun x => match x.1 with | .ok (_, some _) => some x.2 | _ => none)

/-- Why a sparse record is malformed, by its tailings code (05 R104, 15 R326). (DEDUCED, log 20) -/
def recordBad (n : Nat) (bs : List Byte) : Option Nat :=
  let x := leNat (bs.take 3)
  let ix := (List.range n).map fun m => x / 16 ^ m % 16
  if ix.any fun i => decide (11 < i) then some 32
  else if (ix.zip ix.tail).any fun p => decide (p.2 ≤ p.1) then some 33
  else if x / 16 ^ n ≠ 0 ∨ (bs.drop 3).take 13 ≠ List.replicate 13 0 then some 34
  else none

/-- The weights of a record's group: 12 rows of 128 columns; zeros when it is malformed. -/
def recordRows (f : BitVec 8) (n : Nat) (bs : List Byte) : List (List Int) :=
  let x := leNat (bs.take 3)
  let data := bs.drop 16
  let at_ (m j : Nat) : Int :=
    if f = 0x60 then (data.getD (128 * m + j) 0).toInt
    else bitsInt 4 true ((data.getD (64 * m + j / 2) 0).toNat / 16 ^ (j % 2) % 16)
  (List.range 12).map fun r =>
    match (recordBad n bs).isNone, (List.range n).find? fun m => x / 16 ^ m % 16 = r with
    | true, some m => (List.range 128).map (at_ m)
    | _, _ => List.replicate 128 0

/-- What a plane load reads. -/
structure PlaneRead where
  w : List (List Int)
  scale : List (List Nat) := []
  viols : List Viol := []
  malf : List (Nat × Nat) := []

/-- The scale byte of a block element: in the scale handle or not, and its physical place; none without one. -/
def Fmt.scaleAt (f : Fmt) (l : Loc) : Option (Bool × Nat) :=
  let b := l.off / blockBytes f.code
  if f.ssrc = 0 then some (false, scalePlace f.code b) else if f.ssrc = 1 then some (true, b) else none

/-- The source of an MLDW read whole, its failures in element order: k fastest, then the column (04 R91). -/
def readPlane (cmd : Cmd) (rd srd : Rd) : PlaneRead :=
  let p := cmd.cap.plane
  let f := cmd.cap.fa
  let m := cmd.cap.ma
  let nib := f.width = 4
  if isSparse p.fmt then
    let n := sparseN p.ncode
    let g := p.kext / 12
    let len := recordBytes p.fmt n
    let o := (TMap.locate m false 2 [0, 0] none).off
    let recs := (List.range (p.next / 128 * g)).map fun i => readEach rd (o + i * len) len
    let rows := recs.map fun r => recordRows p.fmt n r.1
    { w := (List.range p.kext).map fun k => (List.range (p.next / 128)).flatMap fun c => (rows.getD (c * g + k / 12) []).getD (k % 12) []
      viols := recs.flatMap fun r => (r.2.1.map fun x => (⟨cmd.cap.ha, x.2, x.2, x.2, x.1⟩ : Viol)).toList
      malf := (recs.zipIdx.filterMap fun r => (recordBad n r.1.1).map fun code => (r.2, code)) }
  else
    let es := (List.range p.kext).map fun k => (List.range p.next).map fun j =>
      readElem f f.width false rd srd 0 (TMap.locate m nib 2 [k, j] none)
    let scs : List (List (Nat × Option (Bool × Nat))) :=
      if p.layout = 0 then []
      else (List.range (p.kext / 32)).map fun b => (List.range p.next).map fun j =>
        match f.scaleAt (TMap.locate m nib 2 [32 * b, j] none) with
        | some (side, o) => let r := readScale side (if side then srd else rd) o 1; (r.1.getD 0, r.2.1)
        | none => (0x7F, none)
    let lost (k j : Nat) : Option (Bool × Nat) := ((scs.getD (k / 32) []).getD j (0, none)).2
    { w := es.zipIdx.map fun (row, k) => row.zipIdx.map fun (e, j) =>
        if (lost k j).isSome then 0 else bitsInt f.width true e.bits
      scale := scs.map fun l => l.map fun x => x.1
      viols := (List.range p.next).flatMap fun j => es.zipIdx.flatMap fun (r, k) =>
        elemViols f cmd.cap.ha f.sh (r.getD j {}).bad (if k % 32 = 0 then lost k j else none) }

/-- An entry of a context's tailings list (15 R326). -/
def State.tailing (s : State) (ctx : Nat) (bytes : List Byte) : State :=
  match Table.get s.ctxs ctx with
  | none => s
  | some x =>
    let va := x.d 0xD0 8
    let put (s : State) (o : Nat) (bs : List Byte) : State :=
      s.hbmWrite (bs.zipIdx.filterMap fun (b, i) => match x.translate (va + o + i) false with
        | .ok a => some (a, b)
        | .error _ => none) []
    let count := match s.hbmRead ctx va 8 with | .ok (bs, _) => leNat bs | .error _ => 0
    put (put s (64 + 32 * (count % 256)) bytes) 0 (natLe 8 (count + 1))

/-- A tailings entry's 32 bytes. -/
def tailingBytes (cyc : Word) (id index src code core unit first count : Nat) : List Byte :=
  natLe 8 cyc.toNat ++ natLe 4 id ++ natLe 4 index ++ [BitVec.ofNat 8 src, BitVec.ofNat 8 code, BitVec.ofNat 8 core, BitVec.ofNat 8 unit] ++
    natLe 4 first ++ natLe 4 count ++ natLe 4 0

/-- TVAL of a poison consumption (22 R383). (DEDUCED, log 15) -/
def poisonTval (unit h off : Nat) : Word := BitVec.ofNat 64 (h % 256 + unit * 256 + off % 2 ^ 48 * 65536)

/-- The slot of a weight handle as a launch resolves it. -/
def State.weightSlot (s : State) (ctx launch h : Nat) : Option (Nat × Slot) :=
  (Table.get s.ctxs ctx).bind fun x => x.slotOf (Ent.auxw (s.launchEntry launch h))

/-- A slot's state changed: cached entries of the context's weight handles are dropped (11 R229). -/
def State.setSlot (s : State) (ctx i : Nat) (f : Slot → Slot) : State :=
  (s.onCtx ctx fun x => { x with slots := modifyAt x.slots i f }).invalidate ctx fun h => Ent.kind (s.homeEntry ctx h) = 2

/-- The staged copy of a weight handle found poisoned by an engine (22 R389): false when its slot carries the re-fetch mark. -/
def State.slotPoisoned (s : State) (ctx launch h : Nat) : Bool × State :=
  match s.weightSlot ctx launch h with
  | some (i, sl) => if sl.mark then (false, s) else (true, s.setSlot ctx i fun x => { x with state := .poison })
  | none => (false, s)

/-- The bytes that an MLDW reads, in order, a block's scale ahead of its elements: in the scale handle or not, the offset that a trap reports,
and the physical place. (DEDUCED, log 20) -/
def mldwSeq (cmd : Cmd) : List (Bool × Nat × Nat) :=
  let p := cmd.cap.plane
  let f := cmd.cap.fa
  let place (k j : Nat) : Loc := TMap.locate cmd.cap.ma (f.width = 4) 2 [k, j] none
  if isSparse p.fmt then
    let o := (TMap.locate cmd.cap.ma false 2 [0, 0] none).off
    (List.range (mldwBytes f p)).map fun i => (false, o + i, o + i)
  else (List.range p.next).flatMap fun j => (List.range p.kext).flatMap fun k =>
    let l := place k j
    let scale : List (Bool × Nat × Nat) := if p.layout = 1 && decide (k % 32 = 0) then
        match f.scaleAt l with
        | some (true, o) => [(true, o, o)]
        | some (false, o) => [(false, l.off / blockBytes f.code * blockBytes f.code, o)]
        | none => []
      else []
    scale ++ if l.inside then [(false, l.off, f.phys l.off)] else []

/-- The first poisoned byte that an MLDW reads: its number among them, the handle, and the offset. -/
def mldwPoison (cmd : Cmd) (rd srd : Rd) : Option (Nat × Bool × Nat) :=
  (mldwSeq cmd).zipIdx.findSome? fun (x, i) => match (if x.1 then srd else rd) x.2.2 1 with
    | .ok (_, some _) => some (i, x.1, x.2.1)
    | _ => none

/-- The aligned 32-byte group in which a byte of an MLDW's sources lies: its space and its number. -/
def mldwGroup (cmd : Cmd) (x : Bool × Nat × Nat) : Nat × Nat :=
  let e := if x.1 then cmd.cap.fa.sh.e else cmd.cap.ha.e
  (Ent.space e, (if Ent.space e = 1 then localAddr e x.2.2 else Ent.base e + x.2.2) / 32)

/-- The aligned 32-byte groups of its sources that an MLDW has read when it comes to byte n (09 R192). (DEDUCED, log 20) -/
def groupsRead (cmd : Cmd) (n : Nat) : Nat := (((mldwSeq cmd).take (n + 1)).map (mldwGroup cmd)).eraseDups.length

/-- The groups that an MLDW has read when it comes to a byte of HBM, by its virtual address (09 R192, 22 R397). -/
def groupsBefore (cmd : Cmd) (va : Nat) : Nat :=
  groupsRead cmd ((mldwSeq cmd).findIdx fun x => mldwGroup cmd x = (2, va / 32))

/-- A started command stands at the head of its queue again, not started (22 R389): its lease gets its count back; the tokens that it has popped
and its acquire stay its own, so that its next start takes none again. (DEDUCED, log 20) -/
def State.unstart (s : State) (c : Fin 256) (cmd : Cmd) : State :=
  let s := s.onCmd c cmd.id fun x => { x with prog := { x.prog with start := none, due := none } }
  s.onFace (clusterOf c) fun f =>
    match f.lease with
    | some l => if l.mask.getLsbD (c.val % 4) then { f with lease := some { l with left := l.left + 1, expired := decide (l.expiry ≤ s.clock) } } else f
    | none => f

/-- The bytes that an MLDW reads; channel scales are not among them (09 R186). -/
def State.mldwReads (s : State) (c : Fin 256) (cmd : Cmd) : Bytes :=
  let f := cmd.cap.fa
  let p := cmd.cap.plane
  let rd (h : HInfo) : Rd := s.engRd c cmd.ctx cmd.cap.epoch weightSpace 4 h false
  let place (k j : Nat) : Loc := TMap.locate cmd.cap.ma (f.width = 4) 2 [k, j] none
  if isSparse p.fmt then
    let o := (TMap.locate cmd.cap.ma false 2 [0, 0] none).off
    [(cmd.cap.ha, passing (rd cmd.cap.ha) ((List.range (mldwBytes f p)).map fun i => o + i))]
  else byHandle cmd.cap.ha f.sh (sideBytes true f f.bytes (rd cmd.cap.ha) (rd f.sh)
    ((List.range p.next).flatMap fun j => (List.range p.kext).map fun k => (j, place k j)))

/-- The completion of MLDW (09 R186, 08 R171, 22 R382, R389). -/
def State.doMldw (s : State) (c : Fin 256) (cmd : Cmd) : State :=
  let rd := s.engRd c cmd.ctx cmd.cap.epoch weightSpace 4 cmd.cap.ha false
  let srd := s.engRd c cmd.ctx cmd.cap.epoch weightSpace 4 cmd.cap.fa.sh false
  let r := readPlane cmd rd srd
  let s := (s.sawReads c cmd.cap.epoch 4 (s.mldwReads c cmd)).bump
  match mldwPoison cmd (struckRd cmd.prog.struck rd) srd with
  | some (at_, side, off) =>
    let h := if side then cmd.cap.fa.sh.h else cmd.cap.ha.h
    -- poison of the staged copy, and not of the engine's own buffers
    let weight := decide (Ent.kind (if side then cmd.cap.fa.sh.e else cmd.cap.ha.e) = 2) &&
      match (if side then srd else rd) off 1 with | .ok (_, some _) => true | _ => false
    let t (sub : BitVec 4) : Trap := { cause := .poisonConsumption, sub := sub, tval := poisonTval 4 h off }
    if weight then
      let (fresh, s) := s.slotPoisoned cmd.ctx cmd.launch h
      if fresh then s.unstart c cmd else s.faultCmd c cmd (t 3) 0 (groupsRead cmd at_)
    else s.faultCmd c cmd (t 2) 0 (groupsRead cmd at_)
  | none =>
    let s := s.cmdViolates c cmd 4 r.viols
    let g := cmd.cap.plane.kext / 12
    let s := r.malf.foldl (fun s (x : Nat × Nat) =>
      s.tailing cmd.ctx (tailingBytes s.cycle cmd.cap.ha.h x.1 1 x.2 c.val 4 (x.1 / g) (x.1 % g))) s
    let s := if r.malf.isEmpty then s else s.onCore c fun k => { k with sys := { k.sys with accstat := k.sys.accstat ||| 0x40 } }
    let p := cmd.cap.y.toNat % 2
    let plane (f : Face) : Plane :=
      { valid := !f.quarantined, info := cmd.cap.plane, malf := !r.malf.isEmpty, w := r.w, scale := r.scale }
    let s := s.onFace (clusterOf c) fun f => { f with planes := vset f.planes p (plane f) }
    (s.unpin cmd).finish c cmd true none

/-! ### The product (08 R169 to R173) -/

/-- The A tile captured at consumption (08 R169): integers with the scale of their block, the failed accesses in order, the first
poisoned row that is not committed yet (09 R192). (DEDUCED, log 4) -/
def readTile (cmd : Cmd) (rd srd : Rd) : List (List (Int × Nat)) × List Viol × Option (Nat × Bool × Nat) :=
  let f := cmd.cap.fa
  let rows := (mrunPlaces cmd).map fun row => row.map fun l => (readElem f f.width false rd srd 0 l, l)
  let scaled : List (List (ERead × Nat × Option (Bool × Nat) × Option (Bool × Nat))) := rows.map fun row =>
    if cmd.cap.plane.layout = 0 then row.map fun x => (x.1, 0x7F, none, none)
    else row.zipIdx.map fun (x, k) =>
      match f.scaleAt (row.getD (k / 32 * 32) x).2 with
      | some (side, o) => let r := readScale side (if side then srd else rd) o 1; (x.1, r.1.getD 0, r.2.1, r.2.2)
      | none => (x.1, 0x7F, none, none)
  (scaled.map fun row => row.map fun x => (if x.2.2.1.isSome then 0 else bitsInt f.width true x.1.bits, x.2.1),
   scaled.flatMap fun row => row.flatMap fun x => elemViols f cmd.cap.ha f.sh x.1.bad x.2.2.1,
   scaled.zipIdx.findSome? fun (row, r) =>
    if r < cmd.prog.commit then none else (row.findSome? fun x => x.1.poison.or x.2.2.2).map fun p => (r, p.1, p.2))

/-- The consumption of an MRUN's A tile (08 R169, R170, 09 R188): C makes its release here, once. -/
def State.consumeTile (s : State) (c : Fin 256) (cmd : Cmd) : State :=
  let rd := struckRd cmd.prog.struck (s.engRd c cmd.ctx cmd.cap.epoch localSpace 32 cmd.cap.ha false)
  let srd := s.engRd c cmd.ctx cmd.cap.epoch localSpace 32 cmd.cap.fa.sh false
  let (tile, viols, po) := readTile cmd rd srd
  let f := cmd.cap.fa
  let reads := byHandle cmd.cap.ha f.sh (sideBytes true f f.bytes rd srd ((mrunPlaces cmd).flatMap fun l => l.map fun x => (0, x)))
  let s := ((s.sawReads c cmd.cap.epoch 32 reads).cmdViolates c cmd 4 viols).bump
  let bad := po.map fun (r, side, off) => (r, poisonTval 4 (if side then cmd.cap.fa.sh.h else cmd.cap.ha.h) off)
  let s := s.onCmd c cmd.id fun x => { x with prog := { x.prog with consumed := true, tile := tile, bad := bad } }
  match cmd.rel with
  | some f => if cmd.cf.getLsbD 1 && !cmd.prog.consumed then s.increment f.die f.sem 1 else s
  | none => s

/-- The elements of an accumulator row. -/
def accElems (b : BitVec 32768) : List Nat := (List.range 1024).map fun j => b.toNat / 2 ^ (32 * j) % 2 ^ 32

/-- A row from its elements. -/
def accBits (l : List Nat) : BitVec 32768 := BitVec.ofNat 32768 (l.foldr (fun x a => x % 2 ^ 32 + a * 2 ^ 32) 0)

/-- ACCSTAT bits (08 R176). -/
def asIovf : Nat := 1
def asIsat : Nat := 2
def asSat : Nat := 4
def asNx : Nat := 8
def asNp : Nat := 16

/-- A column sum added on the CHANNEL path (08 R172). -/
def addChannel (sat : Bool) (acc : Nat) (p : Int) : Nat × Nat :=
  let t := bitsInt 32 true acc + p
  let u := clampInt t (-2 ^ 31) (2 ^ 31 - 1)
  if u = t then (intBits 32 t, 0) else if sat then (intBits 32 u, asIsat) else (intBits 32 t, asIovf)

/-- A block's partial added on the BLOCK32 path (08 R173), with its ACCSTAT bits. (DEDUCED, log 18) -/
def addBlock (logB : Nat) (acc ea ew : Nat) (p : Int) : Nat × Nat :=
  let x := FFmt.fp32.decode acc
  if ea = 255 ∨ ew = 255 ∨ x.isNan then (0x7FC00000, if x.isNan then 0 else asNp)
  else
    let c := (Num.ofInt p).scale ((ea : Int) + ew - 254 - 12 - logB)
    let (b, fl) := FFmt.fp32.encode (x.add c false) ⟨0, true, 0⟩
    (b, if fl.getLsbD 5 then asSat else if fl.getLsbD 4 then asNx else 0)

/-- The sum of products of two lists. -/
def dot (a b : List Int) : Int := ((a.zip b).map fun p => p.1 * p.2).foldl (· + ·) 0

/-- One row of a product: the elements after it, the ACCSTAT bits, and the first NP event as column and k-block. -/
def rowProduct (pl : Plane) (sat : Bool) (a : List (Int × Nat)) (acc : List Nat) : List Nat × Nat × Option (Nat × Nat) :=
  let n := pl.info.next
  if pl.info.layout = 0 then
    let out := acc.zipIdx.map fun (x, j) =>
      if j < n then addChannel sat x (dot (a.map Prod.fst) (pl.w.map fun (r : List Int) => r.getD j 0)) else (x, 0)
    (out.map Prod.fst, out.foldl (fun f x => f ||| x.2) 0, none)
  else
    let lb := Nat.log2 (tagB pl.info.ktag.code.toNat)
    let out := acc.zipIdx.map fun (x, j) =>
      if j < n then
        (List.range (pl.info.kext / 32)).foldl (fun (y : Nat × Nat × Option Nat) b =>
          let p := dot (((a.drop (32 * b)).take 32).map Prod.fst) (((pl.w.drop (32 * b)).take 32).map fun (r : List Int) => r.getD j 0)
          let (v, f) := addBlock lb y.1 ((a.getD (32 * b) (0, 0)).2) ((pl.scale.getD b []).getD j 0) p
          (v, y.2.1 ||| f, y.2.2.or (if f = asNp then some b else none))) (x, 0, none)
      else (x, 0, none)
    (out.map fun x => x.1, out.foldl (fun f x => f ||| x.2.1) 0,
     out.zipIdx.findSome? fun (x, j) => x.2.2.map fun b => (j, b))

/-- What a matrix command has raised before a fault, kept for its restart: flags and the place of the first NP event. -/
def packOutcome (o : Word) (fl : Nat) (np : Option NpInfo) : Word :=
  let old := o &&& (BitVec.ofNat 64 (2 ^ 56 - 1) ||| BitVec.ofNat 64 (2 ^ 63))
  let place := if o.getLsbD 63 then old else match np with
    | some x => x.tval ||| BitVec.ofNat 64 (2 ^ 63)
    | none => 0
  place ||| BitVec.ofNat 64 (((o >>> 56).toNat % 128 ||| fl) * 2 ^ 56)

/-- The kept flags and place. -/
def outcomeFlags (o : Word) : Nat := (o >>> 56).toNat % 128
def outcomeNp (cmd : Cmd) (o : Word) : Option NpInfo :=
  if o.getLsbD 63 then some { unit := 4, pc := cmd.pc, row := (o >>> 17).setWidth 7, col := (o >>> 24).setWidth 14,
                              kstep := (o >>> 38).setWidth 16, slot := cmd.slot, queue := some 1 }
  else none

/-- The first NaN of a BLOCK32 pass reported (05 R114, 08 R173). -/
def Core.faceNan (c : Core) (clock : Nat) (np : Option NpInfo) : Core :=
  match np with
  | some n => c.nanEvent (some (clock, n.elem)) n
  | none => c

/-- The sectors of a row, 8 columns each, that n columns from col0 touch, and those that they cover (22 R379). -/
def sectorsOf (col0 n : Nat) : BitVec 128 := BitVec.ofNat 128 (2 ^ cdiv (col0 + n) 8 - 2 ^ (col0 / 8))
def wholeRow (n : Nat) : BitVec 128 := BitVec.ofNat 128 (2 ^ (n / 8) - 1)

/-- The code of a row's kind and tag in a command's issue view. -/
def Cmd.rowCode (cmd : Cmd) (r : Nat) : Nat := cmd.cap.mb.toNat / 32 ^ r % 32

/-- The completion of MRUN (08 R172, R173, 09 R188, 22 R382): a row that was CLEAR in the issue view holds zeros, and nothing of it is read
(08 R174). (DEDUCED, log 20) -/
def State.doMrun (s : State) (c : Fin 256) (cmd : Cmd) : State :=
  let pl := (s.faces[clusterOf c]).planes.getD (descPlane cmd.cap.x) {}
  let d := cmd.cap.x
  let r0 := descRow0 d
  let z := cmd.cf.getLsbD 0
  let fresh (r : Nat) : Bool := decide (cmd.rowCode r % 4 = 0)
  let sour (r : Nat) : Bool := !z && !fresh r && ((s.core c).sto.acc.getD (r0 + r) {}).poison &&& sectorsOf 0 pl.info.next ≠ 0
  let bad : Option (Nat × Word) := match cmd.prog.bad, (List.range (descM d)).find? fun r => decide (cmd.prog.commit ≤ r) && sour r with
    | some (r, t), some q => if q < r then some (q, poisonTval 4 0 0) else some (r, t)
    | some x, none => some x
    | none, some q => some (q, poisonTval 4 0 0)
    | none, none => none
  let first := cmd.prog.commit
  let last := (bad.map Prod.fst).getD (descM d)
  let (acc, fl, np) := (List.range last).foldl (fun (st : Vector AccRow 64 × Nat × Option NpInfo) r =>
    if r < first then st
    else
      let row := st.1.getD (r0 + r) {}
      let old := (accElems row.bits).zipIdx.map fun (x, j) => if fresh r || (z && decide (j < pl.info.next)) then 0 else x
      let po := if fresh r then 0 else row.poison &&& ~~~wholeRow pl.info.next
      let (xs, f, n) := rowProduct pl (cmd.cf.getLsbD 2) (cmd.prog.tile.getD r []) old
      (vset st.1 (r0 + r) { row with bits := accBits xs, poison := po }, st.2.1 ||| f,
       st.2.2.or (n.map fun (j, b) => { unit := 4, pc := cmd.pc, row := BitVec.ofNat 7 (r0 + r), col := BitVec.ofNat 14 j,
                                        kstep := BitVec.ofNat 16 b, slot := cmd.slot, queue := some 1 }))) ((s.core c).sto.acc, 0, none)
  let s := s.onCore c fun k => { k with sto := { k.sto with acc := acc } }
  let out := packOutcome cmd.prog.outcome fl np
  match bad with
  | some (r, t) => s.faultCmd c { cmd with prog := { cmd.prog with outcome := out } } { cause := .poisonConsumption, sub := 2, tval := t }
      r (descM d)
  | none =>
    let s := s.onCore c fun k =>
      ({ k with sys := { k.sys with accstat := k.sys.accstat ||| BitVec.ofNat 64 (outcomeFlags out) } }).faceNan s.clock (outcomeNp cmd out)
    s.finish c cmd (!cmd.cf.getLsbD 1) none

/-! ### The drain (08 R175, 09 R189) -/

/-- x of a drained element: v × rs × cs, exact, with its flags. -/
def drainValue (v r c : Num) : Num × Flags :=
  let l := [v, r, c]
  if l.any Num.isNan then (pickNan l, sigFlags l)
  else if l.any Num.isZero && l.any Num.isInf then (.canon, Fl.nv ||| Fl.np)
  else ((v.mul r).mul c, 0)

/-- v of a drained element by its row's kind and tag code as captured (08 R175 steps 1 and 2). -/
def drainElem (code : Nat) (bits : Nat) : Num :=
  match code % 4 with
  | 1 => (Num.ofInt (bitsInt 32 true bits)).scale (-(Nat.log2 (tagB (code / 4)) : Int))
  | 2 => FFmt.fp32.decode bits
  | _ => .zero false

/-- A scale of a drain: its value, its failing byte, its poison. -/
def drainScale (on : Bool) (rd : Rd) (i : Nat) : Num × Option Nat × Option Nat :=
  if !on then (.ofInt 1, none, none)
  else match rd (4 * i) 4 with
    | .ok (bs, po) => (FFmt.fp32.decode (leNat bs), none, po)
    | .error (_, b) => (.zero false, some b, none)

/-- The completion of MDRAIN. (DESIGN CHOICE, log 14; DEDUCED, log 20) -/
def State.doMdrain (s : State) (c : Fin 256) (cmd : Cmd) : State :=
  let d := cmd.cap.x
  let r0 := descRow0 d
  let n := descN d
  let fa := cmd.cap.fa
  let ep := cmd.cap.epoch
  let rdOf (h : HInfo) (w : Bool) : Rd := s.engRd c cmd.ctx ep localSpace 4 h w
  let rs := (List.range (descM d)).map fun r => drainScale (cmd.cf.getLsbD 0) (rdOf cmd.cap.hc false) r
  let cs := (List.range n).map fun j => drainScale (cmd.cf.getLsbD 1) (rdOf cmd.cap.hd false) (descCol0 d + j)
  let colBad := (cs.findSome? fun x => x.2.2).map fun o => poisonTval 4 cmd.cap.hd.h o
  let bad : Option (Nat × Word) := (List.range (descM d)).findSome? fun r =>
    if r < cmd.prog.commit then none
    else if cmd.rowCode r % 4 ≠ 0 && ((s.core c).sto.acc.getD (r0 + r) {}).poison &&& sectorsOf (descCol0 d) n ≠ 0 then some (r, poisonTval 4 0 0)
    else match (rs.getD r (.ofInt 1, none, none)).2.2, chanPoison fa (rdOf fa.sh false) [r] with
      | some o, _ => some (r, poisonTval 4 cmd.cap.hc.h o)
      | none, some o => some (r, poisonTval 4 fa.sh.h o)
      | none, none => colBad.map fun t => (r, t)
  let last := (bad.map Prod.fst).getD (descM d)
  let rows := (List.range last).filter fun r => decide (cmd.prog.commit ≤ r)
  let vals : List (EWrite × Flags) := rows.flatMap fun r =>
    let el := ((accElems ((s.core c).sto.acc.getD (r0 + r) {}).bits).drop (descCol0 d)).take n
    let code := cmd.rowCode r
    let xs := (el.zip cs).map fun (b, k) => drainValue (drainElem code b) (rs.getD r (.ofInt 1, none, none)).1 k.1
    let (ys, fl) := if fa.tag.none? then (xs.map Prod.fst, xs.map fun _ => (0 : Flags))
      else
        let b := tagB fa.tag.code.toNat
        (List.range (n / b)).foldl (fun acc j =>
          let (y, f) := rotateBlock fa.tag.code.toNat (cmd.cap.mask.getD 0) true (((xs.drop (j * b)).take b).map Prod.fst)
          (acc.1 ++ y, acc.2 ++ y.map fun _ => f)) ([], [])
    (ys.zip (fl.zip xs)).zipIdx.map fun (x, j) =>
      ({ loc := TMap.locate cmd.cap.ma (fa.width = 4) 2 [j, r] none, i1 := r, val := x.1, idx := r * n + j }, x.2.1 ||| x.2.2.2)
  let wrd := rdOf cmd.cap.ha true
  let swr := rdOf fa.sh true
  let fails := vals.map fun x => (readElem fa fa.width false wrd wrd 0 x.1.loc).bad
  let keep := (vals.zip fails).filter fun x => x.2.isNone
  let rnd (e : Nat) : Rnd := ⟨cmd.cap.rm, cmd.cap.sat, if cmd.cap.rm = 4 then srword cmd.cap.srBase e else 0⟩
  let (ps, fl, sbs) := narrow fa rnd (rdOf fa.sh false) (fun _ => 0) (keep.map fun x => x.1.1)
  let flags : List (Nat × Flags) := (vals.map fun x => (x.1.idx, x.2)) ++ (keep.zip fl).map fun x => (x.1.1.1.idx, x.2)
  let scale (h : HInfo) (b : Option Nat) : List Viol := (b.map fun b => ⟨h, b, b, b, .scale⟩).toList
  let s' := s.cmdViolates c cmd 4 (scale cmd.cap.hc (rs.findSome? fun x => x.2.1) ++ scale cmd.cap.hd (cs.findSome? fun x => x.2.1) ++
    (sortOn Prod.fst ((fails.zipIdx.flatMap fun x => (elemViols fa cmd.cap.ha fa.sh x.1 none).map fun v => (x.2, v)) ++
      ((keep.zip sbs).flatMap fun x => (elemViols fa cmd.cap.ha fa.sh none x.2).map fun v => (x.1.1.1.idx - cmd.prog.commit * n, v)) ++
      scaleViols fa cmd.cap.ha fa.sh (putFail wrd swr) ps (keep.map fun x => (x.1.1.idx - cmd.prog.commit * n, x.1.1.loc)))).map Prod.snd)
  let factors (on : Bool) (h : HInfo) (i n : Nat) : HInfo × List Nat :=
    (h, if on then passing (rdOf h false) ((List.range (4 * n)).map fun k => 4 * i + k) else [])
  let s' := s'.sawReads c ep 4 [factors (cmd.cf.getLsbD 0) cmd.cap.hc 0 (descM d), factors (cmd.cf.getLsbD 1) cmd.cap.hd (descCol0 d) n,
    factors (!isBlockFmt fa.code.toNat && fa.sideHandle) fa.sh 0 (descM d)]
  let s' := (s'.engPuts c cmd.id cmd.ctx cmd.cap.ha fa.sh localSpace (ps.filter fun p => (putFail wrd swr p).isNone)).bump
  let np := (engNp cmd 4 n 64 flags).map fun x => { x with row := BitVec.ofNat 7 (r0 + x.row.toNat), col := BitVec.ofNat 14 (descCol0 d + x.col.toNat) }
  let out := packOutcome cmd.prog.outcome (orFlags (flags.map Prod.snd)).toNat np
  match bad with
  | some (r, t) =>
    s'.faultCmd c { cmd with prog := { cmd.prog with outcome := out } } { cause := .poisonConsumption, sub := 2, tval := t } r (r + 1)
  | none =>
    let np := outcomeNp cmd out
    (s'.onCore c fun k => k.raiseFlags (BitVec.ofNat 7 (outcomeFlags out)) np (some (s.clock, (np.map NpInfo.elem).getD 0))).finish c cmd true none

/-- The completion of MCLR (09 R190). -/
def State.doMclr (s : State) (c : Fin 256) (cmd : Cmd) : State :=
  (s.onCore c fun k => k.viewRows (descRow0 cmd.cap.x) (descM cmd.cap.x) fun r => { r with bits := 0, poison := 0 }).finish c cmd true none

/-! ### The known-answer test (08 R177) -/

/-- An element of the generated tile. -/
def assayElem (seed r k : Nat) (half : Bool) : Int :=
  let z := mix64 (BitVec.ofNat 64 (seed ^^^ (r * 2 ^ 32) ^^^ k))
  if half then bitsInt 4 true (z.toNat % 16) else bitsInt 8 true (z.toNat % 256)

/-- The checksum of a plane. -/
def assaySum (pl : Plane) (seed : Nat) : Word :=
  (List.range 8).foldl (fun cks r =>
    let a := (List.range pl.info.kext).map fun k => assayElem seed r k (isHalf pl.info.fmt)
    (List.range pl.info.next).foldl (fun (cks : Word) j =>
      cks.rotateLeft 7 ^^^ BitVec.ofNat 64 (intBits 32 (dot a (pl.w.map fun (x : List Int) => x.getD j 0)))) cks) 0

/-- The completion of MASSAY (09 R191, 22 R391). -/
def State.doMassay (s : State) (c : Fin 256) (cmd : Cmd) : State :=
  let pl := (s.faces[clusterOf c]).planes.getD (cmd.cf.toNat % 2) {}
  let s := if assaySum pl cmd.cap.x.toNat = cmd.cap.y then s
    else
      let s := s.onCore c fun k => { k with sys := { k.sys with accstat := k.sys.accstat ||| 0x20 } }
      s.onFace (clusterOf c) fun f => f.suspected 64
  s.finish c cmd true none

end Sys2Proof.Machine
end

