-- ==== Sys2Proof/Machine/Transfer.lean ====
section
/-! DEFINITION. The issue of the copy, stream, weight, decode and publication commands (16 R329 to R350). -/

namespace Sys2Proof.Machine

/-! ### Copies (16 R333 to R339) -/

/-- The queue of COPY and COPY2 (02 R48): load when the destination is a LOCAL handle of the core. -/
def copyQueue (a : BitVec 4) (s : State) : Nat := if Ent.space (s.mapHandle (s.me.tmap a)).e = 1 then 0 else 2

/-- The tensor-map checks of a copy (16 R333 to R336). -/
def copyMaps (k : CopyKind) (a b : BitVec 4) (dst src : BitVec 512) : Except Trap (List Nat) := do
  if TMap.gather dst then mapTrap a
  if (TMap.gather src && (k.op = 0x48 || k.op = 0x4B)) || (!TMap.gather src && k.op = 0x4A) then mapTrap b
  if TMap.gather src && (decide (TMap.stride src 4 % 4 ≠ 0) || TMap.wrap src 1) then mapTrap b
  checkMap a dst
  checkMap b src
  match copyCounts k dst src with
  | .error _ => mapTrap b
  | .ok n => return n

/-- A format that a copy accepts in a plain move alone (14 R291). -/
def plainOnly (f : Fmt) : Bool := f.code = 0x48 || isSparse f.code

/-- The checks of R336, and the command issued. -/
def State.issueCopy (s : State) (k : CopyKind) (q : Nat) (a b : BitVec 4) (e : EngOpt) (cf : BitVec 3) (x y : Word) : Except Trap State := do
  let dst := s.me.tmap a
  let src := s.me.tmap b
  let ha := s.mapHandle dst
  let hb := s.mapHandle src
  let da := s.holder s.me ha.e
  let db := s.holder s.me hb.e
  let fa := effFmt da dst
  let fb := effFmt db src
  let n ← copyMaps k a b dst src
  s.checkLegal dst
  s.checkLegal src
  if !plainPair fa fb && (plainOnly fa || plainOnly fb) then
    trapWith .format ((if plainOnly fb then fb.code else fa.code).setWidth 64)
  checkHolder da dst
  checkHolder db src
  if !fa.tag.none? && !fb.tag.none? && fa.tag ≠ fb.tag then tagTrap 5 fb.tag fa.tag
  let mask ← s.captureMask fb.tag fa.tag (axisCount fb.tag dst (if fb.tag.none? && k.t then n.getD 1 0 else n.getD 0 0))
  if 2 ^ 32 < volume n then trapWith .engineOperand (BitVec.ofNat 64 (4 + volume n % 2 ^ 56 * 256))
  let s ← if k.op = 0x4B then .ok s else s.pinSources (pinsOf fb.sideHandle fb hb)
  s.issueCmd q k.op e cf none { ma := dst, mb := src, ha := ha, hb := hb, fa := fa, fb := fb, mask := mask, x := x, y := y }

/-- COPY. -/
def execCopy (g : Guard) (a b : BitVec 4) (e : EngOpt) (s : State) : Host.Outcome State Fault Refusal :=
  runSlot g (engCmd (copyQueue a) (fun s => s.mapUses [a, b]) fun s => do
    s.issueCopy ⟨0x48, false⟩ (copyQueue a s) a b e 0 0 0) s

/-- COPY2. -/
def execCopy2 (g : Guard) (a b : BitVec 4) (t : BitVec 1) (e : EngOpt) (s : State) : Host.Outcome State Fault Refusal :=
  runSlot g (engCmd (copyQueue a) (fun s => s.mapUses [a, b]) fun s => do
    s.issueCopy ⟨0x49, t = 1⟩ (copyQueue a s) a b e (t.setWidth 3) 0 0) s

/-- GATH. -/
def execGath (g : Guard) (a b : BitVec 4) (e : EngOpt) (s : State) : Host.Outcome State Fault Refusal :=
  runSlot g (engCmd (fun _ => 0) (fun s => s.mapUses [a, b]) fun s => do
    s.issueCopy ⟨0x4A, false⟩ 0 a b e 0 0 0) s

/-- MCAST (16 R339): the group is checked first; its id and the issuer's bank format are captured. -/
def execMcast (g : Guard) (a b : BitVec 4) (f : BitVec 1) (l : BitVec 2) (e : EngOpt) (s : State) : Host.Outcome State Fault Refusal :=
  runSlot g (engCmd (fun _ => 2) (fun s => s.mapUses [a, b]) fun s => do
    let grp ← s.groupRef l.toNat
    let h := s.mapHandle (s.me.tmap a)
    if Ent.space h.e ≠ 1 then mapTrap a
    s.issueCopy ⟨0x4B, false⟩ 2 a b e (l.setWidth 3 ||| (f.setWidth 3 <<< 2)) (BitVec.ofNat 64 grp)
      (s.me.sys.bankfmt.getD (Ent.bank h.e) 0)) s

/-! ### Streams (16 R340 to R345) -/

/-- A packet's element formats (16 R340). -/
def ringFormat (c : BitVec 8) : Bool :=
  decide (c.toNat ≤ 5) || decide (0x10 ≤ c.toNat ∧ c.toNat ≤ 0x12) || decide (0x20 ≤ c.toNat ∧ c.toNat < 0x40)

/-- SUBS. (DEDUCED, log 15) -/
def execSubs (g : Guard) (a b : BitVec 4) (l : BitVec 1) (e : EngOpt) (s : State) : Host.Outcome State Fault Refusal :=
  runSlot g (engCmd (fun _ => 0) (fun s => s.mapUses [a, b]) fun s => do
    let ring := s.me.tmap a
    let src := s.me.tmap b
    let ha := s.mapHandle ring
    let hb := s.mapHandle src
    let da := s.holder s.me ha.e
    let db := s.holder s.me hb.e
    let fa := effFmt da ring
    let fb := effFmt db src
    let refuse (v : Nat) : Except Trap Unit := trapWith .engineOperand (BitVec.ofNat 64 (1 + v % 2 ^ 56 * 256))
    if Ent.space ha.e ≠ 1 then refuse ha.h
    if Ent.base ha.e % 16 ≠ 0 then refuse (Ent.base ha.e)
    if ringSize ha.e % 16 ≠ 0 ∨ ringSize ha.e < 64 then refuse (ringSize ha.e)
    if TMap.fmt ring ≠ da.code ∨ (da.code ≠ 0 ∧ TMap.tag ring ≠ da.tag) then tagTrap 4 (TMap.tag ring) da.tag
    if TMap.gather src then mapTrap b
    if l = 1 then
      -- a list moves raw bytes: its maps' formats decode nothing, but their tags are checked (06 R117, R123)
      [(da, ring), (db, src)].forM fun x =>
        if tagOk (TMap.tag x.2).code.toNat (TMap.tag x.2).id.toNat && (x.1.code = 0 || tagOk x.1.tag.code.toNat x.1.tag.id.toNat) then .ok ()
        else trapWith .format ((TMap.fmt x.2).setWidth 64)
      checkHolder db src
      s.issueCmd 0 0x4C e 1 none { ma := ring, mb := src, ha := ha, hb := hb, fa := fa, fb := fb }
    else
      if (List.range 5).any (TMap.wrap src) then mapTrap b
      checkMap b src
      if !ringFormat fa.code then trapWith .format (fa.code.setWidth 64)
      s.checkLegal ring
      s.checkLegal src
      if !plainPair fa fb && plainOnly fb then trapWith .format (fb.code.setWidth 64)
      checkHolder db src
      if !fa.tag.none? && !fb.tag.none? && fa.tag ≠ fb.tag then tagTrap 5 fb.tag fa.tag
      let mask ← s.captureMask fb.tag fa.tag (mapCount src 0)
      s.issueCmd 0 0x4C e 0 none { ma := ring, mb := src, ha := ha, hb := hb, fa := fa, fb := fb, mask := mask }) s

/-- UNSUB. -/
def execUnsub (g : Guard) (a : BitVec 4) (e : EngOpt) (s : State) : Host.Outcome State Fault Refusal :=
  runSlot g (engCmd (fun _ => 0) (fun s => [TMap.handle (s.me.tmap a)]) fun s => do
    s.issueCmd 0 0x4D e 0 none { ma := s.me.tmap a, ha := s.mapHandle (s.me.tmap a) }) s

/-- RFREE. -/
def execRfree (g : Guard) (a b : BitVec 4) (e : EngOpt) (s : State) : Host.Outcome State Fault Refusal :=
  runSlot g (engCmd (fun _ => 2) (fun s => [TMap.handle (s.me.tmap a)]) fun s => do
    s.issueCmd 2 0x4E e 0 none { ma := s.me.tmap a, ha := s.mapHandle (s.me.tmap a), x := s.me.mreg b }) s

/-! ### Weights (16 R346 to R348) -/

/-- HFETCH; whether the page is FULL at issue decides its duration (16 R331). -/
def execHfetch (g : Guard) (a : BitVec 4) (l : BitVec 1) (e : EngOpt) (s : State) : Host.Outcome State Fault Refusal :=
  runSlot g (engCmd (fun _ => 0) (fun s => [(s.me.mreg a).toNat % 256]) fun s => do
    let h := (s.me.mreg a).toNat % 256
    let x := s.entry s.me h
    s.issueCmd 0 0x50 e (l.setWidth 3) none { ha := ⟨h, x⟩, y := if Ent.state x = 2 then 1 else 0 }) s

/-- A result queue field: 7 names none. -/
def resultQueue (c : BitVec 3) : Option Nat := if c = 7 then none else some c.toNat

/-- PROSP (16 R347): its own check of a rotated holder comes before the map's against the holder. (DEDUCED, log 24) -/
def execProsp (g : Guard) (a b : BitVec 4) (c : BitVec 3) (e : EngOpt) (s : State) : Host.Outcome State Fault Refusal :=
  let list (d : Word) : Nat := d.toNat / 2 ^ 38 % 256
  runSlot g (engCmd (fun _ => 2) (fun s => s.mapUses [a] ++ [list (s.me.mreg b)]) fun s => do
    let d := s.me.mreg b
    let m := s.me.tmap a
    let h := s.mapHandle m
    let hold := s.holder s.me h.e
    if d.getLsbD 37 then trapWith .reservedField d
    if (List.range 5).any (TMap.wrap m) || TMap.gather m then mapTrap a
    let f := hold.code.toNat
    if !((0x10 ≤ f ∧ f ≤ 0x12) ∨ (0x20 ≤ f ∧ f < 0x40)) ∨ !mapLegal hold m then trapWith .format (hold.code.setWidth 64)
    if !hold.tag.none? then tagTrap 1 hold.tag {}
    checkHolder hold m
    let n := mapCount m 0
    if n = 0 ∨ 1024 < n then trapWith .engineOperand (BitVec.ofNat 64 (n % 2 ^ 56 * 256))
    s.issueCmd 2 0x51 e c (resultQueue c) { ma := m, ha := h, fa := hold, x := d, hc := ⟨list d, s.entry s.me (list d)⟩ }) s

/-- HREBIND. -/
def execHrebind (g : Guard) (a b : BitVec 4) (e : EngOpt) (s : State) : Host.Outcome State Fault Refusal :=
  runSlot g (engCmd (fun _ => 2) (fun s => [(s.me.mreg a).toNat % 256]) fun s => do
    let h := (s.me.mreg a).toNat % 256
    s.issueCmd 2 0x52 e 0 none { ha := ⟨h, s.entry s.me h⟩, x := (s.me.mreg b).setWidth 32 |>.setWidth 64 }) s

/-! ### Decode and publication (16 R349, R350) -/

/-- A field of a job descriptor (15 R319). -/
def jobField (d : BitVec 512) (off n : Nat) : Nat := d.toNat / 2 ^ (8 * off) % 2 ^ (8 * n)

/-- The address of a job descriptor: handle and offset. -/
def jobHandle (x : Word) : Nat := x.toNat % 256
def jobOffset (x : Word) : Nat := x.toNat / 256 % 2 ^ 32

/-- The handles of a DECJ: the descriptor's, and those that it names. -/
def State.decjUses (s : State) (a : BitVec 4) : List Nat :=
  let x := s.me.mreg a
  let e := s.entry s.me (jobHandle x)
  jobHandle x :: match coreFail e (jobOffset x) 64 false with
    | some _ => []
    | none => let d := BitVec.ofNat 512 (leNat (s.me.bytes (localAddr e (jobOffset x)) 64)); [jobField d 4 1, jobField d 5 1]

/-- DECJ: the descriptor is read at issue; a read that violates submits no job (`y` = 1). The tag of a RAW destination is ignored (06 R123). -/
def execDecj (g : Guard) (a : BitVec 4) (c : BitVec 3) (e : EngOpt) (s : State) : Host.Outcome State Fault Refusal :=
  runSlot g (engCmd (fun _ => 2) (fun s => s.decjUses a) fun s => do
    let x := s.me.mreg a
    if x.toNat / 2 ^ 40 ≠ 0 then trapWith .reservedField x
    checkAligned (jobHandle x) (jobOffset x) 64
    match s.readLocal (jobHandle x) (s.entry s.me (jobHandle x)) (jobOffset x) 64 with
    | (none, true, s) => return s
    | (none, false, s) => s.issueCmd 2 0x54 e c (resultQueue c) { y := 1 }
    | (some bs, _, s) =>
      let d := BitVec.ofNat 512 (leNat bs)
      let src : HInfo := ⟨jobField d 4 1, s.entry s.me (jobField d 4 1)⟩
      let dst : HInfo := ⟨jobField d 5 1, s.entry s.me (jobField d 5 1)⟩
      let f := s.holder s.me dst.e
      if f.code ≠ 0 then
        if !tagOk f.tag.code.toNat f.tag.id.toNat then trapWith .format (f.code.setWidth 64)
        if !f.tag.none? then tagTrap 5 f.tag {}
      s.issueCmd 2 0x54 e c (resultQueue c) { ma := d, ha := src, hb := dst, fb := f }) s

/-- PUBLISH. -/
def execPublish (g : Guard) (c : BitVec 3) (e : EngOpt) (s : State) : Host.Outcome State Fault Refusal :=
  runSlot g (engCmd (fun _ => 2) (fun _ => []) fun s => do
    s.issueCmd 2 0x55 e c (resultQueue c) {}) s

end Sys2Proof.Machine
end

