-- ==== Sys2Proof/Machine/EngineEvents.lean ====
section
/-! DEFINITION. What the engines do on their own: the start and the completion of commands (14 R281 to R284, 16 R329 to R350),
the consumption of an A tile, streams, the answers of the host and the network. -/

namespace Sys2Proof.Machine

/-! ### Ordering facts -/

/-- A matrix command that a lease counts (08 R164). -/
def Cmd.isMatrix (c : Cmd) : Bool := decide (0x42 ≤ c.op.toNat ∧ c.op.toNat ≤ 0x46)

/-- A copy-engine command. -/
def Cmd.isCopy (c : Cmd) : Bool := decide (0x48 ≤ c.op.toNat ∧ c.op.toNat ≤ 0x4B)

/-- The command at the head of a queue that may start next, among the 16 that the queue has room for (14 R281): the fault slot holds every
other one back (21 R371). -/
def Core.head (k : Core) (q : Nat) : Option Cmd :=
  (((k.eng.queues.getD q []).take 16).find? fun x => x.prog.start.isNone).bind fun x =>
    if (k.eng.fault.getD q none).isSome && !x.prog.waiting then none else some x

/-- The token counts that a command pops, and those that it pushes (14 R283). -/
def Cmd.pops (c : Cmd) : List Nat :=
  (if c.tpp then (tokenFrom c.queue false).toList else []) ++ if c.tpn then (tokenFrom c.queue true).toList else []
def Cmd.pushes (c : Cmd) : List Nat :=
  (if c.thp then (tokenTo c.queue false).toList else []) ++ if c.thn then (tokenTo c.queue true).toList else []

/-- The started commands of a core. -/
def Core.started (k : Core) : List Cmd :=
  ((List.range 3).flatMap fun q => k.eng.queues.getD q []).filter fun x => x.prog.start.isSome

/-- Tokens to pop are there and pushes have room (14 R283). -/
def Core.tokensOk (k : Core) (c : Cmd) : Bool :=
  (c.prog.begun || c.pops.all fun i => decide (1 ≤ k.eng.tokens.getD i 0)) &&
    c.pushes.all fun i => decide (k.eng.tokens.getD i 0 + (k.started.filter fun x => x.pushes.contains i).length < 15)

/-- The four cores of a cluster. -/
def clusterCores (k : Fin 64) : List (Fin 256) := (List.range 4).map fun i => coreId (4 * k.val + i)

/-- The resources of a matrix command are free on its face (08 R167). -/
def State.resourcesFree (s : State) (c : Fin 256) (cmd : Cmd) : Bool :=
  !cmd.isMatrix || !((clusterCores (clusterOf c)).any fun o =>
    (s.core o).started.any fun x => x.isMatrix && conflicts x cmd (o = c))

/-- The scale handle of a side, where a transfer reads it. -/
def Fmt.side (f : Fmt) : List HInfo := if f.sideHandle then [f.sh] else []

/-- The handles whose data a command reads, scale handles among them; it is held at the head while one is not FULL (11 R222). A matrix
command uses scales of block formats alone (08 R168, 09 R186); the channel factor of a destination is read, but by no plain move.
(DEDUCED, log 36) -/
def Cmd.sources (c : Cmd) : List HInfo :=
  let block (f : Fmt) : List HInfo := if isBlockFmt f.code.toNat then f.side else []
  let chan (f : Fmt) : List HInfo := if isBlockFmt f.code.toNat then [] else f.side
  let o := c.op.toNat
  if o = 0x42 ∨ o = 0x43 then c.cap.ha :: block c.cap.fa
  else if o = 0x44 then (if c.cf.getLsbD 0 then [c.cap.hc] else []) ++ (if c.cf.getLsbD 1 then [c.cap.hd] else []) ++ chan c.cap.fa
  else if 0x48 ≤ o ∧ o ≤ 0x4B then c.cap.hb :: c.srcSide.side ++ if plainPair c.cap.fa c.cap.fb then [] else chan c.cap.fa
  else if o = 0x4C then c.cap.hb :: c.cap.fb.side
  else if o = 0x51 then [c.cap.ha, c.cap.hc]
  else if o = 0x54 ∧ c.cap.y = 0 then [c.cap.ha]
  else []

/-- The entry of a command's handle as its launch resolves it now. -/
def State.nowEntry (s : State) (cmd : Cmd) (h : Nat) : BitVec 256 := s.entryFor cmd.launch cmd.ctx h

/-- A captured entry with the STATE, and for a weight handle the BASE and the page, of this cycle (11 R229). -/
def State.freshHandle (s : State) (cmd : Cmd) (h : HInfo) : HInfo :=
  if Ent.space h.e = 0 then h
  else
    let n := s.nowEntry cmd h.h
    let e := Ent.put h.e 136 3 (Ent.state n)
    { h with e := if Ent.kind h.e = 2 then Ent.put (Ent.put e 0 64 (Ent.base n)) 224 32 (Ent.auxw n) else e }

/-- What a command captured, with its handles as they are in this cycle. -/
def State.freshCap (s : State) (cmd : Cmd) : Cap :=
  let now := s.freshHandle cmd
  let cap := cmd.cap
  { cap with ha := now cap.ha, hb := now cap.hb, hc := now cap.hc, hd := now cap.hd,
             fa := { cap.fa with sh := now cap.fa.sh }, fb := { cap.fb with sh := now cap.fb.sh } }

/-- A fetch of a page is already on its way to a die's queue or waits in it (15 R309). -/
def State.fetchPending (s : State) (d : Fin 4) (ctx page : Nat) : Bool :=
  (s.msgs.any fun m => match m.body with | .fetchReq x r => x = d.val && r.ctx = ctx && s.fetchPage r = page && r.demand | _ => false) ||
    (s.dies[d]).fetch.any fun r => r.ctx = ctx && s.fetchPage r = page && r.demand

/-- A core's live subscription to a ring handle. -/
def Core.subOf (k : Core) (ring : Nat) : Option Sub := k.eng.subs.find? fun x => x.ring.h = ring

/-- The start checks of a command (08 R165, 09 R182, 16 R332). -/
def State.startTrap (s : State) (c : Fin 256) (cmd : Cmd) : Option Trap :=
  let pl := (s.faces[clusterOf c]).planes.getD (cmd.planeNo.getD 0) {}
  let plane (n : Nat) : Option Trap := some { cause := .plane, tval := BitVec.ofNat 64 (cmd.planeNo.getD 0 + 2 * n) }
  if cmd.isMatrix && !s.leaseLive c then some { cause := .lease, tval := BitVec.ofNat 64 (cmd.op.toNat + cmd.pc.toNat * 128) }
  else if cmd.op.toNat = 0x43 ∨ cmd.op.toNat = 0x46 then
    if !pl.valid then plane 0
    else if pl.info.ctx ≠ cmd.ctx then plane 1
    else if pl.info ≠ cmd.cap.plane then plane 2
    else none
  else if cmd.op.toNat = 0x4C then
    if ((s.core c).subOf cmd.cap.ha.h).isSome then some { cause := .engineOperand, tval := BitVec.ofNat 64 (2 + cmd.cap.ha.h * 256) }
    else if 4 ≤ (s.core c).eng.subs.length then some { cause := .engineOperand, tval := BitVec.ofNat 64 (3 + 4 * 256) }
    else none
  else none

/-- The number of the core that asks for a face: the leader's in a gang (08 R164). -/
def Core.leader (k : Core) (c : Fin 256) : Nat := ((k.gang c).headD c).val % 4

/-- The lanes of a decode unit in service (15 R328). -/
def State.lanes (s : State) (u : Nat) : Nat := ((List.range 16).filter fun i => s.decLanes.getLsbD (16 * u + i)).length

/-- The unit that accepts a job: the one with fewer waiting jobs, unit 0 on a tie, with a lane in service and room (16 R349). -/
def State.unitFor (s : State) : Option (Fin 2) :=
  let n (u : Fin 2) : Nat := (s.units[u]).length
  let ok (u : Fin 2) : Bool := decide (0 < s.lanes u.val)
  let full (u : Fin 2) : Option (Fin 2) := if n u < 32 then some u else none
  if ok 0 && ok 1 then full (if n 1 < n 0 then 1 else 0)
  else if ok 0 then full 0
  else if ok 1 then full 1
  else none

/-- A DECJ waits for a unit that accepts it; one that fails at once needs none (16 R349, 15 R328). -/
def State.unitWaits (s : State) (cmd : Cmd) : Bool :=
  cmd.op.toNat = 0x54 && cmd.cap.y ≠ 1 && decide (0 < s.lanes 0 + s.lanes 1) && s.unitFor.isNone

/-- The STATE of a source at which a command waits (11 R222): EMPTY, INFLIGHT or POISON. -/
def shut (h : HInfo) : Bool := (Ent.kind h.e = 1 || Ent.kind h.e = 2) && (Ent.state h.e = 0 || Ent.state h.e = 1 || Ent.state h.e = 3)

/-- The handle whose page a command at the head demands (09 R186, 11 R222, 15 R309). -/
def State.demands (s : State) (c : Fin 256) (cmd : Cmd) : Option Nat :=
  ((cmd.sources.map (s.freshHandle cmd)).find? fun h =>
    decide (Ent.kind h.e = 2) && shut h && decide (Ent.state h.e ≠ 1) && !s.fetchPending (dieOf c) cmd.ctx (Ent.auxw h.e)).map HInfo.h

/-- A command reads its core's own scratchpad (12 R251). -/
def Cmd.readsOwn (c : Cmd) : Bool := c.sources.any fun h => Ent.space h.e = 1

/-- The conditions of a start beside lease, start checks and acquire (14 R282): the command ahead has started in an earlier cycle, tokens,
fences, resources, sources, a decode unit, and no lease count that goes ahead of the restored queue (08 R166). -/
def State.mayStart (s : State) (c : Fin 256) (q : Nat) (cmd : Cmd) : Bool :=
  let k := s.core c
  !(decide (q = 1) && (decide (k.eng.leaseLeft ≠ 0) || (s.faces[clusterOf c]).waiting.any fun r => r.cmd.isNone && r.k = k.leader c)) &&
    k.tokensOk cmd && !k.behind cmd.after cmd.afterSys && s.resourcesFree c cmd && decide (k.eng.lastStart.getD q 0 < s.clock) &&
    !((cmd.sources.map (s.freshHandle cmd)).any shut) && !s.unitWaits cmd

/-- A core's context is on its way out or in: its queues start nothing (21 R375, 08 R166). -/
def Core.away (k : Core) : Bool := match k.seq.mode with | .saving _ | .restoring _ => true | _ => false

/-- A core's context is being written out or read back: its running commands have drained (21 R375). -/
def Core.stored (k : Core) : Bool := match k.seq.mode with | .saving (some _) | .restoring _ => true | _ => false

/-- What the command at a head does in a cycle (14 R282). -/
inductive StartStep where
  | wait
  | fetch (handle : Nat)
  | request (n : Nat)
  | hold
  | trap (t : Trap)
  /-- A fault that has waited for its queue's fault slot. -/
  | fault (r : TrapReq)
  | acquire (f : FlagRef)
  | begin
  deriving DecidableEq, Repr

/-- An acquire on its way: sent, or granted with the grant still to arrive. -/
def AcqState.out (clock : Nat) : AcqState → Bool
  | .idle => false
  | .sent _ => true
  | .granted t => decide (clock < t)

/-- A command's conditions in order: the demand fetch as it comes to the head, the request of one restarted after the lease trap, as MLEASE 64
makes it (21 R372), then every other condition; the start checks only before the acquire is sent and in the cycle of its grant (14 R282,
08 R165). -/
def State.startStep (s : State) (c : Fin 256) (q : Nat) (cmd : Cmd) : StartStep :=
  let k := s.core c
  match cmd.prog.pending with
  | some r => if k.away || (k.eng.fault.getD q none).isSome then .wait else .fault r
  | none =>
  match if k.away then none else s.demands c cmd with
  | some h => .fetch h
  | none =>
    match cmd.isMatrix && !(decide (k.gmask ≠ 0) && s.leaseLive c), cmd.prog.leaseReq with
    | true, some n =>
      if k.away || (s.faces[clusterOf c]).waiting.any fun r => r.cmd = some cmd.id && r.who = c.val % 4 then .wait else .request n
    | _, _ =>
      if k.away || !s.mayStart c q cmd || cmd.prog.acq.out s.clock then .wait
      else if cmd.op.toNat = 0x40 && cmd.prog.leaseReq.isSome && !(k.gmask ≠ 0 && s.leaseLive c) then .wait
      else if decide (cmd.cap.epoch.own ≠ 0) && cmd.readsOwn && cmd.prog.hold.isNone then .hold
      else if (match cmd.prog.hold with | some t => decide (s.clock < t) | none => false) then .wait
      else match s.startTrap c cmd with
      | some t => .trap t
      | none =>
        match cmd.acq, cmd.prog.acq with
        | some f, .idle => .acquire f
        | _, _ => .begin

/-- A command's acquire given up: a granted decrement goes back as an increment (14 R282), a request is withdrawn. -/
def State.giveBack (s : State) (cmd : Cmd) : State :=
  match cmd.acq, cmd.prog.acq with
  | some f, .granted _ => s.send s.clock (.semInc f.die f.sem 1)
  | some _, .sent id =>
    { s with
      msgs := s.msgs.filter fun m => match m.body with | .semReq _ w => w.id ≠ id | _ => true
      dies := s.dies.map fun d => { d with semWait := d.semWait.filter fun w => w.id ≠ id } }
  | _, _ => s

/-- A matrix command counted against its lease as it starts (08 R164). -/
def State.countLease (s : State) (c : Fin 256) (cmd : Cmd) : State :=
  if !cmd.isMatrix then s
  else s.onFace (clusterOf c) fun f => match f.lease with
    | some l => { f with lease := some { l with left := l.left - 1, expired := decide (l.left ≤ 1) } }
    | none => f

/-- A slot's last use (15 R306). -/
def State.touchSlot (s : State) (ctx page : Nat) : State :=
  s.onCtx ctx fun x => { x with slots := x.slots.map fun sl =>
    if sl.state ≠ .free && sl.page = page then { sl with lastUse := s.clock } else sl }

/-! ### Prospector capture (15 R313, 16 R347) -/

/-- The captured selection of a PROSP, in its order, and the violations of its reads. -/
def State.prospSelect (s : State) (c : Fin 256) (cmd : Cmd) : List Nat × List Viol × State :=
  let n := mapCount cmd.cap.ma 0
  let d := cmd.cap.x
  let rd := s.engRd c cmd.ctx cmd.cap.epoch localSpace 4 cmd.cap.ha false
  let lrd := s.engRd c cmd.ctx cmd.cap.epoch localSpace 4 cmd.cap.hc false
  let place (i : Nat) : Loc := TMap.locate cmd.cap.ma false 1 [i] none
  let ls := (List.range n).map fun i => readElem cmd.cap.fa cmd.cap.fa.width true rd rd 0 (place i)
  let es := (List.range n).map fun i => lrd (16 * (d.toNat / 2 ^ 46) + 2 * i) 2
  let thr := FFmt.fp32.decode (d.toNat % 2 ^ 32)
  let entry (i : Nat) : Nat := match es.getD i (.ok ([], none)) with | .ok (bs, none) => leNat bs | _ => 0
  let val (i : Nat) : Num := let r := ls.getD i {}; if r.poison.isSome then .canon else r.val
  let cand := (List.range n).filter fun i => decide (32768 ≤ entry i) && !(val i).isNan && !thr.isNan && ((val i).cmp thr != .lt)
  let before (i j : Nat) : Bool := match (val i).cmp (val j) with | .gt => true | .lt => false | .eq => decide (i ≤ j)
  let ordered := (cand.foldr (insertBy before) []).take (d.toNat / 2 ^ 32 % 32 + 1)
  let bad := (ls.flatMap fun r => r.viols cmd.cap.fa cmd.cap.ha cmd.cap.ha) ++
    ((es.findSome? fun e => match e with | .error f => some f | .ok _ => none).map fun (r, b) => ⟨cmd.cap.hc, b, b, b, r⟩).toList
  let reads : Bytes := byHandle cmd.cap.ha cmd.cap.ha (sideBytes true cmd.cap.fa cmd.cap.fa.bytes rd rd ((List.range n).map fun i => (0, place i))) ++
    [(cmd.cap.hc, passing lrd ((List.range (2 * n)).map fun i => 16 * (d.toNat / 2 ^ 46) + i))]
  (ordered.map fun i => entry i % 256, firstEach bad, (s.sawReads c cmd.cap.epoch 4 reads).bump)

/-! ### The start of a command (14 R282) -/

/-- The command begins: tokens, counts, its due cycle, and what its opcode does at the start. -/
def State.beginCmd (s : State) (c : Fin 256) (q : Nat) (cmd : Cmd) : State :=
  let step := s.dies[dieOf c.val].step
  let cap := s.freshCap cmd
  -- a popped token and an acquire order its reads after what the core's engines have written (13 R269, R272)
  let seen := if cmd.pops.isEmpty && cmd.acq.isNone then cap.epoch.eng else (s.core c).sto.storeSeq
  let pages := if cmd.isCopy || cmd.op.toNat = 0x42 then s.pages cmd.ctx else none
  let prog := { cmd.prog with leaseReq := none, tile := [], bad := none, struck := [], pages := pages }
  let cmd := { cmd with cap := { cap with epoch := { cap.epoch with eng := seen } }, prog := prog }
  let s := cmd.sources.foldl (fun (s : State) (h : HInfo) => if Ent.kind h.e = 2 then s.touchSlot cmd.ctx (Ent.auxw h.e) else s) s
  let run (d : Option Nat) (out : Word) (s : State) : State :=
    let s := s.onCmd c cmd.id fun _ => { cmd with prog := { cmd.prog with start := some s.clock, due := d, outcome := out, begun := true } }
    let s := s.onCore c fun k => { k with eng := { k.eng with lastStart := vset k.eng.lastStart q s.clock } }
    let s := if cmd.prog.begun then s else s.onCore c fun k => cmd.pops.foldl (fun k i => k.bumpToken (some i) false) k
    s.countLease c cmd
  let after (n : Nat) : Option Nat := some (s.clock + stretch step n)
  -- a stream command takes longer under load (16 R331)
  let stream (s : State) : State := let (n, t) := s.load; run ((after (s.duration c cmd)).map fun x => x + n) 0 t
  match cmd.op.toNat with
  | 0x40 =>
    let k := s.core c
    if k.gmask ≠ 0 && s.leaseLive c then
      let mine (r : LeaseReq) : Bool := r.cmd = some cmd.id && r.who = c.val % 4
      run (some s.clock) 0 (s.onFace (clusterOf c) fun f => { f with waiting := f.waiting.filter fun r => !mine r })
    else
      let s := s.onFace (clusterOf c) fun f => { f with waiting := f.waiting ++ [⟨k.leader c, cmd.cap.x.toNat, some cmd.id, c.val % 4⟩] }
      s.onCmd c cmd.id fun x => { x with prog := { x.prog with leaseReq := some cmd.cap.x.toNat } }
  | 0x41 =>
    if s.leaseLive c then
      run none 0 (s.onFace (clusterOf c) fun f => { f with lease := f.lease.map fun l => { l with freed := true } })
    else run (some s.clock) 0 s
  | 0x42 =>
    let s := s.onFace (clusterOf c) fun f =>
      let p := cmd.planeNo.getD 0
      let pl := f.planes.getD p {}
      { f with planes := vset f.planes p { pl with valid := false } }
    run (after (s.duration c cmd)) 0 s
  | 0x48 => copy s run after
  | 0x49 => copy s run after
  | 0x4A => copy s run after
  | 0x4B => copy s run after
  | 0x4C => stream s
  | 0x4D => if ((s.core c).subOf cmd.cap.ha.h).isSome then stream s else run (some s.clock) 0 s
  | 0x4E => stream s
  | 0x50 =>
    let e := s.nowEntry cmd cmd.cap.ha.h
    let refuse (r : Reason) : State := (run (after 16) 2 s).engLater c cmd 9 cmd.cap.ha 0 0 r
    if Ent.kind e ≠ 2 then refuse .kind
    else if Ent.state e = 4 then refuse .retHandle
    else if Ent.state e = 0 ∨ Ent.state e = 3 then
      let r : FetchReq := { ctx := cmd.ctx, handle := cmd.cap.ha.h, launch := cmd.launch, demand := false, prosp := false, cmd := some (c.val, cmd.id) }
      run (after 16) 0 (s.send (s.later c.val 16) (.fetchReq (dieOf c.val) r))
    else run (after 16) (if Ent.state e = 2 then 3 else 1) s
  | 0x51 =>
    let (sel, bad, s) := s.prospSelect c cmd
    let d := dieOf c.val
    let last := ((s.dies[d].prosp.getLast?).map ProspJob.at_).getD 0
    let t := max s.clock last + stretch step (16 + cdiv (mapCount cmd.cap.ma 0) 64)
    let s := run none 0 (s.onDie d fun x => { x with prosp := x.prosp ++ [⟨c.val, cmd.id, sel, t⟩] })
    bad.foldl (fun s v => s.engLater c cmd 8 v.h v.off v.byte v.why) s
  | 0x52 => run none 0 (s.send (s.later c.val 200) (.hrebind c.val cmd.id))
  | 0x55 =>
    let v := ((Table.get s.ctxs cmd.ctx).map Ctx.version).getD 0 + 1
    let s := s.onCtx cmd.ctx fun x => { x with version := v }
    let (n, s) := s.choose 4095
    run none v (s.send (s.clock + 1 + n) (.flush c.val cmd.id))
  | _ => run (after (s.duration c cmd)) cmd.prog.outcome s
where
  copy (s : State) (run : Option Nat → Word → State → State) (after : Nat → Option Nat) : State :=
    match s.copyLap c cmd with
    | some (h, o) => (run (some s.clock) 1 s).engLater c cmd 2 h o o .overlap
    | none => run (after (s.duration c cmd)) 0 s

/-! ### Repair stalls (22 R394, R395) -/

/-- The rows of physical HBM that offsets of a handle lie in. -/
def State.rowsAt (s : State) (ctx : Nat) (h : HInfo) (os : List Nat) : List Nat :=
  if Ent.space h.e ≠ 2 then []
  else match Table.get s.ctxs ctx with
    | none => []
    | some x => (os.filterMap fun o => match x.translate (Ent.base h.e + o) false with
      | .ok a => some (a / 2048)
      | .error _ => none).eraseDups

/-- The rows of HBM that a command reaches. -/
def State.cmdRows (s : State) (c : Fin 256) (cmd : Cmd) : List Nat :=
  let s := s.withPages cmd.ctx cmd.prog.pages
  let on (l : Bytes) : List Nat := l.flatMap fun x => s.rowsAt cmd.ctx x.1 x.2
  if cmd.isCopy then on (s.copyReads c cmd) ++ on ((s.copyDests c cmd).flatMap fun d => byHandle d.1 d.2 (s.copyWrites c cmd d))
  else if cmd.op.toNat = 0x42 then on (s.mldwReads c cmd)
  else if cmd.op.toNat = 0x54 then
    s.rowsAt cmd.ctx cmd.cap.ha ((List.range (Ent.len cmd.cap.ha.e / 2048 + 1)).map fun i => 2048 * i)
  else []

/-- A step that a command's own read has called for does not delay it: the read has returned (23 R401); of a lane, its later accesses meet the
step. (DEDUCED, log 23) -/
def State.foundBy (s : State) (c : Fin 256) (id row : Nat) : Bool :=
  let (stack, pch, _) := rowPlace row
  let h := s.hbmStacks[stack]
  match Table.get h.steps pch with
  | some (res, unit, _) => res ≠ 2 && h.finders.any fun f => f.1 = (res, pch, unit) && (f.2.1 - 1) % 256 = c.val && f.2.2 = id
  | none => false

/-- The repair steps that stand in a command's way, each with the cycles left. -/
def State.stepsMet (s : State) (c : Fin 256) (cmd : Cmd) : List Nat := s.stepsLeft ((s.cmdRows c cmd).filter fun r => !s.foundBy c cmd.id r)

/-- A command that has just started, or that runs as a step starts, stalls on the rows under repair that it reaches: its completion
waits for the steps' ends, and the stalls of several accesses add up (22 R395). Steps that all end before the command would do not delay it
(23 R402). (DEDUCED, log 23) -/
def State.stallCmd (s : State) (c : Fin 256) (id : Nat) : State :=
  match (s.core c).cmd id with
  | none => s
  | some x => match if x.isCopy && x.prog.outcome = 1 then none else x.prog.due with
    | some t =>
      let es := s.stepsMet c x
      if es.all fun e => decide (s.clock + e < t) then s
      else
        let more := es.foldl (· + ·) 0 - es.foldl max 0
        s.onCmd c id fun y => { y with prog := { y.prog with stall := some (s.clock, t - s.clock + more), due := none, repaired := true } }
    | none => s

/-- A stalled command meets one step more, `len` cycles long: what the two have in common lengthens it as well (22 R395). -/
def State.stallMore (old : State) (len : Nat) (s : State) (c : Fin 256) (id : Nat) : State :=
  match (s.core c).cmd id with
  | none => s
  | some x => match x.prog.stall with
    | some (began, left) =>
      let es := old.stepsMet c x
      if es.length < (s.stepsMet c x).length then
        s.onCmd c id fun y => { y with prog := { y.prog with stall := some (began, left + min len (es.foldl max 0)) } }
      else s
    | none => s

/-- What a command at a head does, the choice of a delay behind FENCE.X apart. -/
def State.takeStep (s : State) (c : Fin 256) (q : Nat) (cmd : Cmd) : StartStep → State
  | .wait => s
  | .hold => s
  | .fetch h => s.send (s.clock + 1) (.fetchReq (dieOf c.val) { ctx := cmd.ctx, handle := h, launch := cmd.launch, demand := true, prosp := false })
  | .request n => s.onFace (clusterOf c) fun f => { f with waiting := f.waiting ++ [⟨(s.core c).leader c, n, some cmd.id, c.val % 4⟩] }
  | .trap t => (s.giveBack cmd).faultStart c cmd t
  | .fault r => s.onCore c fun k => k.intoSlot cmd r
  | .acquire f =>
    let bound := flagBound f.die c
    let (n, s) := s.choose bound
    let id := s.nextMsg
    let s := s.send (s.clock + n) (.semReq f.die ⟨f.sem, c.val, cmd.slot.toNat, id, some (q, cmd.id), s.clock + bound⟩)
    s.onCmd c cmd.id fun x => { x with prog := { x.prog with acq := .sent id } }
  | .begin =>
    -- a DECJ starts when a decode unit accepts it (16 R349)
    if cmd.op.toNat = 0x54 then { s with agenda := .late (.decodeJobAccept c) :: s.agenda } else (s.beginCmd c q cmd).stallCmd c cmd.id

/-- The command at the head of a queue takes the step that the cycle allows; a delay of 0 behind a FENCE.X is no delay (12 R251). -/
def State.startHead (s : State) (c : Fin 256) (q : Nat) : State :=
  match (s.core c).head q with
  | none => s
  | some cmd =>
    match s.startStep c q cmd with
    | .hold =>
      let (n, s) := s.choose 4
      let f (x : Cmd) : Cmd := { x with prog := { x.prog with hold := some (s.clock + n) } }
      let s := s.onCmd c cmd.id f
      if n = 0 then s.takeStep c q (f cmd) (s.startStep c q (f cmd)) else s
    | x => s.takeStep c q cmd x

/-- ENGINE_COMMAND_START (14 R282); a DECJ starts when a decode unit accepts it. -/
def execEngineCommandStart (c : Fin 256) (q : Fin 3) (s : State) : Host.Outcome State Fault Refusal := .next (s.startHead c q.val)

/-! ### Streams (14 R293 to R297, 16 R340 to R345) -/

/-- Why a ring takes no bytes: a read-only handle or a sign table (11 R222, 06 R118). -/
def ringShut (ring : HInfo) : Option (Reason × Nat) := engFail ring.e localSpace 0 1 true

/-- Bytes of a ring written at handle offsets. -/
def State.ringPut (s : State) (c : Fin 256) (ring : HInfo) (off : Nat) (bs : List Byte) (poison : List Nat) : State :=
  if (ringShut ring).isSome then s else s.engWrite c 0 64 ring (bs.zipIdx.map fun (b, i) => (off + i, b)) poison

/-- A subscription changed. -/
def State.onSub (s : State) (c : Fin 256) (id : Nat) (f : Sub → Sub) : State :=
  s.onCore c fun k => { k with eng := { k.eng with subs := k.eng.subs.map fun x => if x.id = id then f x else x } }

/-- The failed accesses of a subscription logged, once for each of its handles (11 R230). (DEDUCED, log 22) -/
def State.subViolates (s : State) (c : Fin 256) (id : Nat) (l : List Viol) : State :=
  match (s.core c).eng.subs.find? fun x => x.id = id with
  | none => s
  | some x =>
    let new := (firstEach l).filter fun v => !x.logged.contains v.h.h
    (s.engViolates c x.cmd 3 new).onSub c id fun y => { y with logged := y.logged ++ new.map fun v => v.h.h }

/-- A subscription ended (16 R343): RSTAT = 3. -/
def State.endSub (s : State) (c : Fin 256) (x : Sub) : State :=
  (s.ringPut c x.ring 20 [3] []).onCore c fun k => { k with eng := { k.eng with subs := k.eng.subs.filter fun y => y.id ≠ x.id } }

/-- The increment of a placed packet or of a suspension (14 R295, R296). -/
def State.subRelease (s : State) (x : Sub) : State :=
  match x.cmd.rel with
  | some f => s.increment f.die f.sem 1
  | none => s

/-- A suspension (14 R296, R297): ERR, RSTAT = 2, ERRLEN, ERRSEQ. (DEDUCED, log 22) -/
def State.suspend (s : State) (c : Fin 256) (x : Sub) (err : Byte) (len : Nat) (seq : Option Nat) : State :=
  let s := s.ringPut c x.ring 20 [2, err] []
  let s := s.ringPut c x.ring 24 (natLe 4 len ++ match seq with | some n => natLe 4 n | none => []) []
  let s := if x.suspended then s else s.subRelease x
  s.onSub c x.id fun y => { y with suspended := true }

/-- The completion of SUBS (14 R293, 16 R340): under load its first packet comes later (14 R295). (DEDUCED, log 22) -/
def State.establish (s : State) (c : Fin 256) (cmd : Cmd) : State :=
  let s := s.ringPut c cmd.cap.ha 0 (natLe 20 0 ++ [1] ++ natLe 43 0) []
  let list := cmd.cf.getLsbD 0
  let len := cmd.cap.packetLen
  let (more, s) := s.load
  let t := if list then s.clock + 1 else s.later c.val (placeFirst len)
  let x : Sub := { id := cmd.id, ring := cmd.cap.ha, cmd := cmd, list := list, next := 0, stream := 0, seq0 := 0, wrtot := 0, freetot := 0,
                   suspended := false, endReq := false, logged := [], at_ := t + if list then 0 else more, unl := t,
                   ready := !list }
  let s := s.onCore c fun k => { k with eng := { k.eng with subs := k.eng.subs ++ [x] } }
  (s.subViolates c x.id ((ringShut cmd.cap.ha).map fun f => ⟨cmd.cap.ha, f.2, f.2, f.2, f.1⟩).toList).finish c cmd false none

/-- How a stream engine reads its source: HBM, plain or a FULL future (16 R340). -/
def State.streamRd (s : State) (c : Fin 256) (x : Sub) (h : HInfo) : Rd := fun o n =>
  if Ent.kind h.e = 2 then .error (.kind, o)
  else if 1 < Ent.kind h.e && Ent.space h.e = 2 then .error (.kind, o)
  else s.engRd c x.cmd.ctx x.cmd.cap.epoch (fun n => n = 2) 4 h false o n

/-- A packet in hand: payload, poisoned payload offsets, END, sequence number. -/
structure Packet where
  payload : List Byte
  bad : List Nat := []
  fin : Bool
  seq : Nat

/-- A packet of TILE mode (16 R341), with its violations and flags raised. -/
def State.tilePacket (s : State) (c : Fin 256) (x : Sub) : Packet × State :=
  let cap := x.cmd.cap
  let n := (List.range 4).map fun d => mapCount cap.mb d
  let count := volume n
  let w := cap.ringWidth
  let rd := s.streamRd c x cap.hb
  let srd := s.streamRd c x cap.fb.sh
  let plain := plainPair cap.fa cap.fb
  let dst : Fmt := { cap.fa with ssrc := 3 }
  let xs := (List.range count).map fun k =>
    let i := unrank n k
    let e := readElem cap.fb cap.fb.width (!plain) rd srd (i.getD 1 0) (TMap.locate cap.mb (cap.fb.width = 4) 5 (i ++ [x.next]) none)
    (e, 0, ({ inside := true, off := k * w / 8, nib := if w = 4 then k % 2 else 0 } : Loc), x.next * count + k)
  let (ps, fl, _) := convertAll (if plain then dst else cap.fb) dst cap false n srd (fun i => s.freeAt (2 ^ 60 + i)) xs (fun _ => true)
  let cells := putCells (fun _ o => o) (fun _ => 0) ps []
  let len := (count * w + 7) / 8
  let bytes := (List.range len).map fun o => ((cells.reverse.find? fun y => y.1 = o).map Prod.snd).getD 0
  let s := s.subViolates c x.id (xs.flatMap fun e => e.1.viols cap.fb cap.hb cap.fb.sh)
  let flags := fl.map fun p => (p.1 - x.next * count, p.2)
  let s := (s.onCore c fun k => k.raiseFlags (orFlags (flags.map Prod.snd)) (engNp x.cmd 6 (n.getD 0 1) (n.getD 1 1) flags)
    (some (s.clock, (npElem flags).getD 0))).bump
  (⟨bytes, (ps.filter fun p => p.poison).flatMap (fun p => (List.range p.n).map fun i => p.off + i), decide (x.next + 1 = mapCount cap.mb 4), x.next⟩, s)

/-- A record of a packet list (16 R342): LENGTH, END, OFFSET, whether a must-be-zero bit is set, VALID. -/
structure ListRecord where
  len : Nat
  fin : Bool
  off : Nat
  bad : Bool
  valid : Bool
  /-- The first byte of the record that fails. -/
  fail : Option (Reason × Nat)

/-- Record n of a list, as the stream engine reads it. -/
def State.listRecord (s : State) (c : Fin 256) (x : Sub) : ListRecord :=
  let rd := s.streamRd c x x.cmd.cap.hb
  let (bs, f, _) := readEach rd (TMap.base x.cmd.cap.mb + 16 + 16 * x.next) 16
  let a := leNat (bs.take 4)
  let b := leNat ((bs.drop 4).take 4)
  ⟨a % 2 ^ 24, b % 2 = 1, leNat (bs.drop 8), a / 2 ^ 24 % 128 ≠ 0 || b / 2 ≠ 0, 2 ^ 31 ≤ a, f⟩

/-- A packet of LIST mode (16 R342). -/
def State.listPacket (s : State) (c : Fin 256) (x : Sub) : Packet × State :=
  let r := s.listRecord c x
  let seq := (x.seq0.toNat + x.next) % 2 ^ 32
  if r.bad then
    let o := TMap.base x.cmd.cap.mb + 16 + 16 * x.next
    (⟨[], [], r.fin, seq⟩, s.subViolates c x.id [⟨x.cmd.cap.hb, o, o, o, .bounds⟩])
  else
    let rd := s.streamRd c x x.cmd.cap.hb
    let bs := (List.range r.len).map fun i => readEach rd (r.off + i) 1
    let bad := bs.findSome? fun b => b.2.1
    let s := s.subViolates c x.id (bad.map fun (w, o) => ⟨x.cmd.cap.hb, o, o, o, w⟩).toList
    (⟨bs.map fun b => b.1.headD 0, (bs.zipIdx.filter fun b => b.1.2.2.isSome).map Prod.snd, r.fin, seq⟩, s)

/-- The length of the packet that comes next. -/
def State.nextLength (s : State) (c : Fin 256) (x : Sub) : Nat :=
  if x.list then let r := s.listRecord c x; if r.bad then 0 else r.len
  else x.cmd.cap.packetLen

/-- A packet of a subscription is in flight: the engine has it, and it has room or is refused (14 R295, R296). (DEDUCED, log 22) -/
def State.inFlight (s : State) (c : Fin 256) (x : Sub) : Bool :=
  let cap := ringSize x.ring.e
  let len := s.nextLength c x
  x.ready && !x.suspended && (x.list || decide (x.next < mapCount x.cmd.cap.mb 4)) &&
    (decide (cap - 16 < len) || decide (x.wrtot.toNat + packetBytes len ≤ cap + x.freetot.toNat))

/-- Offsets that reach every row of n bytes from one on. -/
def span (o n : Nat) : List Nat := (o + (n - 1)) :: (List.range (n / 2048 + 1)).map fun i => o + 2048 * i

/-- The rows of HBM that a packet list's header and next record are read from. -/
def State.recordRows (s : State) (x : Sub) : List Nat :=
  let b := TMap.base x.cmd.cap.mb
  s.rowsAt x.cmd.ctx x.cmd.cap.hb (span b 8 ++ span (b + 16 + 16 * x.next) 16)

/-- The rows of HBM that the next packet of a subscription is read from, those of the scales that it converts with among them. -/
def State.packetRows (s : State) (c : Fin 256) (x : Sub) : List Nat :=
  let cap := x.cmd.cap
  if x.list then
    let r := s.listRecord c x
    s.recordRows x ++ if r.bad then [] else s.rowsAt x.cmd.ctx cap.hb (span r.off r.len)
  else
    let n := (List.range 4).map fun d => mapCount cap.mb d
    let rd (h : HInfo) : Rd := s.streamRd c x h
    let els := (List.range (volume n)).map fun k =>
      let i := unrank n k
      (i.getD 1 0, TMap.locate cap.mb (cap.fb.width = 4) 5 (i ++ [x.next]) none)
    let fb := if plainPair cap.fa cap.fb then { cap.fb with ssrc := 3 } else cap.fb
    (byHandle cap.hb fb.sh (sideBytes false fb fb.bytes (rd cap.hb) (rd fb.sh) els)).flatMap fun y => s.rowsAt x.cmd.ctx y.1 y.2

/-- A packet can be placed or refused in this cycle; none while the context is saved or restored, once its commands have drained (16 R343), and
none while what it reads is under repair (22 R395). -/
def State.canPlace (s : State) (c : Fin 256) (x : Sub) : Bool :=
  !(s.core c).stored && decide (x.at_ ≤ s.clock) && s.inFlight c x && !((s.packetRows c x).any s.rowStalled)

/-- Bytes placed at a data offset, continuing at data offset 0 past the ring's capacity (14 R295). -/
def State.ringData (s : State) (c : Fin 256) (ring : HInfo) (p : Nat) (bs : List Byte) (bad : List Nat) : State :=
  let cap := ringSize ring.e
  let first := bs.take (cap - p)
  let rest := bs.drop (cap - p)
  let s := s.ringPut c ring (64 + p) first ((bad.filter fun o => decide (p + o < cap)).map fun o => 64 + p + o)
  if rest.isEmpty then s else s.ringPut c ring 64 rest ((bad.filter fun o => decide (cap ≤ p + o)).map fun o => 64 + (p + o - cap))

/-- The next packet of a subscription placed or refused. -/
def State.placePacket (s : State) (c : Fin 256) (x : Sub) : State :=
  let cap := ringSize x.ring.e
  let p := x.wrtot.toNat % cap
  let len := s.nextLength c x
  let seq := if x.list then (x.seq0.toNat + x.next) % 2 ^ 32 else x.next
  if cap - 16 < len then
    (s.subViolates c x.id [⟨x.ring, 64 + p, 64 + p, 64 + p, .oversize⟩]).suspend c x 1 len (some seq)
  else
    let (k, s) := if x.list then s.listPacket c x else s.tilePacket c x
    let t := packetBytes k.payload.length
    let pf := (if cap < p + t then 1 else 0) + (if k.fin then 2 else 0) + (if k.bad.isEmpty then 0 else 4)
    let header := natLe 3 k.payload.length ++ [BitVec.ofNat 8 pf] ++ natLe 4 k.seq ++ natLe 2 x.stream.toNat ++ natLe 6 0
    let bytes := header ++ k.payload ++ natLe (t - 16 - k.payload.length) 0
    let s := s.ringData c x.ring p bytes (k.bad.map fun o => 16 + o)
    let w := x.wrtot + BitVec.ofNat 64 t
    let s := s.ringPut c x.ring 0 (natLe 8 w.toNat) []
    let s := s.ringPut c x.ring 16 (natLe 4 k.seq) []
    let s := s.subRelease x
    if k.fin then s.endSub c x
    else
      let (more, s) := s.load
      s.onSub c x.id fun y => { y with next := y.next + 1, wrtot := w, ready := !y.list,
                                       at_ := if y.list then s.later c.val 1 else s.later c.val (placeNext len) + more,
                                       unl := s.later c.val (placeNext len) }

/-- The UNSUBs that wait for a subscription to a ring (16 R344). -/
def Core.unsubsOf (k : Core) (ring : Nat) : List Cmd := k.started.filter fun x => x.op.toNat = 0x4D && x.prog.due.isNone && x.cap.ha.h = ring

/-- The end that UNSUBs have asked for, once nothing is in flight; they complete with it (14 R284, 16 R344). -/
def State.unsubscribe (s : State) (c : Fin 256) (x : Sub) : State :=
  let s := match (s.core c).eng.subs.find? fun y => y.id = x.id with
    | some y => s.endSub c y
    | none => s
  ((s.core c).unsubsOf x.ring.h).foldl (fun s cmd => s.finish c cmd true none) s

/-- An ending subscription with nothing in flight, its refusal by an RFREE included (14 R297). -/
def State.mayEnd (s : State) (c : Fin 256) (x : Sub) : Bool := x.endReq && !s.inFlight c x

/-- PACKET_PLACE: the next packet of a subscription, and the end that waits for it. -/
def execPacketPlace (c : Fin 256) (n : Nat) (s : State) : Host.Outcome State Fault Refusal :=
  .next (match (s.core c).eng.subs.find? fun x => x.id = n with
    | some x =>
      if s.canPlace c x then
        let s := s.placePacket c x
        if x.endReq then s.unsubscribe c x else s
      else if s.mayEnd c x then s.unsubscribe c x
      else s
    | none => s)

/-- LIST_RECORD_REREAD (16 R342): the record of the next packet read, and again within 1,024 cycles while it is not valid. (DEDUCED, log 22) -/
def execListRecordReread (c : Fin 256) (n : Nat) (s : State) : Host.Outcome State Fault Refusal :=
  .next (match (s.core c).eng.subs.find? fun x => x.id = n with
    | none => s
    | some x =>
      if !x.list || x.ready || x.suspended || s.clock < x.at_ || (s.core c).stored || (s.recordRows x).any s.rowStalled then s
      else
        let (hd, bad, _) := readEach (s.streamRd c x x.cmd.cap.hb) (TMap.base x.cmd.cap.mb) 8
        let s := s.onSub c n fun y => { y with stream := BitVec.ofNat 16 (leNat (hd.take 2)), seq0 := BitVec.ofNat 32 (leNat (hd.drop 4)) }
        let r := s.listRecord c x
        let s := s.subViolates c n ((bad.or r.fail).map fun (w, o) => ⟨x.cmd.cap.hb, o, o, o, w⟩).toList
        if r.valid then
          let (more, s) := s.load
          let t := s.later c.val (placeFirst (if r.bad then 0 else r.len))
          s.onSub c n fun y => { y with ready := true, at_ := t + more, unl := t }
        else
          let (k, s) := s.choose 1023
          s.onSub c n fun y => { y with at_ := s.clock + 1 + k })

/-- RFREE applied (14 R297, 16 R345). -/
def State.ringFree (s : State) (c : Fin 256) (cmd : Cmd) : State :=
  match (s.core c).subOf cmd.cap.ha.h with
  | none => s
  | some x =>
    let n := cmd.cap.x.toNat
    if n % 16 ≠ 0 ∨ x.wrtot.toNat < x.freetot.toNat + n then
      (s.engViolate c cmd 3 x.ring 8 8 .freeOver).suspend c x 2 n none
    else
      let f := x.freetot + cmd.cap.x
      (s.ringPut c x.ring 8 (natLe 8 f.toNat) []).onSub c x.id fun y => { y with freetot := f }

/-! ### Completion -/

/-- The spaces that a copy writes to, those of its block scales among them. -/
def Cmd.destSpaces (c : Cmd) : List Nat :=
  Ent.space c.cap.ha.e :: if isBlockFmt c.cap.fa.code.toNat then c.cap.fa.side.map fun h => Ent.space h.e else []

/-- A copy that reads poison in the staged copy of a weight handle moves it on, and the handle becomes POISON (22 R389). -/
def State.copyPoison (s : State) (c : Fin 256) (cmd : Cmd) : State :=
  let weight (h : HInfo) : Bool := Ent.kind h.e = 2
  let bad (h : HInfo) (o : Nat) : Bool := match s.copyRd c cmd h false o 1 with | .ok (_, some _) => true | _ => false
  if !cmd.sources.any weight then s
  else (s.copyReads c cmd).foldl (fun s x =>
    if weight x.1 && x.2.any (bad x.1) then (s.slotPoisoned cmd.ctx cmd.launch x.1.h).2 else s) s

/-- The writes of a command that are not visible at SYSTEM scope yet: the host's flushing read, or a peer's acknowledgements. -/
def State.sysBusy (s : State) (c : Fin 256) (id : Nat) : Bool :=
  ((s.core c).eng.sysOut.any fun x => x.cmd = id && x.flush) || s.netOut.any fun p => p.core = c.val && p.cmd = id

/-- An answer has come: once all have, the writes are visible at SYSTEM scope, and a release that waits for them is due (13 R276, R279). -/
def State.sysAnswered (s : State) (c : Fin 256) (id : Nat) : State :=
  if s.sysBusy c id then s
  else
    let s := s.onCore c fun k => { k with eng := { k.eng with sysOut := k.eng.sysOut.filter fun x => x.cmd ≠ id } }
    s.onCmd c id fun x => if x.isCopy && x.prog.consumed then { x with prog := { x.prog with due := some s.clock } } else x

/-- A copy's completion. Under a SYSTEM release it waits for the host's flushing read (MODE 0) and for the peers' acknowledgements; without one
they stay outstanding for FENCE.SYSTEM (12 R250, 13 R276, R279). -/
def State.endCopy (s : State) (c : Fin 256) (cmd : Cmd) : State :=
  let s := if cmd.prog.outcome = 1 then s else s.translated cmd fun s => (s.copyPoison c cmd).doCopy c cmd
  let s := s.unpin cmd
  let mine := s.netOut.filter fun p => p.core = c.val && p.cmd = cmd.id
  let s := mine.foldl (fun s _ =>
    let (n, s) := s.choose 65535
    s.send (s.clock + 1 + n) (.netAck c.val cmd.id)) s
  let flush := cmd.prog.outcome ≠ 1 && cmd.destSpaces.contains 5 && !cmd.cap.hostord
  if !flush && mine.isEmpty then s.finish c cmd true none
  else
    let s := s.onCore c fun k => { k with eng := { k.eng with sysOut := k.eng.sysOut ++ [⟨cmd.id, cmd.remote, flush⟩] } }
    let s := if flush then
        let (n, s) := s.choose 4095
        s.send (s.clock + 1 + n) (.flush c.val cmd.id)
      else s
    if cmd.rel.isSome && cmd.scope = 4 then s.onCmd c cmd.id fun x => { x with prog := { x.prog with due := none, consumed := true } }
    else s.finish c cmd true none

/-- A copy completes, or one that has waited for SYSTEM scope does. -/
def State.copyOver (s : State) (c : Fin 256) (cmd : Cmd) : State := if cmd.prog.consumed then s.finish c cmd true none else s.endCopy c cmd

/-- A started command is due: its last effect lands in this cycle. -/
def State.cmdDue (s : State) (cmd : Cmd) : Bool :=
  cmd.prog.dropped || cmd.prog.start.isSome && (match cmd.prog.due with | some t => decide (t ≤ s.clock) | none => false) &&
    (match cmd.op.toNat with
     | 0x50 =>
       if cmd.prog.outcome = 2 ∨ cmd.prog.outcome = 3 then true
       else
         let e := s.nowEntry cmd cmd.cap.ha.h
         if cmd.cf.getLsbD 0 then decide (Ent.state e = 2 ∨ Ent.state e = 4) else cmd.prog.outcome = 1
     | 0x43 => !cmd.prog.tile.isEmpty
     | _ => true)

/-- The completion of a command by its opcode; a dropped one pushes no token and makes no release (21 R371). (DESIGN CHOICE, log 14) -/
def State.complete (s : State) (c : Fin 256) (cmd : Cmd) : State :=
  if cmd.prog.dropped then (s.unpin cmd).finish c { cmd with thp := false, thn := false } false none
  else match cmd.op.toNat with
  | 0x42 => s.translated cmd fun s => s.doMldw c cmd
  | 0x43 => s.doMrun c cmd
  | 0x44 => s.doMdrain c cmd
  | 0x45 => s.doMclr c cmd
  | 0x46 => s.doMassay c cmd
  | 0x48 => s.copyOver c cmd
  | 0x49 => s.copyOver c cmd
  | 0x4A => s.copyOver c cmd
  | 0x4B => s.copyOver c cmd
  | 0x4C => s.establish c cmd
  | 0x4D => match (s.core c).subOf cmd.cap.ha.h with
    | some x =>
      if s.inFlight c x then
        (s.onSub c x.id fun y => { y with endReq := true }).onCmd c cmd.id fun y => { y with prog := { y.prog with due := none } }
      else (s.endSub c x).finish c cmd true none
    | none => s.finish c cmd true none
  | 0x4E => (s.ringFree c cmd).finish c cmd true none
  | 0x50 =>
    let e := s.nowEntry cmd cmd.cap.ha.h
    (if cmd.prog.outcome ≠ 2 && cmd.cf.getLsbD 0 && Ent.state e = 4 then s.engViolate c cmd 9 cmd.cap.ha 0 0 .retHandle else s).finish c cmd true none
  | _ => s.finish c cmd true (some cmd.prog.outcome)

/-- ENGINE_COMMAND_COMPLETE: the command with a number completes when it is due. -/
def execEngineCommandComplete (c : Fin 256) (q : Fin 3) (n : Nat) (s : State) : Host.Outcome State Fault Refusal :=
  .next (match ((s.core c).eng.queues.getD q.val []).find? fun x => x.id = n with
    | some cmd => if s.cmdDue cmd then s.complete c cmd else s
    | none => s)

/-- The cycle in which an MRUN's A is consumed (09 R183). -/
def State.consumeAt (s : State) (c : Fin 256) (cmd : Cmd) : Option Nat :=
  if cmd.op.toNat = 0x43 && cmd.prog.tile.isEmpty then
    cmd.prog.start.map fun t => t + stretch (s.dies[dieOf c.val].step) (mrunTiming cmd).1
  else none

/-- A_TILE_CONSUMED (08 R169). -/
def execATileConsumed (c : Fin 256) (n : Nat) (s : State) : Host.Outcome State Fault Refusal :=
  .next (match ((s.core c).eng.queues.getD 1 []).find? fun x => x.id = n with
    | some cmd => match s.consumeAt c cmd with
      | some t => if t ≤ s.clock then s.consumeTile c cmd else s
      | none => s
    | none => s)

/-! ### HREBIND, the host's and the network's answers -/

/-- A page that HREBIND accepts for an entry (15 R316). -/
def Ctx.rebindOk (x : Ctx) (e : BitVec 256) (page : Nat) : Bool :=
  x.models.any fun m => m.objs.any fun o =>
    o.page = page && o.len = Ent.len e && o.fmt = Ent.fmt e && o.aux = Ent.aux e && o.ssrc = Ent.ssrc e &&
      o.tag = ⟨Ent.rblk e, Ent.rotid e⟩

/-- HREBIND_APPLY (15 R316, 16 R348). -/
def execHrebindApply (m : Nat) (s : State) : Host.Outcome State Fault Refusal :=
  .next (match s.msg m with
    | some (.hrebind cn id) =>
      let c := coreId cn
      let s := s.dropMsg m
      match (s.core c).cmd id with
      | none => s
      | some cmd =>
        let h := cmd.cap.ha.h
        let e := s.homeEntry cmd.ctx h
        let page := cmd.cap.x.toNat
        let refuse (r : Reason) : State := (s.engViolate c cmd 9 cmd.cap.ha 0 0 r).finish c cmd true none
        if Ent.kind e ≠ 2 then refuse .kind
        else if Ent.state e = 4 then refuse .retHandle
        else if !((Table.get s.ctxs cmd.ctx).map fun x => x.rebindOk e page).getD false then refuse .badPage
        else
          let leave (sl : Slot) : Slot :=
            if sl.state ≠ .free && sl.page = Ent.auxw e then { sl with left := (h :: sl.left ++ s.boundBy cmd.ctx sl.page).eraseDups } else sl
          let s := s.onCtx cmd.ctx fun x =>
            { x with handles := Table.set x.handles h (Ent.put e 224 32 page), slots := x.slots.map leave }.reclaim
          ((s.invalidate cmd.ctx fun n => n = h).wakeRecords).finish c cmd true none
    | _ => s)

/-- HOST_FLUSH_READ_COMPLETE (13 R276, 16 R350): a copy's writes to the host are visible, or PUBLISH writes its value after the one before. -/
def execHostFlushReadComplete (m : Nat) (s : State) : Host.Outcome State Fault Refusal :=
  .next (match s.msg m with
    | some (.flush cn id) =>
      let c := coreId cn
      let due (s : State) : State := s.onCmd c id fun x => { x with prog := { x.prog with due := some s.clock } }
      let copy (s : State) : State :=
        ((s.dropMsg m).onCore c fun k => { k with eng := { k.eng with sysOut := k.eng.sysOut.map fun x =>
          if x.cmd = id then { x with flush := false } else x } }).sysAnswered c id
      match (s.core c).cmd id with
      | none => copy s
      | some cmd =>
        if cmd.op.toNat ≠ 0x55 then copy s
        else match Table.get s.ctxs cmd.ctx with
          | none => due (s.dropMsg m)
          | some x =>
            if x.written + 1 = cmd.prog.outcome.toNat then
              let s := s.dropMsg m
              let s := { s with host := s.host.writeN (x.d 0x18 8) (natLe 8 cmd.prog.outcome.toNat) }
              due (s.onCtx cmd.ctx fun y => { y with written := y.written + 1 })
            else { s with msgs := s.msgs.map fun y => if y.id = m then { y with at_ := s.clock + 1 } else y }
    | _ => s)

/-- NET_ACK_RECEIVE (13 R279): one burst acknowledged. (DEDUCED, log 33) -/
def execNetAckReceive (m : Nat) (s : State) : Host.Outcome State Fault Refusal :=
  .next (match s.msg m with
    | some (.netAck cn id) =>
      let s := s.dropMsg m
      let mine (p : NetOut) : Bool := p.core = cn && p.cmd = id
      { s with netOut := (s.netOut.filter fun p => !mine p) ++ (s.netOut.filter mine).tail }.sysAnswered (coreId cn) id
    | _ => s)

end Sys2Proof.Machine
end

