-- ==== Sys2Proof/Machine/Faces.lean ====
section
/-! DEFINITION. The lease of a face: grant, expiry, end (08 R164, 09 R184, R185). -/

namespace Sys2Proof.Machine

/-- The cores that hold a face's lease. -/
def leaseCores (f : Fin 64) (l : Lease) : List (Fin 256) := (clusterCores f).filter fun c => l.mask.getLsbD (c.val % 4)

/-- The order in which a face searches its four cores (08 R164). -/
def grantOrder (last : Option Nat) : List Nat :=
  let n := match last with | some k => k + 1 | none => 0
  (List.range 4).map fun i => (n + i) % 4

/-- The request that a grant takes. -/
def Face.pick (f : Face) : Option LeaseReq := (grantOrder f.lastGrant).findSome? fun k => f.waiting.find? fun r => r.k = k

/-- A face may grant in this cycle (08 R164, 22 R392). -/
def State.canGrant (s : State) (f : Fin 64) : Bool :=
  let x := s.faces[f]
  x.lease.isNone && x.testing.isNone && x.endedAt != some s.clock && !x.waiting.isEmpty

/-- The lease that a request receives. -/
def State.leaseOf (s : State) (f : Fin 64) (r : LeaseReq) : Lease :=
  let m := (s.core (coreId (4 * f.val + r.k))).gmask
  { k := r.k, mask := BitVec.ofNat 4 (if m = 0 then 2 ^ r.k else m), left := r.n, expiry := s.later (4 * f.val) 65536 }

/-- FACE_LEASE_GRANT. An MLEASE completes at its grant; a command restarted after the lease trap starts in its cycle once its other conditions
hold (21 R372). -/
def execFaceLeaseGrant (f : Fin 64) (s : State) : Host.Outcome State Fault Refusal :=
  .next (match s.canGrant f, (s.faces[f]).pick with
    | true, some r =>
      let l := s.leaseOf f r
      let s := s.onFace f fun x => { x with lease := some l, lastGrant := some r.k, waiting := x.waiting.erase r }
      let c := coreId (4 * f.val + r.who)
      match r.cmd.bind fun id => (s.core c).cmd id with
      | none => s
      | some cmd =>
        if cmd.op.toNat = 0x40 then
          let s := s.onCore c fun k => { k with eng := { k.eng with lastStart := vset k.eng.lastStart 1 s.clock } }
          (if cmd.prog.begun then s else s.onCore c fun k => cmd.pops.foldl (fun k i => k.bumpToken (some i) false) k).finish c cmd true none
        else (s.onCmd c cmd.id fun x => { x with prog := { x.prog with leaseReq := none } }).startHead c 1
    | _, _ => s)

/-- LEASE_EXPIRY by time (08 R164). -/
def execLeaseExpiry (f : Fin 64) (s : State) : Host.Outcome State Fault Refusal :=
  .next (s.onFace f fun x => { x with lease := x.lease.map fun l =>
    if l.expiry ≤ s.clock then { l with expired := true } else l })

/-- A lease ends in this cycle: it has expired or been freed, and nothing that its holder started still runs. (DEDUCED, log 19) -/
def State.leaseOver (s : State) (f : Fin 64) : Bool :=
  match (s.faces[f]).lease with
  | none => false
  | some l => (l.expired || l.freed) && (leaseCores f l).all fun c => (s.core c).started.all fun x => !x.isMatrix

/-- LEASE_END; the MFREE that waits for it completes (09 R183). -/
def execLeaseEnd (f : Fin 64) (s : State) : Host.Outcome State Fault Refusal :=
  .next (match s.leaseOver f, (s.faces[f]).lease with
    | true, some l =>
      let s := s.onFace f fun x => { x with lease := none, endedAt := some s.clock }
      (leaseCores f l).foldl (fun s c =>
        ((s.core c).started.filter fun x => x.op.toNat = 0x41).foldl (fun s x => s.finish c x true none) s) s
    | _, _ => s)

end Sys2Proof.Machine
end

