-- ==== Sys2Proof/Machine/FlagEvents.lean ====
section
/-! DEFINITION. Flag stores, the group table, gangs, remote steps and the home of futures (10 R202 to R209, 12 R242, R245,
R253 to R257, R261). -/

namespace Sys2Proof.Machine

/-! ### Semaphores and token queues -/

/-- SEMAPHORE_INCREMENT (10 R207). -/
def execSemaphoreIncrement (m : Nat) (s : State) : Host.Outcome State Fault Refusal :=
  .next (match s.msg m with
    | some (.semInc d f n) => (s.dropMsg m).increment d f n
    | some (.signal c r d f n) => ((s.dropMsg m).increment d f n).endRemote (coreId c) r
    | _ => s)

/-- A request reaches its flag store (10 R207): it waits its turn, or finds OVF set. -/
def State.semArrive (s : State) (m : Nat) : State :=
  match s.msg m with
  | some (.semReq d w) =>
    let s := s.dropMsg m
    let c := coreId w.core
    if ((s.dies.getD d Die.reset).sem w.sem).ovf then
      match w.cmd with
      | none => s.onCore c fun k => { k with seq := { k.seq with wait := k.seq.wait.filter fun x => match x with
          | .semSent _ _ _ id => id ≠ w.id
          | _ => true } }
      | some (_, id) => match (s.core c).cmd id with
        | some cmd => s.faultStart c cmd { cause := .flagOverflow, tval := BitVec.ofNat 64 ((cmd.acq.map FlagRef.rel).getD 0) }
        | none => s
    else s.onDie (Fin.ofNat 4 d) fun x => { x with semWait := x.semWait ++ [w] }
  | _ => s

/-- SEMAPHORE_DECREMENT_GRANT (10 R207, 12 R254): the oldest waiter's decrement; the grant's way back is open within the bound. -/
def execSemaphoreDecrementGrant (d : Fin 4) (f : Fin 4096) (s : State) : Host.Outcome State Fault Refusal :=
  .next (
    let x := (s.dies[d]).sem f.val
    match (s.dies[d]).semWait.find? fun w => w.sem = f.val with
    | none => s
    | some w =>
      if x.count = 0 then s
      else
        let c := coreId w.core
        let s := s.onDie d fun y => { y with sems := Table.set y.sems f.val { x with count := x.count - 1 }
                                             semWait := y.semWait.erase w }
        let (n, s) := s.choose (if s.clock ≤ w.limit then w.limit - s.clock else flagBound d.val c)
        let t := s.clock + n
        match w.cmd with
        | none => s.onCore c fun k => { k with seq := { k.seq with wait := k.seq.wait.map fun y => match y with
            | .semSent slot a b id => if id = w.id then .semGranted slot a b t else y
            | _ => y } }
        | some (_, id) => s.onCmd c id fun y => { y with prog := { y.prog with acq := .granted t } })

/-- A landing result on its way, to arrive by a cycle. -/
def State.answer (s : State) (limit core landing : Nat) (ws : List Write) : State :=
  let (n, s) := s.choose (limit - s.clock)
  s.sendLanding (s.clock + n) core landing ws

/-- TOKEN_QUEUE_PUSH (10 R209, 12 R256). -/
def execTokenQueuePush (m : Nat) (s : State) : Host.Outcome State Fault Refusal :=
  .next (match s.msg m with
    | some (.tqPush c l p d q _ limit r v) =>
      let s := s.dropMsg m
      let old := (Table.get (s.dies.getD d Die.reset).tqs q).getD []
      let ok := decide (old.length < 16)
      let s := if ok then s.onDie (Fin.ofNat 4 d) fun x => { x with tqs := Table.set x.tqs q (old ++ [v]) } else s
      (s.endRemote (coreId c) r).answer limit c l [.pred p ok]
    | _ => s)

/-- TOKEN_QUEUE_POP (10 R209, 12 R256). -/
def execTokenQueuePop (m : Nat) (s : State) : Host.Outcome State Fault Refusal :=
  .next (match s.msg m with
    | some (.tqPop c l p dst d q _ limit r) =>
      let s := s.dropMsg m
      let old := (Table.get (s.dies.getD d Die.reset).tqs q).getD []
      let s := s.onDie (Fin.ofNat 4 d) fun x => { x with tqs := Table.set x.tqs q old.tail }
      (s.endRemote (coreId c) r).answer limit c l [.scalar dst (old.headD 0), .pred p (!old.isEmpty)]
    | _ => s)

/-! ### Barriers (10 R202, 12 R255) -/

/-- BARRIER_ARRIVAL: the ARRIVED bit and the waited generation; the entry releases when every member is covered. -/
def execBarrierArrival (m : Nat) (s : State) : Host.Outcome State Fault Refusal :=
  .next (match s.msg m with
    | some (.arrive c g) =>
      let s := s.dropMsg m
      match Table.get s.groups g with
      | none => s
      | some e =>
        let s := { s with groups := Table.set s.groups g { e with arrived := e.arrived ||| (1#256 <<< c) } }
        let s := s.onCore (coreId c) fun k => k.onWaits fun m => match m with
          | .barrier x p none slot => if x = g then .barrier x p (some e.gen) slot else m
          | _ => m
        s.releaseGroup g
    | _ => s)

/-- A wait at a group's barrier on a generation. -/
def RunMode.atBarrier (g : Nat) (gen : BitVec 32) : RunMode → Bool
  | .barrier x _ (some n) _ => decide (x = g ∧ n = gen)
  | _ => false

/-- The release of a generation reaches a member: a wait on that generation ends, wherever it stands among the core's waits, and the
status is delivered. -/
def Core.resumeBarrier (k : Core) (g : Nat) (gen : BitVec 32) (st : Bool) : Core :=
  match k.waits.find? (RunMode.atBarrier g gen) with
  | some (.barrier _ p _ _) => (k.land (.pred p st)).endWait (RunMode.atBarrier g gen)
  | _ => k

/-- BARRIER_RESUME. -/
def execBarrierResume (m : Nat) (s : State) : Host.Outcome State Fault Refusal :=
  .next (match s.msg m with
    | some (.resume c g gen st) => (s.dropMsg m).onCore (coreId c) fun k => k.resumeBarrier g gen st
    | _ => s)

/-! ### Gangs (10 R204, R205, 12 R257) -/

/-- A pending FUSE or REJOIN. -/
def RunMode.gangs : RunMode → Bool
  | .fusing _ _ _ | .rejoining _ _ => true
  | _ => false

/-- Since when, and from which slot, a core's FUSE or REJOIN is pending. -/
def Core.gangWait (k : Core) : Option (Nat × Nat) :=
  k.waits.findSome? fun m => match m with | .fusing _ t n => some (t, n) | .rejoining t n => some (t, n) | _ => none

/-- The gang trap of a pending FUSE or REJOIN (10 R204): sub-cause 1 mismatch, 2 timeout. -/
def State.gangTrap (s : State) (c : Fin 256) (sub : BitVec 4) : State :=
  s.onCore c fun k =>
    let n := (k.gangWait.map Prod.snd).getD 0
    let e : TrapReq := { trap := { cause := .gang, sub := sub }, kind := .b, slot := BitVec.ofNat 3 n }
    let k := k.endWait RunMode.gangs
    { k with seq := { k.seq with events := k.seq.events ++ [e] } }

/-- The members that a cluster mask names. -/
def maskCores (k : Fin 64) (mask : BitVec 4) : List (Fin 256) := (clusterCores k).filter fun c => mask.getLsbD (c.val % 4)

/-- A core's pending FUSE. -/
def Core.fuseMask (k : Core) : Option (BitVec 4) := k.waits.findSome? fun x => match x with | .fusing m _ _ => some m | _ => none

/-- Every named core has issued the same FUSE before this cycle. -/
def State.allFused (s : State) (k : Fin 64) (mask : BitVec 4) : Bool :=
  (maskCores k mask).all fun c => (s.core c).waits.any fun x => match x with
    | .fusing m t _ => m = mask && decide (t < s.clock)
    | _ => false

/-- The pending FUSEs of a cluster that name a core whose own pending FUSE differs. -/
def State.mismatched (s : State) (k : Fin 64) : List (Fin 256) :=
  (clusterCores k).filter fun c => match (s.core c).fuseMask with
    | none => false
    | some m => (maskCores k m).any fun o => match (s.core o).fuseMask with
      | some x => x ≠ m || (clusterCores k).any fun q => match (s.core q).fuseMask with
        | some y => y ≠ x && y.getLsbD (o.val % 4)
        | none => false
      | none => false

/-- GANG_FUSE (10 R204): the named cores resume fused; pending FUSEs with different masks trap. -/
def execGangFuse (k : Fin 64) (mask : BitVec 4) (s : State) : Host.Outcome State Fault Refusal :=
  .next (
    let bad := s.mismatched k
    if !bad.isEmpty then bad.foldl (fun s c => s.gangTrap c 1) s
    else if mask ≠ 0 && s.allFused k mask then
      (maskCores k mask).foldl (fun s c => s.onCore c fun x =>
        (x.setGang mask.toNat 1).endWait RunMode.gangs) s
    else s)

/-- GANG_TIMEOUT (10 R204, 12 R257): 65,536 cycles after the issue. -/
def execGangTimeout (c : Fin 256) (s : State) : Host.Outcome State Fault Refusal :=
  .next (match (s.core c).gangWait with
    | some (t, _) => if s.since c.val t 65536 then s.gangTrap c 2 else s
    | none => s)

/-- Every current member of a core's gang waits in REJOIN; a core that its gang has left alone is its only member. -/
def State.allRejoined (s : State) (c : Fin 256) : Bool :=
  ((s.core c).gang c).all fun x => (s.core x).waits.any fun m => match m with
    | .rejoining t _ => decide (t < s.clock)
    | _ => false

/-- GANG_REJOIN (10 R205): the members resume fused, the last one of a dissolved gang without one. -/
def execGangRejoin (k : Fin 64) (s : State) : Host.Outcome State Fault Refusal :=
  .next ((clusterCores k).foldl (fun s c =>
    let x := s.core c
    if s.allRejoined c then
      (x.gang c).foldl (fun s o => s.onCore o fun y => (y.setGang y.gmask (if y.gmask = 0 then 0 else 1)).endWait RunMode.gangs) s
    else s) s)

/-! ### Remote steps (12 R242, R245) -/

/-- RATOM_STEP, at the end of a cycle of the owner. -/
def execRatomStep (m : Nat) (s : State) : Host.Outcome State Fault Refusal :=
  .next (match s.msg m with
    | some (.ratom c l ctx h e off op w64 u v new d r pc slot limit) =>
      let s := s.dropMsg m
      let s := s.endRemote (coreId c) r
      let o := coreId (Ent.rcore e)
      if !s.runsCtx (Ent.rcore e) ctx then
        let s := s.onCore (coreId c) fun k => { k with sys := { k.sys with viol := true } }
        (s.logViolation ctx off.toNat h .remoteCtx c (slot - 6) pc.toNat 0).answer limit c l [.scalar d 0]
      else
        let n := if w64 then 8 else 4
        let a := bankAddr (Ent.rbank e) (Ent.base e + off.toNat)
        let old := leNat ((s.core o).sto.spad.readN a n)
        let x := (AtomOp.ofCode op).step (8 * n) u old v.toNat new.toNat
        let cells : List Host.Cell := (natLe n x).zipIdx.map fun (b, i) => (a + i, b)
        let s := s.onCore o fun k => { k with sto := k.sto.putEngine cells [] }
        s.answer limit c l [.scalar d (atomResult w64 u old)]
    | _ => s)

/-- REMOTE_TAG_PROBE. -/
def execRemoteTagProbe (m : Nat) (s : State) : Host.Outcome State Fault Refusal :=
  .next (match s.msg m with
    | some (.probe c l ctx target key d qid limit) =>
      let s := s.dropMsg m
      let v := if s.runsCtx target ctx then tagLookup (s.core (coreId target)).sto.tags key else BitVec.ofInt 64 (-2)
      s.answer limit c l [landWrite d qid v]
    | _ => s)

/-! ### Futures (12 R261, 10 R215) -/

/-- FUTURE_FILL_APPLY at the entry's home. (DEDUCED, log 21) -/
def execFutureFillApply (m : Nat) (s : State) : Host.Outcome State Fault Refusal :=
  .next (match s.msg m with
    | some (.futFill c ctx h v id) =>
      let s := s.dropMsg m
      let e := s.homeEntry ctx h
      let (n, s) := s.choose 100
      let reply (s : State) (r : Option (BitVec 4)) : State := s.send (s.clock + n) (.futAnswer c r id)
      if Ent.space e = 0 ∨ Ent.state e = 4 then reply s (some 1)
      else if Ent.kind e ≠ 1 then reply s (some 0)
      else if Ent.state e ≠ 0 then reply s (some 2)
      else
        let s := s.onCtx ctx fun x => { x with handles := Table.set x.handles h (Ent.put (Ent.put e 136 3 2) 224 32 v.toNat) }
        reply ((s.invalidate ctx fun n => n = h).wakeRecords) none
    | _ => s)

/-- FUTFILL_ANSWER at the core. -/
def execFutfillAnswer (m : Nat) (s : State) : Host.Outcome State Fault Refusal :=
  .next (match s.msg m with
    | some (.futAnswer c r id) =>
      (s.dropMsg m).onCore (coreId c) fun k => { k with seq := { k.seq with wait := k.seq.wait.map fun y => match y with
        | .futSent slot _ _ => if slot = id then .futAnswer slot r else y
        | _ => y } }
    | _ => s)

end Sys2Proof.Machine
end

