-- ==== Sys2Proof/Machine/CoreEvents.lean ====
section
/-! DEFINITION. Events of a core: pending traps, waking, landings, handle fills, segments, sign tables (21 R368, R369, 14 R288 to
R290, R299, 11 R228, 12 R249). -/

namespace Sys2Proof.Machine

/-! ### Pending traps (21 R368) -/

/-- The order in which pending events are taken at one boundary. -/
def TrapReq.rank (r : TrapReq) : Nat :=
  match r.trap.cause with
  | .doubleTrap => 0
  | .landingWatchdog => 0
  | .handleFill => 0
  | .poisonConsumption => 1
  | .exhaustedSpares => 2
  | .fetchRange => 6
  | .gang => 7
  | .missedPromise => 8
  | .firstNan => 9
  | _ => 3 + r.queue.toNat

/-- The event that comes first. -/
def Core.nextEvent (k : Core) : Option TrapReq :=
  k.seq.events.foldl (fun a r => match a with
    | none => some r
    | some b => if r.rank < b.rank then some r else a) none

/-- A trap is entered in this cycle: one that waited for pending writes, or a pending event at a bundle boundary. -/
def Core.entering (k : Core) : Bool :=
  match k.seq.mode with
  | .trapping _ => k.settled
  | .running => !k.live && !k.seq.events.isEmpty
  | _ => false

/-- The next pending event of a core taken: a bundle that waits before issue gives up its requests. -/
def State.takeEvent (s : State) (c : Fin 256) : State :=
  match (s.core c).nextEvent with
  | none => s
  | some r =>
    let s := { s with cur := c }.withdraw
    let s := s.onCore c fun k => { k with seq := { k.seq with events := k.seq.events.erase r } }
    s.takeTrap c r

/-- TRAP_ENTRY (21 R368, R369), in place of the core's issue in this cycle. -/
def execTrapEntry (c : Fin 256) (s : State) : Host.Outcome State Fault Refusal :=
  .next (
    let k := s.core c
    if !k.entering then s
    else match k.seq.mode with
      | .trapping r => ({ s.takeTrap c r with cur := c }).endCoreCycle
      | _ => ({ s.takeEvent c with cur := c }).endCoreCycle)

/-! ### Waking (03 R80, 14 R288) -/

/-- The completion cycle that a missed promise revises to (14 R288). -/
def State.revised (s : State) (c : Fin 256) (cmd : Cmd) : Nat :=
  match cmd.prog.stall, cmd.prog.due with
  | some (began, left), _ => began + 8400 + left
  | none, some t => max s.clock t
  | none, none =>
    match cmd.prog.start with
    | some t =>
      let t := t + stretch (s.dies[dieOf c.val].step) (s.duration c cmd)
      max s.clock (if cmd.op.toNat = 0x4D then t + s.placing c cmd.cap.ha.h t [] else t)
    | none => s.promise c (((s.core c).eng.queues.getD cmd.queue []).takeWhile fun x => x.id ≠ cmd.id) cmd

/-- SLEEP_WAKE. A promise sleep whose command has not completed raises missed-promise. -/
def execSleepWake (c : Fin 256) (s : State) : Host.Outcome State Fault Refusal :=
  .next (match (s.core c).seq.mode with
    | .asleep w p =>
      if !s.past w then s
      else
        let s := s.onCore c Core.goOn
        match p.bind fun id => (s.core c).cmd id with
        | none => if p.isSome then s.onCore c Core.seesEngines else s
        | some cmd =>
          let t : Trap := { cause := .missedPromise, sub := if cmd.prog.repaired then 1 else 0, tval := BitVec.ofNat 64 (s.revised c cmd) }
          let s := s.onCore c fun k => { k with seq := { k.seq with events := k.seq.events ++ [{ trap := t, kind := .b }] } }
          if (s.core c).live then s else s.takeEvent c
    | _ => s)

/-! ### Landing slots (14 R289, R290) -/

/-- A late landing no longer holds the core: the frozen cycle ends, and the core resumes in the next one. -/
def State.thaw (s : State) (c : Fin 256) : State :=
  if (s.core c).lateLanding then s
  else match (s.core c).seq.mode with
    | .frozen _ =>
      let t := match (s.core c).seq.ending with
        | some k => ((s.onCore c fun x => { x with seq := { x.seq with mode := .running } }).closeBundle c k).releasePromises c
        | none => s.onCore c fun x => let y := x.endCycle; { y with seq := { y.seq with mode := y.seq.resume } }
      t.onCore c fun x => if x.isHalted then x else
        { x with seq := { x.seq with mode := .filling s.clock (s.clock + 1) [], resume := x.seq.mode } }
    | _ => s

/-- LANDING_ARRIVAL: the result waits in the buffer, or ends a freeze. -/
def execLandingArrival (m : Nat) (s : State) : Host.Outcome State Fault Refusal :=
  .next (match s.msg m with
    | some (.landed cn l ws) =>
      let c := coreId cn
      ((s.dropMsg m).onCore c fun k => { k with seq := { k.seq with landings := k.seq.landings.map fun x =>
        if x.id = l then { x with arrived := some ws } else x } }).thaw c
    | _ => s)

/-- LANDING_WATCHDOG: a freeze of 4,096 cycles of the die's clock is fatal (24 R420); the missing results are never delivered. -/
def execLandingWatchdog (c : Fin 256) (s : State) : Host.Outcome State Fault Refusal :=
  .next (match (s.core c).seq.mode with
    | .frozen t =>
      if !s.since c.val t 4096 then s
      else
        let k := s.core c
        let late (l : Landing) : Bool := decide (l.due ≤ k.seq.rn) && l.arrived.isNone
        let pc := ((k.seq.landings.find? late).map Landing.pc).getD 0
        let slot := ((k.seq.landings.find? late).map Landing.slot).getD 0
        let s := s.setCore c { k with seq := { k.seq with mode := .running, landings := k.seq.landings.filter fun l => !late l } }
        let s := match k.seq.ending with
          | some x => s.closeBundle c x
          | none => s.onCore c Core.endCycle
        let s := ({ s.onCore c fun k => { k with seq := { k.seq with mode := .running, next := [] } } with cur := c }).withdraw
        s.takeTrap c { trap := { cause := .landingWatchdog, tval := pc.setWidth 64 }, kind := .b, slot := BitVec.ofNat 3 slot }
    | _ => s)

/-! ### The handle cache (11 R227, R228) -/

/-- The frame of the handle table that a core reads (11 R219). -/
def State.tableFrame (s : State) (c : Fin 256) : Nat :=
  ((Table.get s.ctxs ((s.core c).ctx.getD 64)).map Ctx.table).getD frameCount

/-- A core's fill reads the entry of a handle from the context's table, 64 entries of 32 bytes in a row: the row is under repair (11 R228).
(DEDUCED, log 23) -/
def State.tableStalled (s : State) (c : Fin 256) (h : Nat) : Bool := s.rowStalled (s.tableFrame c * 1024 + h / 64)

/-- An entry of the context's table lies in a poisoned sector. -/
def State.tablePoison (s : State) (c : Fin 256) (h : Nat) : Bool :=
  s.hbmPoison.contains (s.tableFrame c * 65536 + h)

/-- The fatal handle-fill trap: the frozen bundle gives up what it has asked for (12 R254). -/
def State.fillTrap (s : State) (c : Fin 256) (h : Nat) : State :=
  let slot := (Table.get (s.core c).seq.fillSlots h).getD 0
  let s := ({ s.onCore c fun k => { k with seq := { k.seq with mode := .running } } with cur := c }).withdraw
  s.takeTrap c { trap := { cause := .handleFill, tval := BitVec.ofNat 64 h }, kind := .b, slot := BitVec.ofNat 3 slot }

/-- The cache with an entry installed as the most recent of 32 (11 R227). -/
def Core.install (k : Core) (h : Nat) (e : BitVec 256) : Core :=
  { k with sto := { k.sto with hcache := ((h, e) :: k.sto.hcache.filter fun p => p.1 ≠ h).take 32 } }

/-- The end of a freeze for handles: a poisoned entry is fatal; else every entry is installed and the bundle issues. -/
def State.endFill (s : State) (c : Fin 256) : State :=
  match (s.core c).seq.mode with
  | .filling _ t hs =>
    if s.clock < t then s
    else if hs.isEmpty then s.onCore c fun k =>
      let k := { k with seq := { k.seq with mode := k.seq.resume } }
      match k.seq.mode with
      | .asleep w none => if s.past w then k.goOn else k
      | _ => k
    else if hs.any (s.tableStalled c) then s
    else match hs.find? (s.tablePoison c) with
      | some h => s.fillTrap c h
      | none =>
        let s := hs.reverse.foldl (fun s h => let e := s.tableEntry (s.core c) h; s.onCore c fun k => k.install h e) s
        s.onCore c fun k => { k with seq := { k.seq with mode := .running } }
  | _ => s

/-- HANDLE_FILL. -/
def execHandleFill (c : Fin 256) (s : State) : Host.Outcome State Fault Refusal := .next (s.endFill c)

/-- HANDLE_FILL_TIMEOUT: a fill of 65,536 cycles is fatal. -/
def execHandleFillTimeout (c : Fin 256) (s : State) : Host.Outcome State Fault Refusal :=
  .next (match (s.core c).seq.mode with
    | .filling t _ (h :: _) => if s.since c.val t 65536 then s.fillTrap c h else s
    | _ => s)

/-! ### Segments (03 R81, 14 R298, R299) -/

/-- One step of the Castagnoli CRC, reflected. -/
def crcBit (r : BitVec 32) : BitVec 32 := if r.getLsbD 0 then (r >>> 1) ^^^ 0x82F63B78 else r >>> 1

/-- One byte of it. -/
def crcByte (r : BitVec 32) (b : Byte) : BitVec 32 :=
  crcBit (crcBit (crcBit (crcBit (crcBit (crcBit (crcBit (crcBit (r ^^^ b.setWidth 32))))))))

/-- CRC-32C (14 R298). -/
def crc32c (bs : List Byte) : BitVec 32 := ~~~(bs.foldl crcByte 0xFFFFFFFF)

/-- The bytes of a segment, and whether one carries poison: from the kernel image in HBM, where the launch's handle names HBM and the bytes
can be read; else as the Winder has read them. (DEDUCED, log 29) -/
def State.segmentCode (s : State) (k : Core) (n : Nat) : List Byte × Bool :=
  let (off, len, _, _) := segEntry (s.image k) n
  let kept := ((s.image k).drop off).take (32 * len)
  match k.run.bind fun r => Table.get s.launches r.launch with
  | none => (kept, false)
  | some l =>
    if Ent.space l.imageAt.e ≠ 2 then (kept, false)
    else match s.hbmRead l.ctx (Ent.base l.imageAt.e + off) (32 * len) with
      | .ok (bs, po) => (bs, po.isSome)
      | .error _ => (kept, false)

/-- A segment copied into its half (03 R81, 14 R298): the core, and whether CRCERR is set. -/
def State.copySegment (s : State) (k : Core) (n : Nat) : Core × Bool :=
  let (_, len, half, crc) := segEntry (s.image k) n
  let (code, bad) := s.segmentCode k n
  ({ k with sto := { k.sto with
      imem := k.sto.imem.writeN (half * 4096 * 32) code
      ipoison := k.sto.ipoison.filter fun a => !decide (half * 4096 ≤ a ∧ a < half * 4096 + len) } },
   bad || decide ((crc32c code).toNat ≠ crc))

/-- A segment's bytes lie in a row under repair (22 R395). -/
def State.segmentStalled (s : State) (k : Core) (n : Nat) : Bool :=
  let (off, len, _, _) := segEntry (s.image k) n
  match k.run.bind fun r => Table.get s.launches r.launch with
  | none => false
  | some l => Ent.space l.imageAt.e = 2 && match Table.get s.ctxs l.ctx with
    | none => false
    | some x => (List.range len).any fun i => match x.translate (Ent.base l.imageAt.e + off + 32 * i) false with
      | .ok a => s.rowStalled (a / 2048)
      | .error _ => false

/-- SEGMENT_COPY_LAND; a row under repair holds the copy back (22 R395). -/
def execSegmentCopyLand (c : Fin 256) (s : State) : Host.Outcome State Fault Refusal :=
  .next (
    let k := s.core c
    match k.sto.seg.copy with
    | none => s
    | some (n, half, t) =>
      if s.clock < t || s.segmentStalled k n then s
      else
        let (k, bad) := s.copySegment k n
        let g := k.sto.seg
        s.setCore c { k with sto := { k.sto with
          seg := { g with
            copy := none
            status := g.status ||| 0x100 ||| (if bad then 0x200 else 0)
            landed := if half = 0 then (some n, g.landed.2) else (g.landed.1, some n)
            crcErr := if half = 0 then (bad, g.crcErr.2) else (g.crcErr.1, bad) } } })

/-! ### Sign tables (12 R249) -/

/-- SIGN_TABLE_READ_ARRIVAL: the bytes that a waiting SGSET asked for have arrived; a row under repair holds them back (22 R395). -/
def execSignTableReadArrival (c : Fin 256) (s : State) : Host.Outcome State Fault Refusal :=
  .next (s.onCore c fun k => { k with seq := { k.seq with wait := k.seq.wait.map fun w => match w with
    | .sgSent slot t rows => if t ≤ s.clock ∧ rows.all (fun r => !s.rowStalled r) then .sgArrived slot else w
    | _ => w } })

end Sys2Proof.Machine
end

