-- ==== Sys2Proof/Machine/Crypto.lean ====
section
/-! DEFINITION. The digest and the signature that images carry (02 R55, R58, 15 R300): SHA-512 of FIPS 180-4 and ECDSA over
P-521 of FIPS 186-5, which the spec names and does not define. -/

namespace Sys2Proof.Machine

/-! ### SHA-512 -/

/-- Round constants 0 to 19. -/
def shaK0 : List Word :=
  [0x428A2F98D728AE22, 0x7137449123EF65CD, 0xB5C0FBCFEC4D3B2F, 0xE9B5DBA58189DBBC, 0x3956C25BF348B538,
   0x59F111F1B605D019, 0x923F82A4AF194F9B, 0xAB1C5ED5DA6D8118, 0xD807AA98A3030242, 0x12835B0145706FBE,
   0x243185BE4EE4B28C, 0x550C7DC3D5FFB4E2, 0x72BE5D74F27B896F, 0x80DEB1FE3B1696B1, 0x9BDC06A725C71235,
   0xC19BF174CF692694, 0xE49B69C19EF14AD2, 0xEFBE4786384F25E3, 0x0FC19DC68B8CD5B5, 0x240CA1CC77AC9C65]

/-- Round constants 20 to 39. -/
def shaK1 : List Word :=
  [0x2DE92C6F592B0275, 0x4A7484AA6EA6E483, 0x5CB0A9DCBD41FBD4, 0x76F988DA831153B5, 0x983E5152EE66DFAB,
   0xA831C66D2DB43210, 0xB00327C898FB213F, 0xBF597FC7BEEF0EE4, 0xC6E00BF33DA88FC2, 0xD5A79147930AA725,
   0x06CA6351E003826F, 0x142929670A0E6E70, 0x27B70A8546D22FFC, 0x2E1B21385C26C926, 0x4D2C6DFC5AC42AED,
   0x53380D139D95B3DF, 0x650A73548BAF63DE, 0x766A0ABB3C77B2A8, 0x81C2C92E47EDAEE6, 0x92722C851482353B]

/-- Round constants 40 to 59. -/
def shaK2 : List Word :=
  [0xA2BFE8A14CF10364, 0xA81A664BBC423001, 0xC24B8B70D0F89791, 0xC76C51A30654BE30, 0xD192E819D6EF5218,
   0xD69906245565A910, 0xF40E35855771202A, 0x106AA07032BBD1B8, 0x19A4C116B8D2D0C8, 0x1E376C085141AB53,
   0x2748774CDF8EEB99, 0x34B0BCB5E19B48A8, 0x391C0CB3C5C95A63, 0x4ED8AA4AE3418ACB, 0x5B9CCA4F7763E373,
   0x682E6FF3D6B2B8A3, 0x748F82EE5DEFB2FC, 0x78A5636F43172F60, 0x84C87814A1F0AB72, 0x8CC702081A6439EC]

/-- Round constants 60 to 79. -/
def shaK3 : List Word :=
  [0x90BEFFFA23631E28, 0xA4506CEBDE82BDE9, 0xBEF9A3F7B2C67915, 0xC67178F2E372532B, 0xCA273ECEEA26619C,
   0xD186B8C721C0C207, 0xEADA7DD6CDE0EB1E, 0xF57D4F7FEE6ED178, 0x06F067AA72176FBA, 0x0A637DC5A2C898A6,
   0x113F9804BEF90DAE, 0x1B710B35131C471B, 0x28DB77F523047D84, 0x32CAAB7B40C72493, 0x3C9EBE0A15C9BEBC,
   0x431D67C49C100D4C, 0x4CC5D4BECB3E42B6, 0x597F299CFC657E2A, 0x5FCB6FAB3AD6FAEC, 0x6C44198C4A475817]

/-- The round constants. -/
def shaK : List Word := shaK0 ++ shaK1 ++ shaK2 ++ shaK3

/-- The initial hash value. -/
def shaInit : List Word :=
  [0x6A09E667F3BCC908, 0xBB67AE8584CAA73B, 0x3C6EF372FE94F82B, 0xA54FF53A5F1D36F1, 0x510E527FADE682D1,
   0x9B05688C2B3E6C1F, 0x1F83D9ABFB41BD6B, 0x5BE0CD19137E2179]

/-- The number that bytes stand for, highest first. -/
def beNat (bs : List Byte) : Nat := leNat bs.reverse

/-- The n lowest bytes of a number, highest first. -/
def natBe (n x : Nat) : List Byte := (natLe n x).reverse

/-- The padded message. -/
def shaPad (m : List Byte) : List Byte :=
  m ++ [0x80] ++ List.replicate ((111 + 128 - m.length % 128) % 128) 0 ++ natBe 16 (8 * m.length)

/-- The next word of the message schedule, from the last sixteen, newest first. -/
def shaNext (w : List Word) : Word :=
  let g (i : Nat) : Word := w.getD (i - 1) 0
  let s0 := (g 15).rotateRight 1 ^^^ (g 15).rotateRight 8 ^^^ (g 15 >>> 7)
  let s1 := (g 2).rotateRight 19 ^^^ (g 2).rotateRight 61 ^^^ (g 2 >>> 6)
  g 16 + s0 + g 7 + s1

/-- The message schedule of a block, newest word first. -/
def shaSchedule : Nat → List Word → List Word
  | 0, w => w
  | n + 1, w => shaSchedule n (shaNext w :: w)

/-- One round. -/
def shaRound (h : List Word) (k : Word × Word) : List Word :=
  match h with
  | [a, b, c, d, e, f, g, x] =>
    let t1 := x + (e.rotateRight 14 ^^^ e.rotateRight 18 ^^^ e.rotateRight 41) + ((e &&& f) ^^^ (~~~e &&& g)) + k.1 + k.2
    let t2 := (a.rotateRight 28 ^^^ a.rotateRight 34 ^^^ a.rotateRight 39) + ((a &&& b) ^^^ (a &&& c) ^^^ (b &&& c))
    [t1 + t2, a, b, c, d + t1, e, f, g]
  | _ => h

/-- The hash value after one block of 128 bytes. -/
def shaBlock (h : List Word) (block : List Byte) : List Word :=
  let w := (List.range 16).map fun i => BitVec.ofNat 64 (beNat ((block.drop (8 * i)).take 8))
  let s := (shaSchedule 64 w.reverse).reverse
  (h.zip ((shaK.zip s).foldl shaRound h)).map fun p => p.1 + p.2

/-- The blocks of a padded message, hashed in turn. -/
def shaBlocks : Nat → List Word → List Byte → List Word
  | 0, h, _ => h
  | n + 1, h, m => shaBlocks n (shaBlock h (m.take 128)) (m.drop 128)

/-- SHA-512. (DEDUCED, log 39) -/
def sha512 (m : List Byte) : List Byte :=
  let p := shaPad m
  (shaBlocks (p.length / 128) shaInit p).flatMap fun w => natBe 8 w.toNat

/-! ### ECDSA over P-521 -/

/-- The field's prime. -/
def ecP : Nat := 2 ^ 521 - 1

/-- The order of the base point. -/
def ecN : Nat :=
  0x1FFFFFFFFFFFFFFFFFFFFFFFFFFFFFFFFFFFFFFFFFFFFFFFFFFFFFFFFFFFFFFFFFA51868783BF2F966B7FCC0148F709A5D03BB5C9B8899C47AEBB6FB71E91386409

/-- The curve's coefficient b; a is -3. -/
def ecB : Nat :=
  0x51953EB9618E1C9A1F929A21A0B68540EEA2DA725B99B315F3B8B489918EF109E156193951EC7E937B1652C0BD3BB1BF073573DF883D2C34F1EF451FD46B503F00

/-- A point: none is the point at infinity. -/
abbrev Point := Option (Nat × Nat)

/-- The base point. -/
def ecG : Point := some (
  0xC6858E06B70404E9CD9E3ECB662395B4429C648139053FB521F828AF606B4D3DBAA14B5E77EFE75928FE1DC127A2FFA8DE3348B3C1856A429BF97E7E31C2E5BD66,
  0x11839296A789A3BC0045C8A5FB42C7D1BD998F54449579B446817AFBD17273E662C97EE72995EF42640C550B9013FAD0761353C7086A272C24088BE94769FD16650)

/-- Powers modulo m, by the low bits of the exponent. -/
def powMod (m : Nat) : Nat → Nat → Nat → Nat
  | 0, _, _ => 1
  | f + 1, b, e => (if e % 2 = 1 then b else 1) * powMod m f (b * b % m) (e / 2) % m

/-- The inverse modulo a prime of at most 521 bits. -/
def invMod (m x : Nat) : Nat := powMod m 521 (x % m) (m - 2)

/-- The sum of two points. -/
def ecAdd : Point → Point → Point
  | none, b => b
  | a, none => a
  | some (x, y), some (u, v) =>
    if x = u ∧ (y + v) % ecP = 0 then none
    else
      let l := if x = u then (3 * x * x + 3 * (ecP - 1)) * invMod ecP (2 * y) % ecP
        else (v + ecP - y) * invMod ecP (u + ecP - x) % ecP
      let z := (l * l + 2 * ecP - x - u) % ecP
      some (z, (l * (x + ecP - z) + ecP - y) % ecP)

/-- A multiple of a point. -/
def ecMul : Nat → Nat → Point → Point
  | 0, _, _ => none
  | f + 1, k, a => ecAdd (if k % 2 = 1 then a else none) (ecMul f (k / 2) (ecAdd a a))

/-- A public key of 133 bytes, as an uncompressed point on the curve. -/
def ecKey (k : List Byte) : Point :=
  let x := beNat ((k.drop 1).take 66)
  let y := beNat ((k.drop 67).take 66)
  if k.headD 0 = 4 ∧ x < ecP ∧ y < ecP ∧ y * y % ecP = (x * x * x + 3 * (ecP - x) + ecB) % ecP then some (x, y) else none

/-- The signature (r, s) over a message verifies under a key. (DEDUCED, log 39) -/
def ecdsaOk (key msg : List Byte) (r s : Nat) : Bool :=
  match ecKey key with
  | none => false
  | some q =>
    if r = 0 ∨ ecN ≤ r ∨ s = 0 ∨ ecN ≤ s then false
    else
      let w := invMod ecN s
      let e := beNat (sha512 msg)
      match ecAdd (ecMul 521 (e * w % ecN) ecG) (ecMul 521 (r * w % ecN) (some q)) with
      | none => false
      | some p => p.1 % ecN = r

/-- The private half of the device identity key (24 R418); its public half is this multiple of the base point. (DEDUCED, log 39) -/
def identityKey : Nat := 1 + Config.identityKey % (ecN - 1)
def identityPublic : Point := ecMul 521 identityKey ecG

/-- The signature by a private key with a secret number: r, then s, 66 bytes each. (DEDUCED, log 39) -/
def ecdsaSign (d k : Nat) (msg : List Byte) : List Byte :=
  let k := 1 + k % (ecN - 1)
  let r := match ecMul 521 k ecG with | some p => p.1 % ecN | none => 0
  natBe 66 r ++ natBe 66 (invMod ecN k * (beNat (sha512 msg) + r * d) % ecN)

end Sys2Proof.Machine
end

