-- ==== Sys2Proof/Machine/Records.lean ====
section
/-! DEFINITION. Records on cores: bind records carried out, starting, pre-empting, saving and restoring (10 R195, R197, R198,
R213, R217, 21 R374 to R376), and the fields of a kernel image (02 R54 to R57). -/

namespace Sys2Proof.Machine

/-! ### Fields of a kernel image -/

/-- The declared byte count of a bank (02 R56). -/
def imgBank (image : List Byte) (b : Nat) : Nat := hdr image (hdr image 0x18 4 + 16 * b) 4

/-- The BANKFMT image of a bank. -/
def imgBankFmt (image : List Byte) (b : Nat) : Word := BitVec.ofNat 64 (hdr image (hdr image 0x18 4 + 16 * b + 8) 8)

/-- The handle declarations, with their numbers. -/
def imgHandles (image : List Byte) : List (Nat × BitVec 256) :=
  (List.range (hdr image 0x11 1)).map fun i =>
    ((Config.firstHandle image + i) % 256, BitVec.ofNat 256 (hdr image (hdr image 0x18 4 + 256 + 32 * i) 32))

/-- The wait-graph edges (02 R55, R56). -/
def imgEdges (image : List Byte) : List (Nat × Nat) :=
  (List.range (hdr image 0x12 1)).map fun i =>
    let o := if i < 8 then 0x20 + 2 * i else hdr image 0x18 4 + 256 + 32 * hdr image 0x11 1 + 2 * (i - 8)
    (hdr image o 1, hdr image (o + 1) 1)

/-- Where the data records begin. -/
def imgDataAt (image : List Byte) : Nat :=
  hdr image 0x18 4 + 256 + 32 * hdr image 0x11 1 + 2 * (hdr image 0x12 1 - 8)

/-- Data records from an offset: bank, offset and bytes; the fuel bounds their number by the image's length. -/
def dataRecords (image : List Byte) : Nat → Nat → List (Nat × Nat × List Byte)
  | 0, _ => []
  | fuel + 1, o =>
    let len := hdr image (o + 2) 2
    if len = 0 then []
    else (hdr image o 1, hdr image (o + 4) 4, (image.drop (o + 8)).take len) :: dataRecords image fuel (o + 8 + (len + 7) / 8 * 8)

/-- The data records of an image. -/
def imgData (image : List Byte) : List (Nat × Nat × List Byte) := dataRecords image (image.length / 16 + 1) (imgDataAt image)

/-! ### Preparing a core (10 R195, step 4) -/

/-- The scratchpad that a launch leaves: zero, LOCAL sign-table copies, then the data records, each at its flat bank address wherever that
lies. (DESIGN CHOICE, log 28) -/
def State.loadSpad (s : State) (l : Launch) : Memory :=
  let signs := (imgHandles l.image).foldl (fun (m : Memory) (x : Nat × BitVec 256) =>
    if Ent.kind x.2 = 3 ∧ Ent.space x.2 = 1 then
      match Table.get s.ctxs l.ctx with
      | none => m
      | some ctx => match s.hbmRead l.ctx (ctx.d 0xC8 8) (Ent.len x.2) with
        | .ok (bs, _) => m.writeN (localAddr x.2 0) bs
        | .error _ => m
    else m) []
  (imgData l.image).foldl (fun m x => m.writeN (bankAddr x.1 x.2.1) x.2.2) signs

/-- The poisoned sectors of that scratchpad: what the sign table's copy carries (22 R379), but for sectors that a data record covers whole. -/
def State.loadPoison (s : State) (l : Launch) : List Nat :=
  let signs := (imgHandles l.image).flatMap fun x =>
    if Ent.kind x.2 = 3 ∧ Ent.space x.2 = 1 then
      match Table.get s.ctxs l.ctx with
      | none => []
      | some ctx => (List.range (Ent.len x.2)).filterMap fun i => match ctx.translate (ctx.d 0xC8 8 + i) false with
        | .ok a => if s.hbmPoison.contains (a / 32) then some (localAddr x.2 i / 32) else none
        | .error _ => none
    else []
  let covered (k : Nat) : Bool := (imgData l.image).any fun x =>
    let a := bankAddr x.1 x.2.1
    decide (a ≤ 32 * k ∧ 32 * k + 32 ≤ a + x.2.2.length)
  (signs.filter fun k => !covered k).foldl setInsert []

/-- A core as a launch prepares it: nothing of its previous launch survives; a bank entry of the image that is all zero is not declared (02 R58).
A LOCAL sign table is copied from the context's at this time (06 R118), for each core of the launch on its own. (DEDUCED, log 25;
DESIGN CHOICE, log 28; DESIGN CHOICE, log 29) -/
def State.prepare (s : State) (c : Fin 256) (l : Launch) : Core :=
  let k := s.core c
  let z := Core.reset
  { k with
    regs := { z.regs with nextQ := k.regs.nextQ }
    vec := z.vec
    sys := { z.sys with
      tvec := l.tvec
      hostord := BitVec.ofNat 64 (((Table.get s.ctxs l.ctx).map fun x => x.d 0x03 1 % 2).getD 0)
      bankfmt := Vector.ofFn fun b => if imgBank l.image b.val = 0 ∧ imgBankFmt l.image b.val = 0 then 0xC0000000 else imgBankFmt l.image b.val }
    seq := { z.seq with rn := k.seq.rn, nextLanding := k.seq.nextLanding }
    sto := { z.sto with
      spad := s.loadSpad l
      poison := s.loadPoison l
      imem := Memory.writeN [] 0 ((l.image.drop 0x100).take (32 * hdr l.image 0x06 2)) }
    eng := { z.eng with nextCmd := k.eng.nextCmd, nextRemote := k.eng.nextRemote, remote := k.eng.remote, sysOut := k.eng.sysOut
                        lastStart := k.eng.lastStart } }

/-! ### Starting a record (10 R197, R198) -/

/-- The rank of a core in a launch set. -/
def launchRank (cores : BitVec 256) (c : Nat) : Nat := ((List.range c).filter fun i => cores.getLsbD i).length

/-- The cores of a launch set. -/
def launchSet (cores : BitVec 256) : List (Fin 256) := ((List.range 256).filter fun i => cores.getLsbD i).map coreId

/-- ROLE as a launch assigns it. -/
def Launch.role (l : Launch) (c : Nat) : Word :=
  BitVec.ofNat 64 (launchRank l.cores c * 2 ^ 50 + ((launchSet l.cores).length - 1) * 2 ^ 42 +
    (2 ^ l.groups.length - 1) * 2 ^ 32 + (l.groups.zipIdx.map fun g => g.1 * 2 ^ (8 * g.2)).foldl (· + ·) 0)

/-- SYNCWIN as a launch assigns it (10 R208). -/
def Launch.syncwin (l : Launch) : Word :=
  BitVec.ofNat 64 (l.wdie * 2 ^ 38 + l.tqbase * 2 ^ 28 + hdr l.image 0x0F 1 * 2 ^ 20 + l.fbase * 2 ^ 8 + hdr l.image 0x0E 1)

/-- The start of a record on a core; what a pass that never retired still holds is dropped. (DESIGN CHOICE, log 13) -/
def Core.startRecord (k : Core) (l : Launch) (n c : Nat) (r : BitVec 512) : Core :=
  let z := Core.reset
  let vmask := hdr l.image 0x0A 2
  let arg (i : Nat) : Word := BitVec.ofNat 64 (recField r (0x18 + 8 * i) 8)
  let s := [(1, arg 0), (2, arg 1), (3, arg 2), (4, arg 3), (5, BitVec.ofNat 64 (recField r 8 4)),
            (6, BitVec.ofNat 64 (recField r 7 1))].foldl (fun v p => vset v p.1 p.2) (Vector.replicate 24 (0 : Word))
  let v := (List.range 16).foldl (fun v i => if vmask / 2 ^ i % 2 = 1 then vset v i {} else v) k.vec.v
  { k with
    regs := { k.regs with s := s, p := 0, q := Vector.replicate 8 [] }
    vec := { z.vec with v := v }
    sys := { k.sys with mode := false, pmode := false, viol := false, cause := 0, epc := 0, tval := 0, fpstat := 0,
                        srkey := l.srkey, role := l.role c, syncwin := l.syncwin }
    seq := { z.seq with pc := BitVec.ofNat 13 (recField r 0 2), entryRegion := true, mode := .running, rn := k.seq.rn
                        nextLanding := k.seq.nextLanding, landings := [] }
    sto := if k.lastLaunch = some n then k.sto else { k.sto with hcache := [], tags := z.sto.tags }
    eng := { k.eng with held := [], tokens := z.eng.tokens }
    run := some { launch := n, ctx := l.ctx, ker := BitVec.ofNat 13 (recField r 2 2), epi := BitVec.ofNat 13 (recField r 4 2)
                  trip := BitVec.ofNat 32 (recField r 8 4), tgrp := BitVec.ofNat 8 (recField r 7 1)
                  prio := BitVec.ofNat 8 (recField r 6 1), record := r, maxiter := hdr l.image 0x14 4 } }

/-! ### Bind records (10 R217) -/

/-- A cluster that can carry out a bind record (24 R419). -/
def State.awake (s : State) (c : Fin 256) : Bool := match s.power[clusterOf c.val] with | .run _ => true | _ => false

/-- A core has nothing in its queues (14 R285). -/
def Core.queuesEmpty (k : Core) : Bool := k.eng.queues.toList.all List.isEmpty

/-- A core on which a record may start. -/
def State.free? (s : State) (c : Fin 256) : Bool :=
  let k := s.core c
  k.isHalted && k.run.isNone && k.queuesEmpty && k.testing.isNone && s.awake c

/-- A bind record that later ones to other cores pass: its cluster is in RETAIN, or its cycle has come and its record starts as soon as the
core's queues are empty (10 R217). (DEDUCED, log 30) -/
def State.passed (s : State) (b : Bind) : Bool :=
  (match s.power[clusterOf b.core] with
   | .retain | .leavingRetain _ => true
   | _ => false) ||
    (b.act ≠ .preempt && decide (b.at_ ≤ s.clock) && !s.free? (coreId b.core))

/-- The bind record that comes next, in the order written; one to the core of a record that is passed waits behind it. -/
def State.bindHead (s : State) (d : Fin 4) : Option Bind :=
  let l := (s.dies[d]).binds
  (l.zipIdx.find? fun b => !s.passed b.1 && !((l.take b.2).any fun a => a.core = b.1.core)).map Prod.fst

/-- The bind record of a core comes next and can be carried out in this cycle. -/
def State.bindNow (s : State) (c : Fin 256) : Option Bind :=
  match s.bindHead (dieOf c.val) with
  | some b =>
    if b.core = c.val ∧ b.at_ ≤ s.clock then
      match b.act with
      | .preempt => some b
      | _ => if s.free? c then some b else none
    else none
  | none => none

/-- A bind record done with. -/
def State.unbind (s : State) (c : Fin 256) (b : Bind) : State :=
  s.onDie (dieOf c.val) fun d => { d with binds := d.binds.erase b }

/-- A record taken out of its task store. -/
def State.takeTask (s : State) (d : Fin 4) (id : Nat) : Option TaskRec × State :=
  ((s.dies[d]).tasks.find? fun t => t.id = id, s.onDie d fun x => { x with tasks := x.tasks.filter fun t => t.id ≠ id })

/-- A core with what a launch had left on it, its live subscriptions among it (16 R343). -/
def Core.give (k kept : Core) : Core :=
  { k with
    vec := kept.vec
    sys := kept.sys
    sto := kept.sto
    eng := { k.eng with tokens := kept.eng.tokens, subs := kept.eng.subs, leaseLeft := 0 } }

/-- The core as a record of a launch finds it (10 R197): prepared, for the launch's first record there; else as the launch left it, also
where another launch has used the core since. (DEDUCED, log 25) -/
def State.taken (s : State) (c : Fin 256) (n : Nat) (l : Launch) (first : Bool) : Core :=
  let k := s.core c
  if first then s.prepare c l
  else if k.lastLaunch = some n then k
  else match Table.get l.kept c.val with
    | some x => k.give x
    | none => s.prepare c l

/-- What a launch leaves on a core that another one takes. -/
def State.leave (s : State) (c : Fin 256) (n : Nat) : State :=
  match (s.core c).lastLaunch with
  | some m => if m = n then s else s.onLaunch m fun l => { l with kept := Table.set l.kept c.val (s.core c) }
  | none => s

/-- A record started on a core. -/
def State.startTask (s : State) (c : Fin 256) (t : TaskRec) : State :=
  match Table.get s.launches t.launch with
  | none => s
  | some l =>
    let first := match t.state with | .first _ => true | _ => false
    (s.leave c t.launch).setCore c ((s.taken c t.launch l first).startRecord l t.launch c.val t.record)

/-- START: the dispatch hardware carries out a START bind record. -/
def execStart (c : Fin 256) (s : State) : Host.Outcome State Fault Refusal :=
  .next (match s.bindNow c with
    | some b => match b.act with
      | .start id =>
        let (t, s) := (s.unbind c b).takeTask (dieOf c.val) id
        match t with
        | some t => s.startTask c t
        | none => s
      | _ => s
    | none => s)

/-! ### Pre-emption (21 R374, R375) -/

/-- The pre-emption request delivered to a core, and to every member of its gang (10 R205). -/
def State.request (s : State) (c : Fin 256) : State :=
  ((s.core c).gang c).foldl (fun s x => s.onCore x fun k => { k with seq := { k.seq with preempt := k.run.isSome } }) s

/-- PREEMPT: a PREEMPT bind record delivers its request. -/
def execPreempt (c : Fin 256) (s : State) : Host.Outcome State Fault Refusal :=
  .next (match s.bindNow c with
    | some b => match b.act with
      | .preempt => (s.unbind c b).request c
      | _ => s
    | none => s)

/-- A point of 01 R9: in replay a pass boundary; outside, one with no write pending; nothing is held and no rollback open (04 R97, 22 R387), so
that a save leaves nothing out (21 R376). (DEDUCED, log 25) -/
def Core.atPoint (k : Core) : Bool :=
  !k.rollingBack && k.eng.held.isEmpty && if k.rpl then !k.seq.passOpen && !k.inDelay else k.settled

/-- A FUTFILL has sent its change: no request is honoured until its bundle has issued with the home's answer (12 R261). -/
def Core.filling (k : Core) : Bool := k.seq.wait.any fun w => match w with
  | .futSent _ _ _ | .futAnswer _ _ => true
  | _ => false

/-- A core stands at a point where a request is honoured: R9, R97, R213 and the waits of R374; no landing outstanding (R290), no segment
copy in progress (R299). -/
def Core.honours (k : Core) : Bool :=
  k.seq.landings.isEmpty && !k.copying && k.atPoint && !k.filling &&
    match k.seq.mode with
    | .asleep _ _ => true
    | .barrier _ _ _ _ => true
    | .fusing _ _ _ => true
    | .rejoining _ _ => true
    | .running =>
      if k.seq.waitHonour then true
      else if k.live then false
      else if k.rpl then true
      else match k.run with
        | none => false
        | some r =>
          (decide (k.seq.pc.toNat < r.ker.toNat) || decide (r.epi.toNat ≤ k.seq.pc.toNat) ||
            (k.seq.taskEntered && decide (k.ldepth = 1) && decide (k.seq.iterCycles = 0) && !k.inDelay))
    | _ => false

/-- Every member of a core's gang stands at such a point. -/
def State.honourNow (s : State) (c : Fin 256) : Bool :=
  (s.core c).seq.preempt && ((s.core c).gang c).all fun x => (s.core x).honours

/-- The mode that a save keeps: a pending FUSE is withdrawn and resumes as after its timeout (10 R204); a gang comes back fused, which
satisfies a pending REJOIN (10 R205, 12 R257). -/
def Core.hold (k : Core) : Core :=
  let ev : List TrapReq := k.waits.filterMap fun m => match m with
    | .fusing _ _ slot => some { trap := { cause := .gang, sub := 2 }, kind := .b, slot := BitVec.ofNat 3 slot }
    | _ => none
  let k := (if k.gmask = 0 then k else k.setGang k.gmask 1).endWait RunMode.gangs
  { k with seq := { k.seq with mode := .saving none, resume := k.seq.mode, preempt := false, waitHonour := false
                               events := k.seq.events ++ ev } }

/-- What a save waits for has come about: writes landed, started commands completed, no segment copy. -/
def Core.drained (k : Core) : Bool := k.settled && k.started.isEmpty && !k.copying

/-- A withdrawn command: no acquire outstanding, no lease asked for (21 R375). -/
def Cmd.withdrawn (cmd : Cmd) : Cmd :=
  { cmd with prog := { cmd.prog with acq := .idle, hold := none, leaseReq := if cmd.op.toNat = 0x40 then none else cmd.prog.leaseReq } }

/-- The bytes of a context save by its table (21 R376). (DEDUCED, log 25) -/
def saveBytes (image : List Byte) : Nat :=
  let vregs := ((List.range 16).filter fun i => hdr image 0x0A 2 / 2 ^ i % 2 = 1).length
  8192 * vregs + 7 * 2048 + 16 * 64 + 8 * 18 + 23 * 8 + 8 * 8 * 8 + 64 * 8 + 64 * 16 +
    ((List.range 16).map (imgBank image)).foldl (· + ·) 0 + (if hdr image 0x05 1 % 2 = 1 then 64 * 4096 else 0)

/-- The unloaded cycles of a save or a restore (21 R375). (DEDUCED, log 25) -/
def saveCycles (image : List Byte) : Nat := 1200 + cdiv (saveBytes image) 512

/-- The lease of a holder ends, and its remaining count is recorded with every member of a gang, whichever drains first; a recorded count whose
request the face has not granted yet is recorded again (08 R166). (DESIGN CHOICE, log 19) -/
def State.recordLease (s : State) (c : Fin 256) : State :=
  let record (n : Nat) (s : State) : State :=
    ((s.core c).gang c).foldl (fun s x => s.onCore x fun k => { k with eng := { k.eng with leaseLeft := n } }) s
  let ungranted (r : LeaseReq) : Bool := r.cmd.isNone && r.k = (s.core c).leader c
  let s := match (s.faces[clusterOf c.val]).waiting.find? ungranted with
    | some r => (record r.n s).onFace (clusterOf c.val) fun f => { f with waiting := f.waiting.filter fun r => !ungranted r }
    | none => s
  match (s.faces[clusterOf c.val]).lease with
  | some l =>
    if !(l.mask.getLsbD (c.val % 4)) then s
    else (if l.expired || l.freed then s else record l.left s).onFace (clusterOf c.val) fun f => { f with lease := some { l with freed := true } }
  | none => s

/-- The save proper: commands withdrawn, the lease ended, the state written (21 R375). (DEDUCED, log 23) -/
def State.beginSave (s : State) (c : Fin 256) : State :=
  let k := s.core c
  let cmds := k.eng.all 0 ++ k.eng.all 1 ++ k.eng.all 2
  let s := cmds.foldl State.giveBack s
  let s := s.recordLease c
  let s := s.onFace (clusterOf c.val) fun f => { f with waiting := f.waiting.filter fun r => r.who ≠ c.val % 4 }
  let n := saveCycles (s.image k)
  s.onCore c fun k => { k with
    eng := { k.eng with queues := k.eng.queues.map fun q => q.map Cmd.withdrawn
                        fault := k.eng.fault.map fun f => f.map Cmd.withdrawn }
    seq := { k.seq with mode := .saving (some (s.later c.val n)) } }

/-- The saved record waits at the head of its ready queue, bound to this core (10 R217); the core is idle. -/
def State.endSave (s : State) (c : Fin 256) : State :=
  let k := s.core c
  match k.run with
  | none => s
  | some r =>
    let kept := { k with seq := { k.seq with mode := k.seq.resume } }
    let s := s.onDie (dieOf c.val) fun d =>
      { d with tasks := { id := d.nextTask, launch := r.launch, record := r.record, prio := r.prio, state := .preempted c.val
                          saved := some kept } :: d.tasks
               nextTask := d.nextTask + 1 }
    s.setCore c { k with
      run := none, lastLaunch := some r.launch
      seq := { k.seq with mode := .halted, next := [], ending := none, loops := [], events := [], transfer := none, delayLeft := 0, rollback := none, snap := {} }
      sto := { k.sto with hcache := [] }
      eng := { k.eng with queues := Vector.replicate 3 [], fault := Vector.replicate 3 none, held := [], subs := [], leaseLeft := 0
                          remote := k.eng.remote.filter fun n => !((k.eng.all 0 ++ k.eng.all 1 ++ k.eng.all 2).any fun x => x.remote = n) } }

/-- A core of a gang gives up what its waiting bundle has asked for, and its save begins (12 R254, 21 R375). -/
def State.holdCore (s : State) (c : Fin 256) : State := ({ s with cur := c }.withdraw).onCore c Core.hold

/-- A row of the frame that holds the save area of a core's context is under repair: the save or the restore waits (22 R395). (DEDUCED, log 23) -/
def State.areaStalled (s : State) (c : Fin 256) : Bool :=
  match (s.core c).ctx.bind (Table.get s.ctxs) with
  | some x => (x.firm.drop 1).any s.frameStalled
  | none => false

/-- PREEMPT_HONOUR: the honour point, the drained core, the save's end, one after the other. -/
def execPreemptHonour (c : Fin 256) (s : State) : Host.Outcome State Fault Refusal :=
  .next (match (s.core c).seq.mode with
    | .saving none => if (s.core c).drained then s.beginSave c else s
    | .saving (some t) => if t ≤ s.clock && !s.areaStalled c then s.endSave c else s
    | _ => if s.honourNow c then ((s.core c).gang c).foldl State.holdCore s else s)

/-! ### Restore (21 R375) -/

/-- A byte of the scratchpad is one that an image declares (02 R56). -/
def declaredByte (image : List Byte) (a : Nat) : Bool := decide (a % 0x30000 < imgBank image (a / 0x30000))

/-- A saved core put back: what the table of 21 R376 does not list stays the core's own, and the resident code comes from the image. `subs` are
the subscriptions that the launch has on the core beside the saved ones. (DEDUCED, log 25) -/
def Core.restore (k saved : Core) (image : List Byte) (subs : List Sub) (until_ : Nat) : Core :=
  let cmds := saved.eng.all 0 ++ saved.eng.all 1 ++ saved.eng.all 2
  let decl (a : Nat) : Bool := declaredByte image a
  let v := (List.range 16).foldl (fun v i => if hdr image 0x0A 2 / 2 ^ i % 2 = 1 then vset v i (saved.vec.v.getD i {}) else v) k.vec.v
  { saved with
    vec := { saved.vec with v := v }
    sys := if saved.live then saved.sys else
      { saved.sys with cause := k.sys.cause, epc := k.sys.epc &&& ~~~(1#64 <<< 23), tval := k.sys.tval }
    seq := { saved.seq with
      mode := .restoring until_, resume := saved.seq.mode, nextLanding := max k.seq.nextLanding saved.seq.nextLanding
      snap := if saved.live then saved.seq.snap else {} }
    sto := { saved.sto with
      spad := Memory.writeCells (saved.sto.spad.filter fun x => decl x.1) (k.sto.spad.filter fun x => !decl x.1)
      poison := ((saved.sto.poison.filter fun p => decl (32 * p)) ++ k.sto.poison.filter fun p => !decl (32 * p)).foldl setInsert []
      imem := Memory.writeN [] 0 ((image.drop 0x100).take (32 * hdr image 0x06 2))
      ipoison := []
      acc := if hdr image 0x05 1 % 2 = 1 then saved.sto.acc else k.sto.acc
      hcache := []
      old := []
      seen := [] }
    eng := { saved.eng with
      subs := subs ++ saved.eng.subs
      remote := k.eng.remote ++ saved.eng.remote.filter fun n => cmds.any fun x => x.remote = n
      sysOut := k.eng.sysOut
      nextRemote := max k.eng.nextRemote saved.eng.nextRemote
      nextCmd := max k.eng.nextCmd saved.eng.nextCmd
      lastStart := k.eng.lastStart }
    lastLaunch := k.lastLaunch
    suspicion := k.suspicion
    testDue := k.testDue
    testing := k.testing }

/-- The members of a fused gang that are not back on their cores yet (10 R205). -/
def State.absent (s : State) (c : Fin 256) : List (Fin 256) :=
  ((s.core c).gang c).filter fun x =>
    let k := s.core x
    k.gmask ≠ (s.core c).gmask || k.gstate ≠ 1 || k.away

/-- The recorded lease is asked for again, by a gang once all its members are back: until then its queues wait (08 R166, 10 R205).
(DEDUCED, log 19) -/
def State.askLease (s : State) (c : Fin 256) : State :=
  let k := s.core c
  let n := k.eng.leaseLeft
  if n = 0 || (decide (k.gmask ≠ 0) && !(s.absent c).isEmpty) then s
  else
    let s := s.onFace (clusterOf c.val) fun f => { f with waiting := f.waiting ++ [⟨k.leader c, n, none, c.val % 4⟩] }
    (k.gang c).foldl (fun s x => s.onCore x fun k => { k with eng := { k.eng with leaseLeft := 0 } }) s

/-- The restored core goes on: its lease is asked for again, a barrier released meanwhile is answered (10 R203). -/
def State.endRestore (s : State) (c : Fin 256) : State :=
  let k := s.core c
  let s := (s.onCore c fun k => { k with seq := { k.seq with mode := k.seq.resume } }).askLease c
  k.waits.foldl (fun s m => match m with
    | .barrier g _ (some gen) _ => match Table.get s.groups g with
      | some e => if e.gen ≠ gen then s.send s.clock (.resume c.val g gen e.status) else s
      | none => s
    | _ => s) s

/-- RESUME: a RESUME bind record, and the end of the restore that it starts; the segments that last landed are copied again (14 R299). -/
def execResume (c : Fin 256) (s : State) : Host.Outcome State Fault Refusal :=
  .next (match (s.core c).seq.mode with
    | .restoring t => if t ≤ s.clock && !s.areaStalled c then s.endRestore c else s
    | _ => match s.bindNow c with
      | some b => match b.act with
        | .resume id =>
          let (t, s) := (s.unbind c b).takeTask (dieOf c.val) id
          match t.bind TaskRec.saved with
          | some k =>
            let n := k.run.map RunRec.launch |>.getD 256
            let s := s.leave c n
            let own := if (s.core c).lastLaunch = some n then (s.core c).eng.subs
              else (((Table.get s.launches n).bind fun l => Table.get l.kept c.val).map fun x => x.eng.subs).getD []
            let x := (s.core c).restore k (s.image k) own (s.later c.val (saveCycles (s.image k)))
            s.setCore c ([k.sto.seg.landed.1, k.sto.seg.landed.2].foldl (fun x n => match n with
              | some n => (s.copySegment x n).1
              | none => x) x)
          | none => s
        | _ => s
      | none => s)

end Sys2Proof.Machine
end

