-- ==== Sys2Proof/Machine/FlashEvents.lean ====
section
/-! DEFINITION. The flash tier: fetch queues, staging fetches, the Prospector's selection, uncorrectable pages and the flash
translation layer's health (15 R303 to R317, 22 R389, R390). -/

namespace Sys2Proof.Machine

/-! ### Fetch queues (15 R309, R311) -/

/-- FETCH_REQUEST: a request reaches its die's queue; one that finds it full waits for room. -/
def execFetchRequest (m : Nat) (s : State) : Host.Outcome State Fault Refusal :=
  .next (match s.msg m with
    | some (.fetchReq d r) =>
      let d := Fin.ofNat 4 d
      if (s.dies[d]).fetch.length < 256 then
        let s := (s.dropMsg m).onDie d fun x => { x with fetch := x.fetch ++ [r] }
        match r.cmd with
        | some (c, id) => s.onCmd (coreId c) id fun y => { y with prog := { y.prog with outcome := 1 } }
        | none => s
      else { s with msgs := s.msgs.map fun y => if y.id = m then { y with at_ := s.clock + 1 } else y }
    | _ => s)

/-- The object that begins at a page. -/
def Ctx.object (x : Ctx) (page : Nat) : Option Obj := x.models.findSome? fun m => m.objs.find? fun o => o.page = page

/-- A command that holds a pin runs on the slot of a page, or waits to, as its captured entry names it (15 R310). -/
def State.runsOn (s : State) (ctx page : Nat) : Bool :=
  s.cores.any fun k => (k.started ++ k.eng.fault.toList.filterMap id).any fun x => x.ctx = ctx && x.pins.any fun h => Ent.auxw h.e = page

/-- Every handle that resolves to a page, under any binding, is unpinned, and no command runs on its slot (15 R309, R310). -/
def State.unpinned (s : State) (ctx : Nat) (x : Ctx) (page : Nat) : Bool :=
  !s.runsOn ctx page &&
  (x.handles.all fun p => !(Ent.kind p.2 = 2 && Ent.auxw p.2 = page) || Ent.pin p.2 = 0) &&
    s.launches.all fun l => l.2.ctx ≠ ctx || l.2.done || (l.2.bindings.all fun b => b.2 ≠ page || Ent.pin (x.entry b.1) = 0)

/-- The slot that a fetch takes for a page without one: the lowest free, else the replaceable one used longest ago. -/
def State.slotFor (s : State) (ctx : Nat) (x : Ctx) : Option Nat :=
  match x.slots.findIdx? (fun sl => decide (sl.state = .free)) with
  | some i => some i
  | none =>
    let can := x.slots.zipIdx.filter fun p => p.1.state = .full && s.unpinned ctx x p.1.page
    let older (a : Option (Slot × Nat)) (p : Slot × Nat) : Option (Slot × Nat) := match a with
      | none => some p
      | some b => if p.1.lastUse < b.1.lastUse then some p else a
    (can.foldl older none).map Prod.snd

/-- A staging fetch starts into a slot (15 R303, R308, 22 R389). -/
def State.startFetch (s : State) (ctx i : Nat) (o : Obj) (again : Bool) : State :=
  let left := if ((Table.get s.ctxs ctx).map fun x => x.named o.page).getD true then [] else s.boundBy ctx o.page
  let used (m : Model) : Model := if m.objs.any (fun y => decide (y.page = o.page)) then { m with lastUse := s.clock } else m
  let s := s.onCtx ctx fun x => { x with models := x.models.map used }
  s.setSlot ctx i fun sl =>
    { state := .inflight, page := o.page, lastUse := sl.lastUse, mark := again, due := some (s.clock + 4200 + cdiv o.len 1024)
      from_ := o.page * 16384, len := o.len, left := (left ++ if again then sl.left else []).eraseDups }

/-- A request served on the page that its handle names in this cycle (15 R309, R316): done with, or waiting for a slot. (DEDUCED, log 24) -/
def State.serve (s : State) (r : FetchReq) : State × Bool :=
  match Table.get s.ctxs r.ctx with
  | none => (s, true)
  | some x =>
    match x.object (s.fetchPage r), x.slotOf (s.fetchPage r) with
    | none, _ => (s, true)
    | some o, some (i, sl) =>
      if sl.state = .poison then (s.startFetch r.ctx i o true, true) else (s, true)
    | some o, none =>
      match s.slotFor r.ctx x with
      | some i => (s.startFetch r.ctx i o false, true)
      | none =>
        if r.prosp then
          (match r.cmd with
           | some (c, id) => s.onCmd (coreId c) id fun y => { y with prog := { y.prog with outcome := y.prog.outcome + (1 <<< 40) } }
           | none => s, true)
        else (s, false)

/-- Requests served in order until one waits for a slot. -/
def State.serveAll (s : State) : List FetchReq → State × List FetchReq
  | [] => (s, [])
  | r :: l =>
    let (t, done) := s.serve r
    if done then t.serveAll l else (s, r :: l)

/-- FETCH_QUEUE_SERVE: demand requests before all others, each kind in arrival order; a waiting one holds those behind it. -/
def execFetchQueueServe (d : Fin 4) (s : State) : Host.Outcome State Fault Refusal :=
  .next (
    let q := (s.dies[d]).fetch
    let (s, left) := s.serveAll ((q.filter fun r => r.demand) ++ q.filter fun r => !r.demand)
    s.onDie d fun x => { x with fetch := left })

/-! ### The end of a staging fetch (15 R305, R308, R310) -/

/-- The rows of HBM that a slot's object lies in. -/
def Ctx.slotRows (x : Ctx) (slot len : Nat) : List Nat :=
  ((List.range (cdiv len 2048)).filterMap fun i => match x.translate (x.d 0xE0 8 + slot * x.d 0x28 8 + 2048 * i) false with
    | .ok a => some (a / 2048)
    | .error _ => none)

/-- STAGING_FETCH_COMPLETE: the bytes of the object stand in the slot, poisoned where the flash failed; the slot is FULL. A row under repair
holds its writing back (22 R395). -/
def execStagingFetchComplete (ctx : Fin 64) (slot : Nat) (s : State) : Host.Outcome State Fault Refusal :=
  .next (match Table.get s.ctxs ctx.val with
    | none => s
    | some x =>
      match x.slots[slot]?.bind fun sl => sl.due.map fun t => (sl, t) with
      | none => s
      | some (sl, t) =>
        if s.clock < t || (x.slotRows slot sl.len).any s.rowStalled then s
        else
          let (bad, s) := s.readPages ctx.val ((List.range (cdiv sl.len 16384)).map fun i => sl.page + i)
          let va := x.d 0xE0 8 + slot * x.d 0x28 8
          let places := (List.range sl.len).filterMap fun i => match x.translate (va + i) false with
            | .ok a => some (i, a)
            | .error _ => none
          let poison := (places.filter fun p => bad.contains (sl.page + p.1 / 16384)).map fun p => p.2 / 32
          let s := s.hbmWrite (places.map fun p => (p.2, x.flash.read (sl.from_ + p.1))) poison.eraseDups
          let s := s.setSlot ctx.val slot fun y => { y with state := .full, lastUse := s.clock, due := none }
          s.wakeRecords)

/-! ### The Prospector (15 R313, R314, 16 R347) -/

/-- One selection of a PROSP: the counts of its outcome word. -/
def State.select (s : State) (d : Fin 4) (c : Fin 256) (cmd : Cmd) (h : Nat) : State :=
  let count (b : Nat) (s : State) : State :=
    s.onCmd c cmd.id fun y => { y with prog := { y.prog with outcome := y.prog.outcome + 1 + (1 <<< b) } }
  let e := s.nowEntry cmd h
  if Ent.kind e ≠ 2 ∨ Ent.state e = 4 then count 32 s
  else if Ent.state e = 2 then count 8 (s.touchSlot cmd.ctx (Ent.auxw e))
  else if Ent.state e = 1 then count 16 s
  else if 256 ≤ (s.dies[d]).fetch.length then count 48 s
  else
    let r : FetchReq := { ctx := cmd.ctx, handle := h, launch := cmd.launch, demand := false, prosp := true, cmd := some (c.val, cmd.id) }
    count 24 (s.onDie d fun x => { x with fetch := x.fetch ++ [r] })

/-- PROSPECTOR_SELECTION: the oldest PROSP of a die selects; it completes in this cycle. -/
def execProspectorSelection (d : Fin 4) (s : State) : Host.Outcome State Fault Refusal :=
  .next (match (s.dies[d]).prosp with
    | [] => s
    | j :: rest =>
      if s.clock < j.at_ then s
      else
        let s := s.onDie d fun x => { x with prosp := rest }
        let c := coreId j.core
        match (s.core c).cmd j.cmd with
        | none => s
        | some cmd =>
          let s := j.sel.foldl (fun s h => s.select d c cmd h) s
          s.onCmd c j.cmd fun y => { y with prog := { y.prog with due := some s.clock } })

/-! ### Flash health (15 R304) -/

/-- READ_DISTURB_REFRESH: a block rewritten, and retired onto a spare when it proves bad. -/
def execReadDisturbRefresh (stack : Fin 8) (bad : BitVec 1) (s : State) : Host.Outcome State Fault Refusal :=
  .next (s.onHbf stack.val fun h =>
    let h := { h with refresh := h.refresh + 1 }
    if bad = 1 then { h with bad := h.bad + 1, spare := h.spare - (if h.spare = 0 then 0 else 1)
                             nowrite := h.nowrite || decide (h.spare.toNat ≤ 1) }
    else h)

/-- WEAR_LEVELLING: data moved between blocks; wear reported, bad blocks retired onto spares. -/
def execWearLevelling (stack : Fin 8) (meanPe maxPe : BitVec 32) (bad : Nat) (s : State) : Host.Outcome State Fault Refusal :=
  .next (s.onHbf stack.val fun h =>
    { h with meanPe := meanPe, maxPe := maxPe, bad := h.bad + BitVec.ofNat 32 bad, spare := BitVec.ofNat 32 (h.spare.toNat - bad)
             nowrite := h.nowrite || (decide (0 < bad) && decide (h.spare.toNat ≤ bad)) })

end Sys2Proof.Machine
end

