-- ==== Sys2Proof/Machine/PowerEvents.lean ====
section
/-! DEFINITION. Power, thermal steps, counting windows, repair, retirement and structural tests (22 R390 to R399, 24 R418 to R420). -/

namespace Sys2Proof.Machine

/-! ### Reset (01 R30) -/

/-- The root of trust accepts the firmware: its key has the fused hash, and its signature holds (24 R418). (DEDUCED, log 39) -/
def firmwareOk : Bool :=
  sha512 Config.firmwareKey = natLe 64 Config.fusedHash.toNat &&
    ecdsaOk Config.firmwareKey Config.firmware (beNat (Config.firmwareSig.take 66)) (beNat (Config.firmwareSig.drop 66))

/-- POWER_ON_RESET: every core halted with its reset state, and the firmware verified (24 R418). The host's memory is not the package's; what
the stacks' persistent records hold stays (15 R304, 22 R396). (DEDUCED, log 26) -/
def execPowerOnReset (s : State) : Host.Outcome State Fault Refusal :=
  let z := State.reset
  .next { z with
    free := s.free
    host := s.host
    hostPoison := s.hostPoison
    fwOk := firmwareOk
    netLanes := s.netLanes
    decLanes := s.decLanes
    clusters := s.clusters
    dead := s.dead
    hbmStacks := s.hbmStacks.map fun h => { rows := h.rows, banks := h.banks, lanes := h.lanes, pch := h.pch }
    hbfStacks := s.hbfStacks.map fun h => { h with curr := 0, prev := 0, chanUnc := [] } }

/-! ### Cluster power states (24 R419) -/

/-- A bind record names a core of the cluster. -/
def State.bound (s : State) (k : Fin 64) : Bool :=
  (s.dies[dieOf (4 * k.val)]).binds.any fun b => decide (b.core / 4 = k.val)

/-- A cluster's cores are idle and none is bound, its queues empty and its face idle. (DEDUCED, log 38) -/
def State.clusterIdle (s : State) (k : Fin 64) : Bool :=
  ((clusterCores k).all fun c => let x := s.core c; x.isHalted && x.run.isNone && x.settled && x.queuesEmpty) && !s.bound k &&
    (s.faces[k]).lease.isNone && (s.faces[k]).waiting.isEmpty

/-- What makes a cluster leave CLOCK: a bind, an entry in a queue, or a record of a launch whose set includes one of its cores that enters its
die's task store. -/
def State.wakeCause (s : State) (k : Fin 64) : Bool :=
  let d := s.dies[dieOf (4 * k.val)]
  s.bound k || ((clusterCores k).any fun c => !(s.core c).queuesEmpty) ||
    (d.tasks.any fun t => decide (d.taskSeen ≤ t.id) && match Table.get s.launches t.launch with
      | some l => (clusterCores k).any fun c => l.cores.getLsbD c.val
      | none => false)

/-- The records in the task stores have entered them (24 R419). -/
def State.seeTasks (s : State) : State := { s with dies := s.dies.map fun d => { d with taskSeen := d.nextTask } }

/-- A cluster's power state changed. -/
def State.setPower (s : State) (k : Fin 64) (p : Power) : State := { s with power := s.power.set k p }

/-- CLUSTER_CLOCK_GATE: CLOCK after 1,024 idle cycles, RETAIN from CLOCK when STAY = 0. (DEDUCED, log 38) -/
def execClusterClockGate (k : Fin 64) (s : State) : Host.Outcome State Fault Refusal :=
  .next (match s.power[k] with
    | .run (some t) => if s.since (4 * k.val) t 1024 && s.clusterIdle k then s.setPower k .clock else s
    | .clock => if !s.stay.getLsbD k.val && !s.wakeCause k then s.setPower k .retain else s
    | _ => s)

/-- CLUSTER_CLOCK_WAKE: 16 cycles to leave CLOCK. -/
def execClusterClockWake (k : Fin 64) (s : State) : Host.Outcome State Fault Refusal :=
  .next (match s.power[k] with
    | .clock => if s.wakeCause k then s.setPower k (.leavingClock (s.later (4 * k.val) 16)) else s
    | .leavingClock t => if t ≤ s.clock then s.setPower k (.run none) else s
    | _ => s)

/-- RETAIN_WAKE_HANDSHAKE: 2,100 cycles to leave RETAIN. (DEDUCED, log 38) -/
def execRetainWakeHandshake (k : Fin 64) (s : State) : Host.Outcome State Fault Refusal :=
  .next (match s.power[k] with
    | .retain => if s.bound k || s.stay.getLsbD k.val then s.setPower k (.leavingRetain (s.later (4 * k.val) 2100)) else s
    | .leavingRetain t => if t ≤ s.clock then s.setPower k (.run none) else s
    | _ => s)

/-! ### Thermal throttling (24 R420) -/

/-- THERM as the register reads (24 R406). -/
def State.therm (s : State) : Word :=
  BitVec.ofNat 64 (s.thermChg.toNat * 2 ^ 32 +
    ((List.range 4).map fun d => let x := s.dies.getD d Die.reset; (x.step.toNat + if x.hot then 4 else 0) * 2 ^ (8 * d)).foldl (· + ·) 0)

/-- What is left of a duration, counted at a new clock step. -/
def rescale (old new : BitVec 2) (n : Nat) : Nat := cdiv (n * (5 - old.toNat)) (5 - new.toNat)

/-- What runs on a die goes on at the new step: commands, fills, saves, restores, segment copies, table reads, streams, jobs of the Prospector,
results and requests on their way, leases, cluster wakes. What counts its cycles from a cycle on counts them by the changes of STEP
(`fifths`). (DEDUCED, log 9) -/
def State.slow (s : State) (d : Fin 4) (old new : BitVec 2) : State :=
  let due (t : Nat) : Nat := if s.clock < t then s.clock + rescale old new (t - s.clock) else t
  let cmd (x : Cmd) : Cmd := { x with prog := { x.prog with
    due := x.prog.due.map due, stall := x.prog.stall.map fun p => (p.1, rescale old new p.2) } }
  let mode (m : RunMode) : RunMode := match m with
    | .filling t u hs => .filling t (due u) hs
    | .saving (some t) => .saving (some (due t))
    | .restoring t => .restoring (due t)
    | m => m
  let core (k : Core) : Core := { k with
    eng := { k.eng with queues := k.eng.queues.map fun q => q.map cmd, subs := k.eng.subs.map fun x => { x with at_ := due x.at_, unl := due x.unl } }
    sto := { k.sto with seg := { k.sto.seg with copy := k.sto.seg.copy.map fun x => (x.1, x.2.1, due x.2.2) } }
    seq := { k.seq with
      mode := mode k.seq.mode
      wait := k.seq.wait.map fun w => match w with
        | .sgSent slot t rows => .sgSent slot (due t) rows
        | w => w } }
  let msg (m : Msg) : Msg :=
    let mine (c : Nat) : Msg := if dieOf c = d then { m with at_ := due m.at_ } else m
    match m.body with
    | .landed c _ _ => mine c
    | .hrebind c _ => mine c
    | .fetchReq x _ => mine (64 * x)
    | _ => m
  let power (p : Power) : Power := match p with
    | .leavingClock t => .leavingClock (due t)
    | .leavingRetain t => .leavingRetain (due t)
    | p => p
  let t : State := { s with
    cores := Vector.ofFn fun c : Fin 256 => if dieOf c.val = d then core (s.core c) else s.core c
    faces := Vector.ofFn fun f : Fin 64 => let x := s.faces[f]
      if dieOf (4 * f.val) = d then { x with lease := x.lease.map fun l => { l with expiry := due l.expiry } } else x
    power := Vector.ofFn fun f : Fin 64 => if dieOf (4 * f.val) = d then power s.power[f] else s.power[f]
    msgs := s.msgs.map msg }
  t.onDie d fun x => { x with prosp := x.prosp.map fun j => { j with at_ := due j.at_ } }

/-- THERMAL_STEP_CHANGE: a die's STEP changes at a frame boundary, and the physical function hears of it. (DEDUCED, log 38) -/
def execThermalStepChange (d : Fin 4) (v : BitVec 2) (s : State) : Host.Outcome State Fault Refusal :=
  .next (
    if s.clock % 128 ≠ 0 then s.onDie d fun x => { x with newStep := some v }
    else
      let old := (s.dies[d]).step
      let s := s.onDie d fun x => { x with newStep := none, step := v }
      if old = v then s
      else
        let s := { (s.slow d old v).onDie d fun x => { x with steps := (s.clock, old) :: x.steps } with thermChg := s.thermChg + 1 }
        s.pfEvent 36 s.therm 0)

/-- THROTTLE_THRESHOLD_CROSSING. (DESIGN CHOICE, log 6) -/
def execThrottleThresholdCrossing (d : Fin 4) (hot : BitVec 1) (s : State) : Host.Outcome State Fault Refusal :=
  .next (s.onDie d fun x => { x with hot := hot = 1 })

/-! ### Counting windows (22 R390, R391, 24 R406) -/

/-- A counting window begins in this cycle: under a new length from its first multiple after the write on, else under the old one. -/
def State.windowStarts (s : State) : Bool :=
  match s.newShift with
  | some n => s.clock % 2 ^ n = 0 || s.clock % 2 ^ s.winShift = 0
  | none => s.clock % 2 ^ s.winShift = 0

/-- COUNTING_WINDOW_BOUNDARY: counts reset, suspicion halved, FHCBIT rolled over. -/
def execCountingWindowBoundary (s : State) : Host.Outcome State Fault Refusal :=
  .next (
    if !s.windowStarts then s
    else
      let s := match s.newShift with
        | some n => if s.clock % 2 ^ n = 0 then { s with winShift := n, newShift := none } else s
        | none => s
      { s with
        cores := s.cores.map fun k => { k with suspicion := k.suspicion >>> 1 }
        faces := s.faces.map fun f => { f with suspicion := f.suspicion >>> 1 }
        hbmStacks := s.hbmStacks.map fun h => { h with rowCorr := [], bankRows := [], laneRetry := [] }
        hbfStacks := s.hbfStacks.map fun h => { h with prev := h.curr, curr := 0, chanUnc := [] } })

/-! ### Repair steps (22 R394 to R396) -/

/-- A change of one HBM stack. -/
def State.onHbm (s : State) (n : Fin 12) (f : Hbm → Hbm) : State := { s with hbmStacks := s.hbmStacks.set n (f s.hbmStacks[n]) }

/-- A repair of a resource is called for already; of a bank, of any of its rows. -/
def Hbm.wanted (h : Hbm) (res pch unit : Nat) : Bool :=
  h.wants.any fun w => w.1 = res && w.2.1 = pch && (w.2.2 = unit || (res = 1 && w.2.2 / 16384 = unit / 16384))

/-- A spare of the kind remains beside those that the repairs called for will take (22 R397). -/
def Hbm.hasSpare (h : Hbm) (res : Nat) : Bool :=
  decide ((h.wants.filter fun w => w.1 = res).length < if res = 0 then h.rows else if res = 1 then h.banks else h.lanes)

/-- A repair called for by what found the failure, and by the command, if it still runs. -/
def Hbm.want (h : Hbm) (res pch unit finder : Nat) (by_ : Option Cmd) : Hbm :=
  { h with
    wants := h.wants ++ [(res, pch, unit)]
    finders := match by_ with
      | some x => h.finders ++ [((res, pch, unit), finder, x.id)]
      | none => h.finders }

/-- The frames with a byte in a row, a bank, by its first row, or a lane of a pseudo-channel (22 R394, R397). -/
def resourceFrames (stack res pch unit : Nat) : List Nat :=
  let first := stack * 32768 + pch * 1024
  if res = 0 then [first + unit / 1024]
  else if res = 1 then (List.range 16).map fun i => first + unit / 16384 * 16 + i
  else (List.range 1024).map fun i => first + i

/-- TVAL of the exhausted-spares trap (22 R397). -/
def sparesTval (stack res va : Nat) : Word := BitVec.ofNat 64 (stack * 2 ^ 43 + res * 2 ^ 40 + va % 2 ^ 40)

/-- The command that found the failure: its core, UNIT and PC, from one number; 0 for none. -/
def finderOf (n : Nat) : Option (Fin 256 × Nat × BitVec 13) :=
  if n = 0 then none else some (coreId ((n - 1) % 256), (n - 1) / 256 % 256, BitVec.ofNat 13 ((n - 1) / 65536))

/-- A command's reads are made by a unit (11 R231). -/
def Cmd.ofUnit (x : Cmd) (unit : Nat) : Bool :=
  if unit = 2 then x.isCopy else if unit = 4 then x.isMatrix else !x.isCopy && !x.isMatrix

/-- The finding command, while it still runs: the oldest one of its UNIT at its PC. (DEDUCED, log 40) -/
def State.finding (s : State) (n : Nat) : Option (Fin 256 × Cmd) :=
  (finderOf n).bind fun f => ((s.core f.1).started.find? fun x => x.pc = f.2.2 && x.ofUnit f.2.1).map fun x => (f.1, x)

/-- The finding command of a repair called for, while it still runs, by its number. -/
def State.finder (s : State) (f : Nat × Nat) : Option (Fin 256 × Cmd) :=
  (finderOf f.1).bind fun x => ((s.core x.1).cmd f.2).map fun y => (x.1, y)

/-- The virtual address of a byte of physical HBM in a context (11 R234). -/
def Ctx.virtualOf (x : Ctx) (place : Nat) : Nat :=
  ((x.l2.find? fun e => e.2.toNat % 8 / 4 = 0 && e.2.getLsbD 0 && e.2.toNat / 2 ^ 21 % 2 ^ 19 = place / 2 ^ 21).map fun e => e.1 * 2 ^ 21 + place % 2 ^ 21).getD 0

/-- The finding command, if it is a matrix command, takes the exhausted-spares trap for the failing byte (22 R397). -/
def State.sparesTrap (s : State) (stack res place : Nat) (by_ : Option (Fin 256 × Cmd)) : State :=
  match by_ with
  | some (c, cmd) =>
    if !cmd.isMatrix then s
    else
      let va := ((Table.get s.ctxs cmd.ctx).map fun x => x.virtualOf place).getD 0
      let spec := if cmd.op.toNat = 0x42 then groupsBefore cmd va else cmd.prog.spec
      s.faultCmd c cmd { cause := .exhaustedSpares, tval := sparesTval stack res va } cmd.prog.commit spec
  | none => s

/-- The retirement of frames (22 R397, R398): a cut for every page that a context maps on them, and for every frame that the Winder holds. A
matrix command that found the failure has trapped, and its restart meets the retired page; another command completes first, and
the cuts follow within 2,048 cycles (23 R400). (DEDUCED, log 40) -/
def State.retire (s : State) (stack : Fin 12) (res : Nat) (frames : List Nat) (finder : Nat) (by_ : Option (Fin 256 × Cmd)) : State :=
  let (n, s) := s.choose 2047
  let cmd := by_.bind fun f => if f.2.isMatrix then none else some (f.1.val, f.2.id)
  let trapped := by_.any fun f => f.2.isMatrix
  let wait := if trapped then 0 else n
  let fresh := frames.filter fun f => !s.cuts.any fun k => k.frame = f
  let cut (ctx : Nat) (page : Option Nat) (f : Nat) : Cut :=
    ⟨ctx, page, f, BitVec.ofNat 2 res, stack, finder, cmd, wait, if cmd.isNone then some (s.clock + wait) else none⟩
  let cuts := s.ctxs.flatMap fun x =>
    (x.2.l2.filterMap fun e =>
      let f := e.2.toNat / 2 ^ 21 % 2 ^ 19
      if e.2.getLsbD 0 && !e.2.getLsbD 2 && fresh.contains f then some (cut x.1 (some e.1) f) else none) ++
    ((x.2.table :: x.2.firm).filter fresh.contains).map fun f => cut x.1 none f
  { s with dead := frames.foldl setInsert s.dead, cuts := s.cuts ++ cuts }

/-- A repair called for, once for a resource, while a spare of its kind remains; with none left, the finding access completes, a matrix
command that made it traps, and every frame of the resource is retired (22 R390, R397). (DESIGN CHOICE, log 6) -/
def State.callRepair (s : State) (stack : Fin 12) (res pch unit place finder : Nat) (by_ : Option (Fin 256 × Cmd)) : State :=
  let h := s.hbmStacks[stack]
  if h.wanted res pch unit then s
  else if h.hasSpare res then s.onHbm stack fun h => h.want res pch unit finder (by_.map Prod.snd)
  else (s.retire stack res (resourceFrames stack.val res pch unit) finder by_).sparesTrap stack.val res place by_

/-- One more event of a resource in the window, by its key in a table of counts. -/
def countOne (t : Table Nat) (key : Nat) : Table Nat := Table.set t key ((Table.get t key).getD 0 + 1)

/-- What an uncorrectable SRAM error leaves poisoned (22 R379): a sector of the scratchpad, a bundle of the instruction scratchpad, a sector
of the accumulator quarter. -/
def Store.strike (t : Store) (mem place : Nat) : Store :=
  match mem with
  | 0 => { t with poison := setInsert t.poison (place % 98304) }
  | 1 => { t with ipoison := setInsert t.ipoison (place % 8192) }
  | 2 =>
    let row := place / 128 % 64
    let r := t.acc.getD row {}
    { t with acc := vset t.acc row { r with poison := r.poison ||| (1#128 <<< (place % 128)) } }
  | _ => t

/-- An uncorrectable error in a core's engine buffers: a sector of what a started command reads carries poison from there on (22 R379). -/
def State.strikeEngine (s : State) (c : Fin 256) (place : Nat) : State :=
  let l := (s.core c).started.filter fun x => x.isCopy || decide (x.op.toNat = 0x42 ∨ x.op.toNat = 0x43)
  match l[place % l.length]? with
  | none => s
  | some x => s.onCmd c x.id fun y => { y with prog := { y.prog with struck := setInsert y.prog.struck (place / l.length) } }

/-- A write whose value is lost. -/
def Write.lost (v : Word) : Write → Write
  | .scalar r _ => .scalar r v
  | .pred n _ => .pred n (v.getLsbD 0)
  | .push q id _ t => .push q id v t
  | w => w

/-- An uncorrectable error in a landing buffer: the result that waits there is lost, and what lands in its place is open; a register carries no
poison. (DESIGN CHOICE, log 42) -/
def State.strikeLanding (s : State) (c : Fin 256) (place : Nat) : State :=
  let l := (s.core c).seq.landings.filter fun x => x.arrived.isSome
  match l[place % l.length]? with
  | none => s
  | some x =>
    let v := BitVec.ofNat 64 (s.freeAt 0)
    (s.onCore c fun k => { k with seq := { k.seq with landings := k.seq.landings.map fun y =>
      if y.id = x.id then { y with arrived := y.arrived.map fun ws => ws.map (Write.lost v) } else y } }).bump

/-! ### Frames and page entries (11 R234, R236, R237, 22 R398, 24 R416) -/

/-- A page mapped onto a frame, or its entry cleared (11 R234, R236). -/
def Ctx.setPage (x : Ctx) (page : Nat) (e : BitVec 64) : Ctx :=
  { x with l1 := Table.set x.l1 (page / 512) (BitVec.ofNat 64 (page / 512 * 2 ^ 12 + 1)), l2 := Table.set x.l2 page e }

/-- The level-2 entry of a page. -/
def Ctx.page (x : Ctx) (page : Nat) : BitVec 64 := (Table.get x.l2 page).getD 0

/-- A level-2 entry. -/
def pageEntry (frame : Nat) (w : Bool) : BitVec 64 := BitVec.ofNat 64 (frame % 2 ^ 19 * 2 ^ 21 + (if w then 2 else 0) + 1)

/-- A frame that some context holds: mapped, retired or not, or with its handle table, its violation log or its save area. -/
def State.frameUsed (s : State) (f : Nat) : Bool :=
  s.ctxs.any fun x => x.2.table = f || x.2.firm.contains f || x.2.l2.any fun e => e.2.toNat / 2 ^ 21 % 2 ^ 19 = f && e.2.toNat % 8 ≠ 0

/-- A frame that a map may take: held by no context, never retired (11 R237), of a pseudo-channel in service (00 R3). -/
def State.frameFree (s : State) (f : Nat) : Bool :=
  !s.frameUsed f && !s.dead.contains f && (s.hbmStacks[frameStack f]).pch.getLsbD (framePch f)

/-- How many frames a map may still take. -/
def State.framesLeft (s : State) : Nat := ((List.range frameCount).filter s.frameFree).length

/-- A fresh frame (24 R416): which one is open; none when no frame is left. (DESIGN CHOICE, log 7) -/
def State.newFrame (s : State) : Option Nat × State :=
  let (k, s) := s.choose (frameCount - 1)
  (((List.range frameCount).map fun i => (k + i) % frameCount).find? s.frameFree, s)

/-- The bytes of a frame, zero with valid check bits. -/
def State.clearFrame (s : State) (f : Nat) : State :=
  { s with hbm := s.hbm.filter fun c => decide (c.1 / 2 ^ 21 ≠ f), hbmPoison := s.hbmPoison.filter fun k => decide (k / 65536 ≠ f) }

/-- The bytes and the poison of a frame copied into another (22 R394). -/
def State.copyFrame (s : State) (old f : Nat) : State :=
  let t := s.clearFrame f
  { t with
    hbm := t.hbm.writeCells ((s.hbm.filter fun c => decide (c.1 / 2 ^ 21 = old)).map fun c => (f * 2 ^ 21 + c.1 % 2 ^ 21, c.2))
    hbmPoison := ((s.hbmPoison.filter fun k => decide (k / 65536 = old)).map fun k => f * 65536 + k % 65536).foldl setInsert t.hbmPoison }

/-- The Winder-mapped areas of a context (24 R414), as page and count. -/
def Ctx.areas (x : Ctx) : List (Nat × Nat) :=
  [(x.d 0xC8 8 / 2 ^ 21, 1), (x.d 0xD0 8 / 2 ^ 21, 1), (x.d 0xD8 8 / 2 ^ 21, 1), (x.d 0xE0 8 / 2 ^ 21, x.d 0x24 4 * (x.d 0x28 8 / 2 ^ 21))]

/-- A page lies in a Winder-mapped area. -/
def Ctx.owned (x : Ctx) (page : Nat) : Bool := x.areas.any fun a => decide (a.1 ≤ page ∧ page < a.1 + a.2)

/-- The relocation of a page of a Winder-owned area (22 R398): its contents rewritten, poison among them; a cache slot on it is poisoned.
Where no frame is left the page stays. (DEDUCED, log 40; DESIGN CHOICE, log 7) -/
def State.relocate (s : State) (ctx page : Nat) : State :=
  match Table.get s.ctxs ctx with
  | none => s
  | some x =>
    let old := (x.page page).toNat / 2 ^ 21 % 2 ^ 19
    match s.newFrame with
    | (none, s) => s
    | (some f, s) =>
      let s := { s.copyFrame old f with dead := setInsert s.dead old }
      let first := x.d 0xE0 8 / 2 ^ 21
      let per := x.d 0x28 8 / 2 ^ 21
      let s := if first ≤ page ∧ page < first + x.d 0x24 4 * per then
          s.setSlot ctx ((page - first) / per) fun (sl : Slot) => if sl.state = SlotState.full then { sl with state := .poison } else sl
        else s
      s.onCtx ctx fun y => y.setPage page (pageEntry f false)

/-- The relocation of a frame that the Winder holds for a context: its handle table, its violation log or its save area (22 R398).
(DEDUCED, log 40; DESIGN CHOICE, log 7) -/
def State.moveOwn (s : State) (ctx old : Nat) : State :=
  match s.newFrame with
  | (none, s) => s
  | (some f, s) => { s.copyFrame old f with dead := setInsert s.dead old }.onCtx ctx fun y =>
      { y with table := if y.table = old then f else y.table, firm := y.firm.map fun g => if g = old then f else g }

/-- The relocation of a context's handle table. -/
def State.moveTable (s : State) (ctx : Nat) : State :=
  match Table.get s.ctxs ctx with
  | none => s
  | some x => s.moveOwn ctx x.table

/-! ### Errors of the hardware (22 R379, R390, R391) -/

/-- A pseudo-channel fenced off (00 R3): one that still holds frames stays, since the spec moves no frame off it. (DESIGN CHOICE, log 6) -/
def State.fencePch (s : State) (stack : Fin 12) (n : Fin 32) : State :=
  if (List.range 1024).any fun i => s.frameUsed (stack.val * 32768 + n.val * 1024 + i) then s
  else s.onHbm stack fun h => { h with pch := h.pch &&& ~~~(1#32 <<< n.val) }

/-- An error of the hardware: corrected and counted, or the sector poisoned and counted; at a threshold a repair is called for
(22 R379, R390, R391, 15 R304); or a unit fenced off (00 R3). -/
def State.hwError (s : State) : HwError → State
  | .sram c mem place double =>
    let s := s.onCore c fun k => { k.suspected (if double then 16 else 1) with sto := if double then k.sto.strike mem place else k.sto }
    if !double || decide (mem < 3) then s else if mem = 3 then s.strikeEngine c place else s.strikeLanding c place
  | .face k double => s.onFace k fun f => f.suspected (if double then 16 else 1)
  | .hbm sector double finder =>
    let (stack, pch, row) := rowPlace (sector / 64)
    let s := if double then { s with hbmPoison := setInsert s.hbmPoison sector } else s
    let key := pch * 1048576 + row
    let s := if double then s else s.onHbm stack fun h => { h with rowCorr := countOne h.rowCorr key }
    if double || decide (4 ≤ (Table.get (s.hbmStacks[stack]).rowCorr key).getD 0) then s.callRepair stack 0 pch row (32 * sector) finder (s.finding finder) else s
  | .link stack pch lane place finder =>
    let key := pch.val * 65536 + lane
    let s := s.onHbm stack fun h => { h with laneRetry := countOne h.laneRetry key }
    if 16 ≤ (Table.get (s.hbmStacks[stack]).laneRetry key).getD 0 then s.callRepair stack 2 pch.val lane place finder (s.finding finder) else s
  | .flash stack bits => s.onHbf stack.val fun h => { h with curr := h.curr + BitVec.ofNat 32 bits }
  | .table ctx => s.moveTable ctx
  | .pch stack n => s.fencePch stack n
  | .netLane n => { s with netLanes := s.netLanes &&& ~~~(1#8 <<< n.val) }
  | .decLane n => { s with decLanes := s.decLanes &&& ~~~(1#32 <<< n.val) }

/-- Every core's started commands. -/
def State.allStarted (s : State) : List (Fin 256 × Nat) :=
  (List.range 256).flatMap fun i => ((s.core (coreId i)).started).map fun x => (coreId i, x.id)

/-- REPAIR_STEP_START: a repair that is called for begins a step, one at a time on a pseudo-channel and at most 8,400 cycles long;
commands that reach the row or lane stall. (DESIGN CHOICE, log 6; DEDUCED, log 40) -/
def execRepairStepStart (stack : Fin 12) (pch : Fin 32) (res : Fin 3) (unit len : Nat) (s : State) : Host.Outcome State Fault Refusal :=
  .next (
    let h := s.hbmStacks[stack]
    if (Table.get h.steps pch.val).isSome || decide (8400 < len) || !h.wants.contains (res.val, pch.val, unit) then s
    else
      let old := s
      let s := s.onHbm stack fun h => { h with steps := Table.set h.steps pch.val (res.val, unit, s.clock + len) }
      s.allStarted.foldl (fun s p => (State.stallMore old len s p.1 p.2).stallCmd p.1 p.2) s)

/-- The spares and counts after a step: a bank's spare counts once its last row has moved. -/
def Hbm.repaired (h : Hbm) (res unit pch : Nat) : Hbm :=
  let wants := h.wants.filter fun w => w ≠ (res, pch, unit)
  let next (f : (Nat × Nat × Nat) × Nat × Nat) : (Nat × Nat × Nat) × Nat × Nat := if f.1 = (res, pch, unit) then ((1, pch, unit + 1), f.2) else f
  if res = 1 ∧ unit % 16384 ≠ 16383 then { h with wants := wants ++ [(1, pch, unit + 1)], finders := h.finders.map next }
  else
    let h := { h with wants := wants, finders := h.finders.filter fun f => f.1 ≠ (res, pch, unit) }
    if res = 0 then { h with rows := h.rows - 1, bankRows := countOne h.bankRows (pch * 64 + unit / 16384) }
    else if res = 1 then { h with banks := h.banks - 1 }
    else { h with lanes := h.lanes - 1 }

/-- A stalled command goes on when no row that it reaches is under repair any more. -/
def State.unstall (s : State) (c : Fin 256) (id : Nat) : State :=
  match (s.core c).cmd id with
  | some x => match x.prog.stall with
    | some (_, left) =>
      if !(s.stepsMet c x).isEmpty then s
      else s.onCmd c id fun y => { y with prog := { y.prog with stall := none, due := some (s.clock + left) } }
    | none => s
  | none => s

/-- REPAIR_STEP_END: the eighth row of a bank in a window calls for the bank's repair, on behalf of the command that found the row (22 R390).
(DEDUCED, log 40) -/
def execRepairStepEnd (stack : Fin 12) (pch : Fin 32) (s : State) : Host.Outcome State Fault Refusal :=
  .next (match Table.get (s.hbmStacks[stack]).steps pch.val with
    | none => s
    | some (res, unit, t) =>
      if s.clock < t then s
      else
        let found := ((s.hbmStacks[stack]).finders.find? fun f => f.1 = (res, pch.val, unit)).map Prod.snd
        let s := s.onHbm stack fun h => { h.repaired res unit pch.val with steps := Table.erase h.steps pch.val }
        let rows := (Table.get (s.hbmStacks[stack]).bankRows (pch.val * 64 + unit / 16384)).getD 0
        let s := if res = 0 ∧ 8 ≤ rows then s.callRepair stack 1 pch.val (unit / 16384 * 16384)
            ((stack.val * 32768 + pch.val * 1024) * 2 ^ 21 + unit * 2048) ((found.map Prod.fst).getD 0) (found.bind s.finder) else s
        s.allStarted.foldl (fun s p => s.unstall p.1 p.2) s)

/-! ### Page mappings and retirement (11 R236, R237, 22 R397 to R399) -/

/-- The cut that a RETIREMENT_CUT carries out. -/
def Cut.of (k : Cut) (ctx : Fin 64) (va : BitVec 40) (res : BitVec 2) (stack : Fin 12) (finder : Nat) : Bool :=
  k.ctx = ctx.val && k.page = some (va.toNat / 2 ^ 21) && k.res = res && k.stack = stack && k.finder = finder

/-- The cuts whose finding command has completed take their cycle (23 R400). -/
def State.ripen (s : State) : State :=
  let gone (k : Cut) : Bool := match k.cmd with
    | some (c, id) => ((s.core (coreId c)).cmd id).isNone
    | none => true
  { s with cuts := s.cuts.map fun k => if k.at_.isNone && gone k then { k with at_ := some (s.clock + k.wait) } else k }

/-- A cut whose cycle has come. -/
def Cut.ripe (k : Cut) (clock : Nat) : Bool := k.at_.any fun t => decide (t ≤ clock)

/-- The frames that the Winder holds itself and whose cut has come are relocated (22 R398). -/
def State.moveOwns (s : State) : State :=
  let l := s.cuts.filter fun k => k.page.isNone && k.ripe s.clock
  l.foldl (fun s k => s.moveOwn k.ctx k.frame) { s with cuts := s.cuts.filter fun k => !(k.page.isNone && k.ripe s.clock) }

/-- RETIREMENT_CUT: the page's entry takes RET and loses W at this cycle; the report follows within 2,048 cycles. It carries out a retirement
that R397 calls for, or one on the host's request (RES 3). (DEDUCED, log 40) -/
def execRetirementCut (ctx : Fin 64) (va : BitVec 40) (res : BitVec 2) (stack : Fin 12) (finder : Nat) (s : State) :
    Host.Outcome State Fault Refusal :=
  .next (match Table.get s.ctxs ctx.val with
    | none => s
    | some x =>
      let page := va.toNat / 2 ^ 21
      let e := x.page page
      let now (k : Cut) : Bool := k.of ctx va res stack finder && k.ripe s.clock
      let due := s.cuts.any now
      let s := { s with cuts := s.cuts.filter fun k => !now k }
      if !(due || res = 3) || e.toNat % 2 = 0 || e.getLsbD 2 then s
      else
        if x.owned page then s.relocate ctx.val page
        else
          let (n, s) := s.choose 2047
          let (c, u, pc) := match finderOf finder with | some (c, u, pc) => (c.val, u, pc) | none => (255, 255, 0)
          let r : Retired := ⟨s.cycle, BitVec.ofNat 40 (page * 2 ^ 21), res, stack.val, c, u, pc, s.clock + 1 + n⟩
          let s := { s with dead := setInsert s.dead (e.toNat / 2 ^ 21 % 2 ^ 19) }
          s.onCtx ctx.val fun y => { y.setPage page ((e ||| 4) &&& ~~~2) with retired := y.retired ++ [r] })

/-- A retirement-list entry (22 R399). -/
def Retired.bytes (r : Retired) : List Byte :=
  natLe 8 r.cyc.toNat ++ natLe 8 r.va.toNat ++ [r.res.setWidth 8, BitVec.ofNat 8 r.stack, BitVec.ofNat 8 r.core, BitVec.ofNat 8 r.unit] ++
    natLe 2 r.pc.toNat ++ natLe 10 0

/-- Bytes that the Winder writes into a context's HBM. -/
def State.winderWrite (s : State) (ctx va : Nat) (bs : List Byte) : State :=
  match Table.get s.ctxs ctx with
  | none => s
  | some x => s.hbmWrite (bs.zipIdx.filterMap fun (b, i) => match x.translate (va + i) false with
      | .ok a => some (a, b)
      | .error _ => none) []

/-- RETIREMENT_REPORT: the oldest retirement's entry, then COUNT, then the RETIRE event. (DEDUCED, log 40) -/
def execRetirementReport (ctx : Fin 64) (s : State) : Host.Outcome State Fault Refusal :=
  .next (match Table.get s.ctxs ctx.val with
    | none => s
    | some x => match x.retired with
      | [] => s
      | r :: rest =>
        if s.clock < r.at_ || s.vaStalled x (x.d 0xD8 8) then s
        else
          let va := x.d 0xD8 8
          let count := match s.hbmRead ctx.val va 8 with | .ok (bs, _) => leNat bs | .error _ => 0
          let s := (s.winderWrite ctx.val (va + 64 + 32 * (count % 64)) r.bytes).winderWrite ctx.val va (natLe 8 (count + 1))
          let s := s.onCtx ctx.val fun y => { y with retired := rest }
          s.hold ctx.val ⟨0, 34, 0, BitVec.ofNat 8 r.core, 0, r.va.setWidth 64, r.res.setWidth 64, none, false⟩)

/-! ### Structural tests (22 R391 to R393) -/

/-- A unit by its number: a core, or from 256 on a face. -/
def unitOf (u : Fin 320) : Sum (Fin 256) (Fin 64) := if u.val < 256 then .inl (coreId u.val) else .inr (Fin.ofNat 64 (u.val - 256))

/-- A scheduled test may start: the core is idle, or the face has no lease. A later halving of the score does not unschedule it. -/
def State.testReady (s : State) (u : Fin 320) : Bool :=
  match unitOf u with
  | .inl c => let k := s.core c
    k.testDue && k.testing.isNone && k.isHalted && k.run.isNone
  | .inr k => let f := s.faces[k]; f.testDue && f.testing.isNone && f.lease.isNone

/-- TARGETED_TEST_START. (DEDUCED, log 40) -/
def execTargetedTestStart (u : Fin 320) (s : State) : Host.Outcome State Fault Refusal :=
  .next (if !s.testReady u then s
    else match unitOf u with
      | .inl c => s.onCore c fun k => { k with testing := some s.clock, testDue := false }
      | .inr k => s.onFace k fun f => { f with testing := some s.clock, testDue := false })

/-- A test has run for its 2^20 cycles, its longest time (22 R392). -/
def State.testOver (s : State) (u : Fin 320) : Bool :=
  let (c, on) := match unitOf u with | .inl c => (c.val, (s.core c).testing) | .inr k => (4 * k.val, (s.faces[k]).testing)
  on.any fun t => s.since c t (2 ^ 20)

/-- The cluster of a unit. -/
def unitCluster (u : Fin 320) : Fin 64 := match unitOf u with | .inl c => clusterOf c.val | .inr k => k

/-- TARGETED_TEST_END: a pass clears the score, a fail quarantines the cluster, whose planes stay invalid. (DEDUCED, log 40) -/
def execTargetedTestEnd (u : Fin 320) (pass : BitVec 1) (s : State) : Host.Outcome State Fault Refusal :=
  .next (
    let on := match unitOf u with | .inl c => (s.core c).testing | .inr k => (s.faces[k]).testing
    if on.isNone then s
    else
      let score (n : BitVec 8) : BitVec 8 := if pass = 1 then 0 else n
      let s := match unitOf u with
        | .inl c => s.onCore c fun k => { k with testing := none, suspicion := score k.suspicion }
        | .inr k => s.onFace k fun f => { f with testing := none, suspicion := score f.suspicion }
      if pass = 1 then s
      else s.onFace (unitCluster u) fun f =>
        { f with quarantined := true, planes := f.planes.map fun p => { p with valid := false } })

/-- Nothing runs on a cluster's cores or is bound to them, a pre-empted record included (22 R393). -/
def State.clusterFree (s : State) (k : Fin 64) : Bool :=
  ((clusterCores k).all fun c => (s.core c).run.isNone) && !s.bound k &&
    !((s.dies[dieOf (4 * k.val)]).tasks.any fun t => match t.state with
      | .preempted c => decide (c / 4 = k.val)
      | .first c => decide (c / 4 = k.val)
      | _ => false)

/-- CLUSTER_FENCE: the capability register counts the quarantined cluster out. -/
def execClusterFence (k : Fin 64) (s : State) : Host.Outcome State Fault Refusal :=
  .next (if (s.faces[k]).quarantined && s.clusterFree k then { s with clusters := s.clusters &&& ~~~(1#64 <<< k.val) } else s)

end Sys2Proof.Machine
end

