-- ==== Sys2Proof/Machine/Names.lean ====
section
/-! DEFINITION. What the Winder's loader reads off the words of an image (02 R58): the vector and tensor-map registers that an
instruction names. -/

namespace Sys2Proof.Machine

/-- The vector registers that an instruction names. -/
def vregs : Instr → List (BitVec 4)
  | .vadd _ v a b _ _ _ => [v, a, b]
  | .vsub _ v a b _ _ _ => [v, a, b]
  | .vmul _ v a b _ _ _ => [v, a, b]
  | .vfma _ v a b _ _ _ => [v, a, b]
  | .vmin _ v a b _ _ => [v, a, b]
  | .vmax _ v a b _ _ => [v, a, b]
  | .vabs _ v a _ _ _ => [v, a]
  | .vneg _ v a _ _ _ => [v, a]
  | .vand _ v a b _ _ => [v, a, b]
  | .vor _ v a b _ _ => [v, a, b]
  | .vxor _ v a b _ _ => [v, a, b]
  | .vshl _ v a b _ _ => [v, a, b]
  | .vshr _ v a b _ _ => [v, a, b]
  | .vsar _ v a b _ _ => [v, a, b]
  | .vcmpEq _ _ a b _ _ => [a, b]
  | .vcmpNe _ _ a b _ _ => [a, b]
  | .vcmpLt _ _ a b _ _ => [a, b]
  | .vcmpLtu _ _ a b _ _ => [a, b]
  | .vcmpGe _ _ a b _ _ => [a, b]
  | .vcmpGeu _ _ a b _ _ => [a, b]
  | .vsel _ v a b _ _ => [v, a, b]
  | .vcvt _ v a _ _ _ _ => [v, a]
  | .vrot _ v a _ _ _ _ => [v, a]
  | .virot _ v a _ _ => [v, a]
  | .vredSum _ v a _ _ _ _ => [v, a]
  | .vredMax _ v a _ _ _ => [v, a]
  | .vredMin _ v a _ _ _ => [v, a]
  | .vtrn _ v a _ _ => [v, a]
  | .vaddScalar _ v a _ _ _ _ => [v, a]
  | .vsubScalar _ v a _ _ _ _ => [v, a]
  | .vmulScalar _ v a _ _ _ _ => [v, a]
  | .vfmaScalar _ v a _ _ _ _ => [v, a]
  | .vminScalar _ v a _ _ _ => [v, a]
  | .vmaxScalar _ v a _ _ _ => [v, a]
  | .vandScalar _ v a _ _ _ => [v, a]
  | .vorScalar _ v a _ _ _ => [v, a]
  | .vxorScalar _ v a _ _ _ => [v, a]
  | .vshlScalar _ v a _ _ _ => [v, a]
  | .vshrScalar _ v a _ _ _ => [v, a]
  | .vsarScalar _ v a _ _ _ => [v, a]
  | .vcmpEqScalar _ _ a _ _ _ => [a]
  | .vcmpNeScalar _ _ a _ _ _ => [a]
  | .vcmpLtScalar _ _ a _ _ _ => [a]
  | .vcmpLtuScalar _ _ a _ _ _ => [a]
  | .vcmpGeScalar _ _ a _ _ _ => [a]
  | .vcmpGeuScalar _ _ a _ _ _ => [a]
  | .vbcast _ v a _ _ _ f => if f = 1 then [v] else [v, a]
  | .viota _ v _ _ _ _ => [v]
  | .vext _ _ a _ _ => [a]
  | .vins _ v _ => [v]
  | .fexp2 _ v a _ _ => [v, a]
  | .flog2 _ v a _ _ => [v, a]
  | .frcp _ v a _ _ => [v, a]
  | .frsq _ v a _ _ => [v, a]
  | .fsigm _ v a _ _ => [v, a]
  | .ftanh _ v a _ _ => [v, a]
  | .ferf _ v a _ _ => [v, a]
  | .ftopk _ v a _ _ _ _ => [v, a]
  | .fhkey _ _ a _ _ => [a]
  | .vld _ v _ _ _ _ _ => [v]
  | .vst _ v _ _ _ _ _ => [v]
  | _ => []

/-- The tensor-map registers that an instruction names. -/
def tmaps : Instr → List (BitVec 4)
  | .vld _ _ m _ _ _ _ => [m]
  | .vst _ _ m _ _ _ _ => [m]
  | .tmld _ m _ _ _ => [m]
  | .tmst _ m _ _ _ => [m]
  | .tmset _ m _ _ => [m]
  | .tmsetClear _ m => [m]
  | .tmadd _ m _ _ => [m]
  | .mldw _ a _ _ _ _ => [a]
  | .mrun _ a _ _ _ _ _ => [a]
  | .mdrain _ a _ _ _ _ => [a]
  | .copy _ a b _ => [a, b]
  | .copy2 _ a b _ _ => [a, b]
  | .gath _ a b _ => [a, b]
  | .mcast _ a b _ _ _ => [a, b]
  | .subs _ a b _ _ => [a, b]
  | .unsub _ a _ => [a]
  | .rfree _ a _ _ => [a]
  | .prosp _ a _ _ _ => [a]
  | _ => []

/-- An instruction that needs the accumulator quarter declared. -/
def needsQuarter : Instr → Bool
  | .mrun _ _ _ _ _ _ _ => true
  | .mdrain _ _ _ _ _ _ => true
  | .mclr _ _ _ => true
  | _ => false

/-- LOOPR. -/
def isLoopr : Instr → Bool
  | .loopr _ _ _ _ => true
  | _ => false

end Sys2Proof.Machine
end

