-- ==== Sys2Proof/Machine/ImageCheck.lean ====
section
/-! DEFINITION. What the Winder checks of a kernel image before a launch (02 R54 to R58, 06 R118, 10 R210, 11 R220, 15 R307) and of
a model image before an installation (15 R300 to R302). -/

namespace Sys2Proof.Machine

/-- The context's key (24 R414). -/
def Ctx.key (x : Ctx) : List Byte := (x.desc.drop 0x40).take 133

/-- Bytes that must be zero. -/
def zeros (bs : List Byte) (off n : Nat) : Bool := ((bs.drop off).take n).all fun b => b = 0

/-- The digest and the signature of an image over the bytes that they cover. -/
def signed (key covered digest r s : List Byte) : Bool :=
  sha512 covered = digest && ecdsaOk key covered (beNat r) (beNat s)

/-! ### Kernel images -/

/-- The bytes that the digest of a kernel image covers (02 R55). -/
def imgCovered (image : List Byte) : List Byte :=
  image.take 0x3C ++ (image.drop 0x100).take (hdr image 0x30 4 - 0x100)

/-- The digest and signature of a kernel image hold. -/
def imgSigned (key image : List Byte) : Bool :=
  signed key (imgCovered image) ((image.drop 0x3C).take 64) ((image.drop 0x7C).take 66) ((image.drop 0xBE).take 66)

/-- The segments of an image: image offset, length in bundles. -/
def imgSegs (image : List Byte) : List (Nat × Nat) :=
  (List.range (hdr image 0x13 1)).map fun i => let o := hdr image 0x1C 4 + 16 * i; (hdr image o 4, hdr image (o + 4) 2)

/-- Reserved bytes of the header, the bank entries, the data records and the segment table. -/
def imgReserved (image : List Byte) : Bool :=
  let decl := hdr image 0x18 4
  decide (hdr image 0x05 1 < 4) && zeros image 0x34 8 && (hdr image 0x13 1 ≠ 0 || hdr image 0x1C 4 = 0) &&
    (let n := min 8 (hdr image 0x12 1); zeros image (0x20 + 2 * n) (16 - 2 * n)) &&
    ((List.range 16).all fun b => zeros image (decl + 16 * b + 4) 4) &&
    ((List.range (hdr image 0x13 1)).all fun i =>
      let o := hdr image 0x1C 4 + 16 * i
      zeros image (o + 7) 1 && zeros image (o + 12) 4 && decide (hdr image (o + 6) 1 < 2)) &&
    dataZero image (image.length / 16 + 1) (imgDataAt image)
where
  dataZero (image : List Byte) : Nat → Nat → Bool
    | 0, _ => true
    | fuel + 1, o => zeros image (o + 1) 1 && (hdr image (o + 2) 2 = 0 || dataZero image fuel (o + 8 + (hdr image (o + 2) 2 + 7) / 8 * 8))

/-- The declared counts are within their partitions (02 R58, 10 R206); a code or segment length outside R57's range is rejected too.
(DESIGN CHOICE, log 28) -/
def imgCounts (x : Ctx) (image : List Byte) : Bool :=
  let code := hdr image 0x06 2
  decide (1 ≤ code ∧ code ≤ 8192 ∧ hdr image 0x08 2 < code) && decide (hdr image 0x14 4 ≤ 65536) && decide (hdr image 0x10 1 ≤ 4) &&
    decide (hdr image 0x0E 1 ≤ x.d 0x20 2 ∧ hdr image 0x0F 1 ≤ x.d 0x22 2) &&
    (imgSegs image).all fun g => decide (1 ≤ g.2 ∧ g.2 ≤ 4096)

/-- The words of code at an image offset, with their slots. -/
def codeWords (image : List Byte) (off bundles : Nat) : List (Nat × Nat) :=
  (List.range (8 * bundles)).map fun i => (i % 8, hdr image (off + 4 * i) 4)

/-- A word by its opcode alone, whatever its reserved fields hold. -/
def rawSlot (c : SlotClass) (w : Nat) : Except DecodeErr Instr :=
  match c with
  | .sa => rawScalar w
  | .sb => if saOnly (fld w 25 7) then .error .illegal else rawScalar w
  | .vector => rawVector w
  | .fn => rawFn w
  | .mem => rawMem w

/-- The word with every bit cleared that its opcode reserves. -/
def unreserved (c : SlotClass) (w : Nat) : Nat :=
  (List.range 25).foldl (fun w b => match rawSlot c (fld w 25 7 * 2 ^ 25 + 2 ^ b) with
    | .error .reserved => w - fld w b 1 * 2 ^ b
    | _ => w) w

/-- The instruction that a word of code names: only an unassigned opcode names none (02 R58). -/
def wordInstr (c : SlotClass) (w : Nat) : Except DecodeErr Instr :=
  match rawSlot c w with
  | .error .reserved => rawSlot c (unreserved c w)
  | r => r

/-- A word names only declared registers, and the quarter only when it is declared. -/
def wordOk (image : List Byte) (slot w : Nat) : Bool :=
  match wordInstr (slotClassOf slot) w with
  | .error _ => true
  | .ok i =>
    (vregs i).all (fun v => hdr image 0x0A 2 / 2 ^ v.toNat % 2 = 1) && (tmaps i).all (fun m => hdr image 0x0C 2 / 2 ^ m.toNat % 2 = 1) &&
      (!needsQuarter i || hdr image 0x05 1 % 2 = 1) && !(isLoopr i && decide (slot = 0) && hdr image 0x14 4 = 0)

/-- Every word of the image, resident or in a segment. -/
def imgWords (image : List Byte) : Bool :=
  (codeWords image 0x100 (hdr image 0x06 2)).all (fun w => wordOk image w.1 w.2) &&
    (imgSegs image).all fun g => (codeWords image g.1 g.2).all fun w => wordOk image w.1 w.2

/-- The bank declarations (02 R58). -/
def imgBanks (image : List Byte) : Bool :=
  (List.range 16).all fun b =>
    decide (imgBank image b ≤ 196608) && decide (imgBank image b % 64 = 0) && decide ((imgBankFmt image b).toNat < 2 ^ 40) &&
      bankFmtOk (imgBankFmt image b)

/-- Edges left after those that no edge leads to are taken away, again and again. -/
def peel : Nat → List (Nat × Nat) → List (Nat × Nat)
  | 0, l => l
  | n + 1, l => peel n (l.filter fun e => l.any fun f => f.2 = e.1)

/-- The wait graph (10 R210). -/
def imgGraph (image : List Byte) : Bool :=
  let l := imgEdges image
  (l.all fun e => decide (e.1 < hdr image 0x0E 1 ∧ e.2 < hdr image 0x0E 1)) &&
    (peel l.length (l.filter fun e => e.1 ≠ e.2)).isEmpty

/-! ### Handle declarations (11 R219 to R221, 06 R118, 15 R307) -/

/-- The reserved bits and values of an entry, and the state that its kind is declared in. -/
def entryReserved (e : BitVec 256) : Bool :=
  decide (Ent.field e 216 8 = 0 ∧ Ent.field e 143 1 = 0 ∧ Ent.field e 139 3 < 4 ∧ Ent.pin e = 0 ∧ Ent.kind e < 4 ∧ Ent.space e < 7) &&
    decide (Ent.state e = if Ent.space e = 0 then 0 else if Ent.kind e = 1 ∨ Ent.kind e = 2 then 0 else 2) &&
    (Ent.kind e = 2 || Ent.auxw e = 0) &&
    (match Ent.space e with
     | 1 => decide (Ent.field e 204 12 = 0)
     | 4 => decide (Ent.field e 212 4 = 0)
     | 5 => decide (Ent.field e 206 10 = 0)
     | 6 => decide (Ent.field e 206 10 = 0)
     | _ => decide (Ent.field e 200 16 = 0)) &&
    (if Ent.space e = 1 then decide (Ent.field e 160 40 = 0)
     else fmtLegal (Ent.fmt e).toNat (Ent.aux e).toNat && tagOk (Ent.rblk e).toNat (Ent.rotid e).toNat)

/-- The range, the kind and RDONLY that the space allows. -/
def State.entryRange (s : State) (ctx : Nat) (x : Ctx) (image : List Byte) (cores : BitVec 256) (e : BitVec 256) : Bool :=
  let k := Ent.kind e
  let last := Ent.base e + Ent.len e
  let plain := k = 0
  let win (net : Bool) : Bool := plain && decide (last ≤ ((s.window ctx net (Ent.window e)).map Window.len).getD 0)
  (Ent.space e = 0 || decide (1 ≤ Ent.len e)) &&
    match Ent.space e with
    | 0 => true
    | 1 => k ≠ 2 && decide (last ≤ imgBank image (Ent.bank e))
    | 2 => decide (last ≤ 2 ^ 40)
    | 3 => plain && Ent.ronly e && decide (last ≤ x.d 0x30 8)
    | 4 => plain && decide (last ≤ imgBank image (Ent.rbank e)) && cores.getLsbD (Ent.rcore e)
    | 5 => win false
    | _ => win true

/-- A sign-table declaration; no data record reaches into a local copy. -/
def entrySigns (x : Ctx) (image : List Byte) (e : BitVec 256) : Bool :=
  Ent.kind e ≠ 3 ||
    (Ent.ronly e && match Ent.space e with
      | 2 => decide (Ent.base e = x.d 0xC8 8 ∧ Ent.len e ≤ 2 ^ 21)
      | 1 => decide (Ent.len e ≤ 2 ^ 21) && (imgData image).all fun d =>
          d.1 ≠ Ent.bank e || decide (d.2.1 + d.2.2.length ≤ Ent.base e ∨ Ent.base e + Ent.len e ≤ d.2.1)
      | _ => false)

/-- A weight-handle declaration names an installed object as it is. -/
def entryWeights (x : Ctx) (e : BitVec 256) : Bool :=
  Ent.kind e ≠ 2 || (decide (Ent.len e ≤ x.d 0x28 8) && x.rebindOk e (Ent.auxw e))

/-- Every declaration of an image. -/
def State.imgEntries (s : State) (ctx : Nat) (x : Ctx) (image : List Byte) (cores : BitVec 256) : Bool :=
  (imgHandles image).all fun h =>
    entryReserved h.2 && s.entryRange ctx x image cores h.2 && entrySigns x image h.2 && entryWeights x h.2

/-- The loader accepts an image for a launch set (02 R58); one whose IMGLEN is below the header's 0x100 bytes it rejects, which R58 does not list.
(DEDUCED, log 39; DESIGN CHOICE, log 28) -/
def State.imageOk (s : State) (ctx : Nat) (x : Ctx) (image : List Byte) (cores : BitVec 256) : Bool :=
  decide (hdr image 0 4 = 0x4B48524B ∧ hdr image 4 1 = 1) && decide (0x100 ≤ hdr image 0x30 4 ∧ hdr image 0x30 4 ≤ image.length) &&
    imgReserved image && imgSigned x.key image && imgCounts x image && imgBanks image && imgGraph image &&
    s.imgEntries ctx x image cores && imgWords image

/-! ### Model images (15 R300 to R302) -/

/-- The objects of a model image: image offset and the object, its page not yet known. -/
def modelObjs (image : List Byte) : List (Nat × Obj) :=
  (List.range (hdr image 6 2)).map fun i =>
    let o := 0x200 + 32 * i
    (hdr image o 8, { page := 0, len := hdr image (o + 8) 8, fmt := BitVec.ofNat 8 (hdr image (o + 16) 1)
                      aux := BitVec.ofNat 3 (hdr image (o + 17) 1), ssrc := BitVec.ofNat 2 (hdr image (o + 19) 1)
                      tag := ⟨BitVec.ofNat 3 (hdr image (o + 18) 1), BitVec.ofNat 16 (hdr image (o + 20) 2)⟩ })

/-- The sign entries of a model image: identifier and the 32 bytes. -/
def modelSigns (image : List Byte) : List (Nat × List Byte) :=
  (List.range (hdr image 8 2)).map fun i =>
    let o := 0x200 + 32 * hdr image 6 2 + 32 * i
    (hdr image (o + 16) 2, (image.drop o).take 32)

/-- The reserved bytes of the header and the tables. -/
def modelReserved (image : List Byte) : Bool :=
  zeros image 5 1 && zeros image 0x0A 6 && zeros image 0x20 32 && zeros image 0x104 252 &&
    ((List.range (hdr image 6 2)).all fun i =>
      let o := 0x200 + 32 * i
      decide (hdr image (o + 17) 1 < 8 ∧ hdr image (o + 18) 1 < 8 ∧ hdr image (o + 19) 1 < 4) && zeros image (o + 22) 10) &&
    (modelSigns image).all fun e => decide (leNat ((e.2.drop 18).take 1) < 2) && zeros e.2 19 13

/-- Objects lie in the image, apart from the tables and from one another, in formats that are assigned. -/
def modelObjects (image : List Byte) : Bool :=
  let l := modelObjs image
  let tables := 0x200 + 32 * (hdr image 6 2 + hdr image 8 2)
  decide (1 ≤ l.length) && (l.all fun o =>
    decide (o.1 % 16384 = 0 ∧ tables ≤ o.1 ∧ 1 ≤ o.2.len ∧ o.2.len ≤ 2 ^ 34 ∧ o.1 + o.2.len ≤ hdr image 0x10 8) &&
      fmtLegal o.2.fmt.toNat o.2.aux.toNat && tagOk o.2.tag.code.toNat o.2.tag.id.toNat) &&
    decide (l.Pairwise fun a b => a.1 + a.2.len ≤ b.1 ∨ b.1 + b.2.len ≤ a.1)

/-- A sign-table entry is valid (06 R118). -/
def signValid (e : List Byte) : Bool := decide (leNat ((e.drop 18).take 1) % 2 = 1)

/-- The sign entries are valid and agree with the context's table, whose entry n is given. -/
def modelSignsOk (table : Nat → List Byte) (image : List Byte) : Bool :=
  (modelSigns image).all fun e =>
    let old := table e.1
    leNat ((e.2.drop 18).take 1) = 1 && e.1 ≠ 0 && (!signValid old || old.take 16 = e.2.take 16)

/-- The Winder accepts a model image, room apart. -/
def modelOk (x : Ctx) (table : Nat → List Byte) (image : List Byte) : Bool :=
  decide (hdr image 0 4 = 0x4D48524B ∧ hdr image 4 1 = 1) && decide (0x200 ≤ hdr image 0x10 8 ∧ hdr image 0x10 8 ≤ image.length) &&
    modelReserved image &&
    signed x.key (image.take 0x40 ++ (image.drop 0x200).take (hdr image 0x10 8 - 0x200)) ((image.drop 0x40).take 64)
      ((image.drop 0x80).take 66) ((image.drop 0xC2).take 66) &&
    modelObjects image && modelSignsOk table image && !(x.models.any fun m => m.id = BitVec.ofNat 64 (hdr image 0x18 8))

end Sys2Proof.Machine
end

