-- ==== Sys2Proof/Machine/Jpeg.lean ====
section
/-! DEFINITION. The decode units' images (15 R318 to R325): ITU-T T.81, which the spec names, within its subset; samples, colours,
the patch grid and area averages exactly as the spec gives them. -/

namespace Sys2Proof.Machine

/-! ### Frames, scans and tables -/

/-- A Huffman table: how many codes of each length from 1 on, and the values in code order. -/
structure Huff where
  counts : List Nat
  vals : Array Nat

/-- A component of a frame: identifier, sampling factors, quantisation table. -/
structure JComp where
  id : Nat
  h : Nat
  v : Nat
  tq : Nat

/-- A frame header: progressive or not, size, components. -/
structure Frame where
  prog : Bool
  w : Nat
  h : Nat
  comps : List JComp

/-- Entropy-coded data between two restart markers: where they begin and end in the image, the bytes without their stuffing, the number of the
marker that ends them. -/
structure Piece where
  from_ : Nat
  upto : Nat
  data : List Nat
  marker : Option Nat

/-- A scan: its components by number, with their DC and AC tables, the quantisation tables, its spectral band and bit positions,
the restart interval, and its entropy-coded data. -/
structure Scan where
  comps : List (Nat × Option Huff × Option Huff)
  quant : List (Nat × List Nat)
  ss : Nat
  se : Nat
  ah : Nat
  al : Nat
  ri : Nat
  pieces : List Piece

/-- What parsing has met so far. -/
structure Parse where
  frame : Option Frame := none
  quant : List (Nat × List Nat) := []
  dc : List (Nat × Huff) := []
  ac : List (Nat × Huff) := []
  ri : Nat := 0
  scans : List Scan := []

/-- The latest value under a number. -/
def lookup {α : Type} (l : List (Nat × α)) (n : Nat) : Option α := (l.find? fun p => p.1 = n).map Prod.snd

/-- A big-endian 16-bit number. -/
def be16 (b : Array Nat) (i : Nat) : Nat := b.getD i 0 * 256 + b.getD (i + 1) 0

/-- The bytes of an array from i, n of them. -/
def slice (b : Array Nat) (i n : Nat) : List Nat := (List.range n).map fun k => b.getD (i + k) 0

/-- Quantisation tables of one segment: 8-bit elements, none zero. (DEDUCED, log 34) -/
def parseDqt (b : Array Nat) : Nat → Nat → Nat → Parse → Except Nat Parse
  | 0, _, _, _ => .error 17
  | fuel + 1, i, stop, p =>
    if i = stop then .ok p
    else if stop < i + 65 then .error 17
    else
      let t := b.getD i 0
      let q := slice b (i + 1) 64
      if 3 < t ∨ q.any (· = 0) then .error 17 else parseDqt b fuel (i + 65) stop { p with quant := (t, q) :: p.quant }

/-- The code lengths leave every code, and the code of all ones is none of them. -/
def kraft (counts : List Nat) : Bool :=
  decide ((counts.zipIdx.map fun x => x.1 * 2 ^ (15 - x.2)).foldl (· + ·) 0 < 2 ^ 16)

/-- Huffman tables of one segment. -/
def parseDht (b : Array Nat) : Nat → Nat → Nat → Parse → Except Nat Parse
  | 0, _, _, _ => .error 17
  | fuel + 1, i, stop, p =>
    if i = stop then .ok p
    else if stop < i + 17 then .error 17
    else
      let t := b.getD i 0
      let counts := slice b (i + 1) 16
      let n := counts.foldl (· + ·) 0
      if 256 < n ∨ stop < i + 17 + n ∨ 1 < t / 16 ∨ 3 < t % 16 ∨ !kraft counts then .error 17
      else
        let h : Huff := ⟨counts, (slice b (i + 17) n).toArray⟩
        parseDht b fuel (i + 17 + n) stop (if t / 16 = 0 then { p with dc := (t % 16, h) :: p.dc } else { p with ac := (t % 16, h) :: p.ac })

/-- The sampling combinations of 15 R318. -/
def samplingOk (l : List (Nat × Nat)) : Bool :=
  l.all (fun x => x = (1, 1)) || l = [(2, 1), (1, 1), (1, 1)] || l = [(2, 2), (1, 1), (1, 1)]

/-- A frame header. (DEDUCED, log 34) -/
def parseSof (b : Array Nat) (i stop : Nat) (prog : Bool) (p : Parse) : Except Nat Parse :=
  let n := b.getD (i + 5) 0
  if p.frame.isSome ∨ stop < i + 6 ∨ stop ≠ i + 6 + 3 * n then .error 17
  else
    let comps := (List.range n).map fun k =>
      ({ id := b.getD (i + 6 + 3 * k) 0, h := b.getD (i + 7 + 3 * k) 0 / 16, v := b.getD (i + 7 + 3 * k) 0 % 16, tq := b.getD (i + 8 + 3 * k) 0 } : JComp)
    let h := be16 b (i + 1)
    let w := be16 b (i + 3)
    if b.getD i 0 ≠ 8 ∨ (n ≠ 1 ∧ n ≠ 3) ∨ !samplingOk (comps.map fun c => (c.h, c.v)) ∨ h = 0 ∨ w = 0 ∨ 16384 < h ∨ 16384 < w ∨
        (prog ∧ 16777216 < w * h) then .error 16
    else if comps.any (fun c => decide (3 < c.tq)) ∨ ((comps.map JComp.id).eraseDups).length ≠ n then .error 17
    else .ok { p with frame := some ⟨prog, w, h, comps⟩ }

/-- Entropy-coded data from i: pieces without their stuffing, each up to and with a restart marker; the last ends before another marker or
with the data. The rest of the parse begins where the pieces end. -/
def pieces (b : Array Nat) : Nat → Nat → Nat → List Nat → List Piece × Nat
  | 0, i, from_, acc => ([⟨from_, i, acc.reverse, none⟩], i)
  | fuel + 1, i, from_, acc =>
    if b.size ≤ i then ([⟨from_, i, acc.reverse, none⟩], i)
    else
      let x := b.getD i 0
      if x ≠ 255 then pieces b fuel (i + 1) from_ (x :: acc)
      else
        let y := b.getD (i + 1) 255
        if b.size ≤ i + 1 then ([⟨from_, i + 1, acc.reverse, none⟩], i + 1)
        else if y = 0 then pieces b fuel (i + 2) from_ (255 :: acc)
        else if y = 255 then pieces b fuel (i + 1) from_ acc
        else if 0xD0 ≤ y ∧ y ≤ 0xD7 then
          let (l, j) := pieces b fuel (i + 2) (i + 2) []
          (⟨from_, i + 2, acc.reverse, some (y - 0xD0)⟩ :: l, j)
        else ([⟨from_, i, acc.reverse, none⟩], i)

/-- A scan header, with the tables that its components use. -/
def parseSos (b : Array Nat) (i stop : Nat) (p : Parse) : Except Nat (Parse × Nat) :=
  match p.frame with
  | none => .error 17
  | some f =>
    let n := b.getD i 0
    if stop ≠ i + 4 + 2 * n ∨ n = 0 ∨ f.comps.length < n then .error 17
    else
      let ss := b.getD (i + 1 + 2 * n) 0
      let se := b.getD (i + 2 + 2 * n) 0
      let ah := b.getD (i + 3 + 2 * n) 0 / 16
      let al := b.getD (i + 3 + 2 * n) 0 % 16
      let raw := (List.range n).map fun k => (f.comps.findIdx? fun c => c.id = b.getD (i + 1 + 2 * k) 0, b.getD (i + 2 + 2 * k) 0)
      let comps := raw.filterMap fun x => x.1.map fun c => (c, lookup p.dc (x.2 / 16), lookup p.ac (x.2 % 16))
      let bandOk := if f.prog then (if ss = 0 then se = 0 else ss ≤ se ∧ se ≤ 63 ∧ n = 1) ∧ al ≤ 13 ∧ (ah = 0 ∨ ah = al + 1)
        else ss = 0 ∧ se = 63 ∧ ah = 0 ∧ al = 0
      let needDc := !f.prog || (ss = 0 && ah = 0)
      let needAc := !f.prog || ss ≠ 0
      let tables := comps.all fun c => (!needDc || c.2.1.isSome) && (!needAc || c.2.2.isSome)
      let quant := comps.all fun c => match f.comps[c.1]? with | some x => (lookup p.quant x.tq).isSome | none => false
      let again := !f.prog && comps.any fun c => p.scans.any fun s => s.comps.any fun d => d.1 = c.1
      let rising := (comps.map Prod.fst).Pairwise (· < ·)
      if comps.length ≠ n ∨ ¬ bandOk ∨ !tables ∨ !quant ∨ again ∨ ¬ rising then .error 17
      else
        let (l, j) := pieces b (b.size + 1) stop stop []
        .ok ({ p with scans := p.scans ++ [⟨comps, p.quant, ss, se, ah, al, p.ri, l⟩] }, j)

/-- The marker segments of an image from i on (15 R318, R325: 16 for a feature outside the subset, 17 for a malformed one). -/
def parseMarkers (b : Array Nat) : Nat → Nat → Parse → Except Nat Parse
  | 0, _, _ => .error 17
  | fuel + 1, i, p =>
    if b.size ≤ i then (if p.scans.isEmpty then .error 17 else .ok p)
    else if b.getD i 0 ≠ 255 then .error 17
    else
      let m := b.getD (i + 1) 0
      if m = 255 then parseMarkers b fuel (i + 1) p
      else if m = 0xD9 then (if p.scans.isEmpty then .error 17 else .ok p)
      else
        let stop := i + 2 + be16 b (i + 2)
        let body := i + 4
        if m < 0xC0 ∨ (0xD0 ≤ m ∧ m ≤ 0xD8) ∨ b.size < stop ∨ stop < body then .error 17
        else
          let next (r : Except Nat Parse) : Except Nat Parse := r.bind (parseMarkers b fuel stop)
          if m = 0xC0 ∨ m = 0xC1 then next (parseSof b body stop false p)
          else if m = 0xC2 then next (parseSof b body stop true p)
          else if m = 0xC4 then next (parseDht b (stop + 1) body stop p)
          else if m < 0xD0 ∨ m = 0xDC ∨ m = 0xDE ∨ m = 0xDF then .error 16
          else if m = 0xDA then (parseSos b body stop p).bind fun r => parseMarkers b fuel r.2 r.1
          else if m = 0xDB then next (parseDqt b (stop + 1) body stop p)
          else if m = 0xDD then (if stop ≠ body + 2 then .error 17 else next (.ok { p with ri := be16 b body }))
          else if (0xE0 ≤ m ∧ m ≤ 0xEF) ∨ m = 0xFE then next (.ok p)
          else .error 17

/-- An image parsed: every component has been scanned. (DEDUCED, log 34) -/
def parseImage (b : Array Nat) : Except Nat (Frame × Parse) :=
  if be16 b 0 ≠ 0xFFD8 then .error 17
  else do
    let p ← parseMarkers b (b.size + 1) 2 {}
    match p.frame with
    | none => .error 17
    | some f =>
      if (List.range f.comps.length).all fun c => p.scans.any fun s => s.comps.any fun d => d.1 = c then .ok (f, p) else .error 17

/-! ### Entropy decoding -/

/-- Data read bit by bit, highest first; the codes of 15 R325 for what fails. -/
structure Bits where
  data : Array Nat
  pos : Nat := 0

/-- One bit; 3 at the end of the data. -/
def Bits.bit (b : Bits) : Except Nat (Nat × Bits) :=
  if 8 * b.data.size ≤ b.pos then .error 3
  else .ok (b.data.getD (b.pos / 8) 0 / 2 ^ (7 - b.pos % 8) % 2, { b with pos := b.pos + 1 })

/-- n bits as a number. -/
def Bits.take (b : Bits) : Nat → Nat → Except Nat (Nat × Bits)
  | 0, acc => .ok (acc, b)
  | n + 1, acc => do
    let (x, b) ← b.bit
    b.take n (2 * acc + x)

/-- A value by its code; 1 for a code that is not in the table. -/
def Bits.huff (b : Bits) (vals : Array Nat) : List Nat → Nat → Nat → Nat → Except Nat (Nat × Bits)
  | [], _, _, _ => .error 1
  | n :: r, code, first, index => do
    let (x, b) ← b.bit
    let code := code + x
    if code < first + n then return (vals.getD (index + code - first) 0, b)
    b.huff vals r (2 * code) (2 * (first + n)) (index + n)

/-- A value by a table. -/
def Bits.code (b : Bits) (h : Option Huff) : Except Nat (Nat × Bits) :=
  match h with
  | some t => b.huff t.vals t.counts 0 0 0
  | none => .error 1

/-- The signed value of s additional bits. -/
def extend (v s : Nat) : Int := if s = 0 then 0 else if v < 2 ^ (s - 1) then (v : Int) - 2 ^ s + 1 else v

/-- A block: 64 coefficients in zigzag order. -/
abbrev Block := Array Int

/-- A coefficient put in, its dequantised value checked (15 R325, code 4). -/
def putCoef (q : List Nat) (blk : Block) (k : Nat) (v : Int) : Except Nat Block :=
  let d := v * (q.getD k 1 : Int)
  if d < -32768 ∨ 32767 < d then .error 4 else .ok (blk.setIfInBounds k v)

/-- The AC coefficients of a first pass or of a sequential block, from k to se; the run of end-of-band blocks that begins. -/
def acFirst (h : Option Huff) (q : List Nat) (se al : Nat) (prog : Bool) : Nat → Nat → Bits → Block → Except Nat (Nat × Bits × Block)
  | 0, _, b, blk => .ok (0, b, blk)
  | fuel + 1, k, b, blk =>
    if se < k then .ok (0, b, blk)
    else do
      let (rs, b) ← b.code h
      let r := rs / 16
      let s := rs % 16
      if s = 0 then
        if r = 15 then
          if se < k + 15 then throw 1
          acFirst h q se al prog fuel (k + 16) b blk
        else if prog then
          let (x, b) ← b.take r 0
          return (2 ^ r + x - 1, b, blk)
        else if r = 0 then return (0, b, blk)
        else throw 1
      else
        let k := k + r
        if se < k then throw 1
        let (x, b) ← b.take s 0
        let blk ← putCoef q blk k (extend x s * 2 ^ al)
        acFirst h q se al prog fuel (k + 1) b blk

/-- A correction bit for a coefficient that is not zero. -/
def refineOne (q : List Nat) (al k : Nat) (b : Bits) (blk : Block) : Except Nat (Bits × Block) := do
  let (x, b) ← b.bit
  let c := blk.getD k 0
  if x = 1 ∧ c.natAbs / 2 ^ al % 2 = 0 then
    let blk ← putCoef q blk k (if 0 ≤ c then c + 2 ^ al else c - 2 ^ al)
    return (b, blk)
  return (b, blk)

/-- Correction bits passed over from k on until `zeros` zero coefficients have been passed: where that ends. -/
def refineRun (q : List Nat) (se al : Nat) : Nat → Nat → Nat → Bits → Block → Except Nat (Nat × Bits × Block)
  | 0, k, _, b, blk => .ok (k, b, blk)
  | fuel + 1, k, zeros, b, blk =>
    if se < k then .ok (k, b, blk)
    else if blk.getD k 0 = 0 then (if zeros = 0 then .ok (k, b, blk) else refineRun q se al fuel (k + 1) (zeros - 1) b blk)
    else do
      let (b, blk) ← refineOne q al k b blk
      refineRun q se al fuel (k + 1) zeros b blk

/-- A refining pass of the AC coefficients (T.81 G.1.2.3). -/
def acRefine (h : Option Huff) (q : List Nat) (se al : Nat) : Nat → Nat → Bits → Block → Except Nat (Nat × Bits × Block)
  | 0, _, b, blk => .ok (0, b, blk)
  | fuel + 1, k, b, blk =>
    if se < k then .ok (0, b, blk)
    else do
      let (rs, b) ← b.code h
      let r := rs / 16
      let s := rs % 16
      if s = 0 ∧ r < 15 then
        let (x, b) ← b.take r 0
        let (_, b, blk) ← refineRun q se al 64 k 64 b blk
        return (2 ^ r + x - 1, b, blk)
      if 1 < s then throw 1
      let (x, b) ← if s = 1 then b.bit else .ok (0, b)
      let (k, b, blk) ← refineRun q se al 64 k r b blk
      if se < k then throw 1
      let blk ← if s = 1 then putCoef q blk k (if x = 1 then 2 ^ al else -(2 ^ al)) else .ok blk
      acRefine h q se al fuel (k + 1) b blk

/-- A lane in a chunk: its data, the DC predictions by component, the run of end-of-band blocks, the coefficients by component
and block. -/
structure Lane where
  bits : Bits
  pred : Array Int
  eob : Nat
  coefs : Array (Array Block)

/-- The DC coefficient of a block. -/
def Lane.dc (l : Lane) (s : Scan) (q : List Nat) (c : Nat) (h : Option Huff) (blk : Block) : Except Nat (Lane × Block) := do
  if s.ss ≠ 0 then return (l, blk)
  if s.ah = 0 then
    let (t, b) ← l.bits.code h
    if 16 < t then throw 1
    let (x, b) ← b.take t 0
    let p := l.pred.getD c 0 + extend x t
    let blk ← putCoef q blk 0 (p * 2 ^ s.al)
    return ({ l with bits := b, pred := l.pred.setIfInBounds c p }, blk)
  let (x, b) ← l.bits.bit
  let v := blk.getD 0 0
  let blk ← putCoef q blk 0 (if x = 1 ∧ (v / 2 ^ s.al) % 2 = 0 then v + 2 ^ s.al else v)
  return ({ l with bits := b }, blk)

/-- The AC coefficients of a block. -/
def Lane.ac (l : Lane) (s : Scan) (prog : Bool) (q : List Nat) (h : Option Huff) (blk : Block) : Except Nat (Lane × Block) := do
  let k := max 1 s.ss
  if s.se < k then return (l, blk)
  if 0 < l.eob then
    if s.ah = 0 then return ({ l with eob := l.eob - 1 }, blk)
    let (_, b, blk) ← refineRun q s.se s.al 64 k 64 l.bits blk
    return ({ l with bits := b, eob := l.eob - 1 }, blk)
  let (e, b, blk) ← if s.ah = 0 then acFirst h q s.se s.al prog 65 k l.bits blk else acRefine h q s.se s.al 65 k l.bits blk
  return ({ l with bits := b, eob := e }, blk)

/-- One block of a component. -/
def Lane.block (l : Lane) (f : Frame) (s : Scan) (q : List Nat) (x : Nat × Option Huff × Option Huff) (n : Nat) : Except Nat Lane := do
  let blk := (l.coefs.getD x.1 #[]).getD n (Array.replicate 64 0)
  let (l, blk) ← l.dc s q x.1 x.2.1 blk
  let (l, blk) ← l.ac s f.prog q x.2.2 blk
  return { l with coefs := l.coefs.modify x.1 fun a => a.setIfInBounds n blk }

/-! ### Geometry -/

/-- The largest sampling factors. -/
def Frame.hmax (f : Frame) : Nat := (f.comps.map JComp.h).foldl max 1
def Frame.vmax (f : Frame) : Nat := (f.comps.map JComp.v).foldl max 1

/-- MCUs across and down, of an interleaved scan. -/
def Frame.mcus (f : Frame) : Nat × Nat := (cdiv f.w (8 * f.hmax), cdiv f.h (8 * f.vmax))

/-- A component by number. -/
def Frame.comp (f : Frame) (c : Nat) : JComp := f.comps.getD c ⟨0, 1, 1, 0⟩

/-- The blocks across that a component stores. -/
def Frame.stride (f : Frame) (c : Nat) : Nat := f.mcus.1 * (f.comp c).h

/-- MCUs across and down of a scan: blocks of the component when it has only one (T.81 A.2). -/
def Scan.size (s : Scan) (f : Frame) : Nat × Nat :=
  match s.comps with
  | [(c, _, _)] => (cdiv (cdiv (f.w * (f.comp c).h) f.hmax) 8, cdiv (cdiv (f.h * (f.comp c).v) f.vmax) 8)
  | _ => f.mcus

/-- The blocks of an MCU, in order: component with its tables, block number. -/
def Scan.blocks (s : Scan) (f : Frame) (m : Nat) : List ((Nat × Option Huff × Option Huff) × Nat) :=
  let (w, _) := s.size f
  let mx := m % w
  let my := m / w
  match s.comps with
  | [x] => [(x, my * f.stride x.1 + mx)]
  | l => l.flatMap fun x =>
    let c := f.comp x.1
    (List.range c.v).flatMap fun v => (List.range c.h).map fun h => (x, (my * c.v + v) * f.stride x.1 + mx * c.h + h)

/-- The pixels that an MCU of a scan covers: first column and row, columns and rows. -/
def Scan.area (s : Scan) (f : Frame) (m : Nat) : Nat × Nat × Nat × Nat :=
  let (w, _) := s.size f
  let (bw, bh) := match s.comps with
    | [(c, _, _)] => (8 * f.hmax / (f.comp c).h, 8 * f.vmax / (f.comp c).v)
    | _ => (8 * f.hmax, 8 * f.vmax)
  (m % w * bw, m / w * bh, bw, bh)

/-! ### Chunks (15 R320, R325) -/

/-- A chunk: its scan, its first MCU and how many, and its data; what the markers show is none, or a failure already. -/
structure ChunkIn where
  scan : Nat
  first : Nat
  count : Nat
  piece : Piece

/-- A byte of the image belongs to a chunk: to its data, their stuffing, or the restart marker that ends it (22 R380). -/
def ChunkIn.holds (c : ChunkIn) (i : Nat) : Bool := decide (c.piece.from_ ≤ i ∧ i < c.piece.upto)

/-- The pieces of a scan given to its chunks, each with the code of what its markers show: a piece belongs to the chunk that its restart marker
closes, what follows the last chunk's to that chunk; a chunk without one fails. -/
def chunkPieces : Nat → Nat → List Piece → List Piece
  | 0, _, _ => []
  | _ + 1, _, [] => []
  | n + 1, j, p :: r =>
    let gone (code : Nat) : Piece := ⟨p.from_, p.from_, [], some code⟩
    match p.marker with
    | none => { p with marker := if n = 0 then none else some 2 } :: List.replicate n (gone 3)
    | some k =>
      let skip := (k + 8 - j % 8) % 8
      if n = 0 then [{ p with upto := ((r.getLast?).map Piece.upto).getD p.upto, marker := some 2 }]
      else if skip = 0 then { p with marker := none } :: chunkPieces n (j + 1) r
      else { p with marker := some 2 } :: (List.replicate (min skip n) (gone 2) ++ chunkPieces (n - skip) (j + 1 + skip) r)

/-- The chunks of a scan. (DEDUCED, log 34) -/
def Scan.chunks (s : Scan) (f : Frame) (n : Nat) : List ChunkIn :=
  let (w, h) := s.size f
  let total := w * h
  let ri := if s.ri = 0 then total else s.ri
  let k := cdiv total ri
  let ps := chunkPieces k 0 s.pieces
  (List.range k).map fun j =>
    ⟨n, j * ri, min ri (total - j * ri), ps.getD j ⟨0, 0, [], some 3⟩⟩

/-- The MCUs of a chunk decoded one after the other. -/
def decodeMcus (f : Frame) (s : Scan) (quant : Nat → List Nat) (l : Lane) (ms : List Nat) : Except Nat Lane :=
  ms.foldlM (fun l m => (s.blocks f m).foldlM (fun l b => l.block f s (quant b.1.1) b.1 b.2) l) l

/-- A chunk decoded: the coefficients, and 0 or the code of its failure. Whole bytes left before a restart marker mean that the
marker is not where the chunk ends. (DEDUCED, log 34) -/
def decodeChunk (f : Frame) (s : Scan) (quant : Nat → List Nat) (poisoned : Bool) (c : ChunkIn) (last : Bool) (coefs : Array (Array Block)) :
    Nat × Array (Array Block) :=
  if poisoned then (1, coefs)
  else match decodeMcus f s quant ⟨{ data := c.piece.data.toArray }, Array.replicate 4 0, 0, coefs⟩ ((List.range c.count).map fun i => c.first + i) with
    | .error e => (e, coefs)
    | .ok l => match c.piece.marker with
      | some m => (m, coefs)
      | none => if !last && decide (cdiv l.bits.pos 8 < c.piece.data.length) then (2, coefs) else (0, l.coefs)

/-- What became of a chunk: its failure code or 0, its scan, its first MCU and how many. -/
structure ChunkOut where
  code : Nat
  scan : Nat
  first : Nat
  count : Nat
  deriving DecidableEq, Repr

/-- An image decoded: frame, scans, tables, the outcome of every chunk, the coefficients. -/
structure Picture where
  frame : Frame
  scans : List Scan
  chunks : List ChunkOut
  coefs : Array (Array Block)

/-- The quantisation table of a component: the one that its first scan finds. -/
def compQuant (f : Frame) (scans : List Scan) (c : Nat) : List Nat :=
  ((scans.find? fun s => s.comps.any fun d => d.1 = c).bind fun s => lookup s.quant (f.comp c).tq).getD []

/-- An image of bytes, some of them poisoned, or the code of its whole failure (15 R325). -/
def decodeImage (bytes : List Nat) (poison : List Nat) : Except Nat Picture := do
  let (f, p) ← parseImage bytes.toArray
  let chunks := p.scans.zipIdx.flatMap fun s => s.1.chunks f s.2
  if 65535 < chunks.length then throw 18
  if poison.any fun i => !(chunks.any fun c => c.holds i) then throw 17
  let empty := ((List.range f.comps.length).map fun c =>
    Array.replicate (f.stride c * (f.mcus.2 * (f.comp c).v)) (Array.replicate 64 (0 : Int))).toArray
  let q := compQuant f p.scans
  let (out, coefs) := chunks.foldl (fun (a : List ChunkOut × Array (Array Block)) c =>
    match p.scans[c.scan]? with
    | none => a
    | some s =>
      let (w, h) := s.size f
      let (code, coefs) := decodeChunk f s q (poison.any c.holds) c (c.first + c.count = w * h) a.2
      (⟨code, c.scan, c.first, c.count⟩ :: a.1, coefs)) ([], empty)
  return ⟨f, p.scans, out.reverse, coefs⟩

/-! ### Samples (15 R321) -/

/-- cos(k pi / 16) times 2^320, for k from 0 to 8. -/
def cosTable : List Nat :=
  let one := 2 ^ 320
  let root (x : Nat) : Nat := Nat.sqrt (x * 2 ^ 319)
  let c4 := root one
  let c2 := root (one + c4)
  let c6 := root (one - c4)
  [one, root (one + c2), c2, root (one + c6), c4, root (one - c6), c6, root (one - c2), 0]

/-- cos(n pi / 16) as a sign and a place in the table. -/
def cosPlace (n : Nat) : Int × Nat :=
  let m := n % 32
  let m := if 16 < m then 32 - m else m
  if m ≤ 8 then (1, m) else (-1, 16 - m)

/-- The angle of a basis function of the inverse DCT in sixteenths of pi; C(0) is cos(pi / 4). -/
def basis (u x : Nat) : Nat := if u = 0 then 4 else (2 * x + 1) * u

/-- Place in a block of the k-th coefficient in zigzag order: column, row. -/
def zigzag : List (Nat × Nat) :=
  (List.range 15).flatMap fun d =>
    let l := ((List.range 8).filter fun x => decide (x ≤ d ∧ d - x < 8)).map fun x => (x, d - x)
    if d % 2 = 1 then l.reverse else l

/-- Eight times the inverse DCT at (x, y), exactly: integers that multiply cos(k pi / 16), k from 0 to 7. -/
def idct8 (coef : List ((Nat × Nat) × Int)) (x y : Nat) : List Int :=
  let terms := coef.flatMap fun (p, c) =>
    let a := basis p.1 x
    let b := basis p.2 y
    let s := cosPlace (a + b)
    let t := cosPlace (max a b - min a b)
    [(s.2, s.1 * c), (t.2, t.1 * c)]
  (List.range 8).map fun k => (terms.filter fun t => t.1 = k).foldl (fun a t => a + t.2) 0

/-- rnd(f, RNE) of an eighth of such a sum. The eight cosines are independent over the rationals, so a sum with an irrational part
is no tie, and 320 bits decide it. -/
def roundSum (n : List Int) : Int :=
  if (n.drop 1).all (· = 0) then
    let v := n.headD 0
    let q := v.fdiv 8
    let r := v - 8 * q
    if r < 4 ∨ (r = 4 ∧ q % 2 = 0) then q else q + 1
  else ((n.zip cosTable).foldl (fun (a : Int) (p : Int × Nat) => a + p.1 * (p.2 : Int)) 0 + 2 ^ 322).fdiv (2 ^ 323)

/-- A value held between 0 and 255. -/
def clamp255 (v : Int) : Nat := if v < 0 then 0 else if 255 < v then 255 else v.toNat

/-- The 64 samples of a block, row by row. -/
def blockSamples (q : List Nat) (blk : Block) : Array Nat :=
  let coef := (zigzag.zip (blk.toList.zip q)).filterMap fun (p, c, s) => if c = 0 then none else some (p, c * (s : Int))
  ((List.range 64).map fun i => clamp255 (roundSum (idct8 coef (i % 8) (i / 8)) + 128)).toArray

/-- The samples of every block of every component. -/
def Picture.samples (p : Picture) : Array (Array (Array Nat)) :=
  p.coefs.mapIdx fun c blocks => blocks.map (blockSamples (compQuant p.frame p.scans c))

/-- The sample of a component that a pixel takes. -/
def pixelSample (f : Frame) (smp : Array (Array (Array Nat))) (c x y : Nat) : Nat :=
  let k := f.comp c
  let sx := x * k.h / f.hmax
  let sy := y * k.v / f.vmax
  ((smp.getD c #[]).getD (sy / 8 * f.stride c + sx / 8) #[]).getD (sy % 8 * 8 + sx % 8) 0

/-- A pixel's channels (15 R322). -/
def pixelChannels (f : Frame) (smp : Array (Array (Array Nat))) (grey3 : Bool) (x y : Nat) : List Nat :=
  let v (c : Nat) : Int := pixelSample f smp c x y
  if f.comps.length = 1 then List.replicate (if grey3 then 3 else 1) (pixelSample f smp 0 x y)
  else
    let y' := v 0
    let cb := v 1 - 128
    let cr := v 2 - 128
    [clamp255 (y' + (91881 * cr + 32768).fdiv 65536), clamp255 (y' + (-22554 * cb - 46802 * cr + 32768).fdiv 65536),
     clamp255 (y' + (116130 * cb + 32768).fdiv 65536)]

/-! ### The patch grid and area averages (15 R323, R324) -/

/-- The patch grid of a size: GW and GH for the smallest factor that keeps to PMAX. -/
def patchGrid (w h p pmax : Nat) : Nat × Nat :=
  let g (f : Nat) : Nat × Nat := (cdiv w (p * f), cdiv h (p * f))
  (((List.range (max w h)).map fun i => g (i + 1)).find? fun x => decide (x.1 * x.2 ≤ pmax)).getD (1, 1)

/-- The source columns that output column u covers among n, of which n' are made, with their overlaps in units. -/
def overlaps (n n' u : Nat) : List (Nat × Nat) :=
  let a := u * n
  let b := (u + 1) * n
  (List.range (cdiv b n' - a / n')).map fun i =>
    let x := a / n' + i
    (x, min b ((x + 1) * n') - max a (x * n'))

/-- The pixels of failed chunks: first column and row, columns and rows of each MCU. -/
def Picture.failedAreas (p : Picture) : List (Nat × Nat × Nat × Nat) :=
  (p.chunks.filter fun c => c.code ≠ 0).flatMap fun c => match p.scans[c.scan]? with
    | some s => (List.range c.count).map fun i => s.area p.frame (c.first + i)
    | none => []

/-- The bytes of the output tensor after its header, in patch order (15 R324, R325). -/
def Picture.patches (p : Picture) (edge gw gh : Nat) (grey3 : Bool) : List Nat :=
  let f := p.frame
  let smp := p.samples
  let bad := p.failedAreas
  let c := if f.comps.length = 1 && !grey3 then 1 else 3
  let pixel (u v : Nat) : List Nat :=
    let xs := overlaps f.w (edge * gw) u
    let ys := overlaps f.h (edge * gh) v
    let x0 := (xs.headD (0, 0)).1
    let y0 := (ys.headD (0, 0)).1
    if bad.any fun r => decide (r.1 < x0 + xs.length ∧ x0 < r.1 + r.2.2.1 ∧ r.2.1 < y0 + ys.length ∧ y0 < r.2.1 + r.2.2.2) then
      List.replicate c 0
    else
      let sums := ys.foldl (fun (a : List Nat) y => xs.foldl (fun (a : List Nat) x =>
        (a.zip (pixelChannels f smp grey3 x.1 y.1)).map fun s => s.1 + s.2 * (x.2 * y.2)) a) (List.replicate c 0)
      sums.map fun s => (s + f.w * f.h / 2) / (f.w * f.h)
  (List.range gh).flatMap fun gy => (List.range gw).flatMap fun gx =>
    (List.range edge).flatMap fun y => (List.range edge).flatMap fun x => pixel (gx * edge + x) (gy * edge + y)

end Sys2Proof.Machine
end

