-- ==== Sys2Proof/Machine/DecodeEvents.lean ====
section
/-! DEFINITION. The decode units: how a job is accepted, begins, finishes its chunks and completes (15 R318 to R328, 16 R349). -/

namespace Sys2Proof.Machine

/-- The spaces that a decode unit reads and writes (15 R319). -/
def decodeSpace (n : Nat) : Bool := n = 1 || n = 2 || n = 5 || n = 6

/-- A descriptor whose fields keep to 15 R319. (DEDUCED, log 35) -/
def Cmd.jobOk (x : Cmd) : Bool :=
  let d := x.cap.ma
  let f (o n : Nat) : Nat := jobField d o n
  decodeSpace (Ent.space x.cap.ha.e) && (Ent.space x.cap.hb.e = 1 || Ent.space x.cap.hb.e = 2) &&
    (x.cap.fb.code = 0 || x.cap.fb.code = 2) && (f 6 1 = 14 || f 6 1 = 16) && decide (f 7 1 < 2) &&
    decide (1 ≤ f 16 8 ∧ f 16 8 ≤ 2 ^ 26) && f 24 8 % 64 = 0 && decide (1 ≤ f 32 2) && f 34 30 = 0

/-- The status word of a whole-image failure (15 R327); the spec gives its CHUNKS and FAILED no value. (DEDUCED, log 35) -/
def failedStatus (p16 : Bool) (code counts : Nat) : Word :=
  BitVec.ofNat 64 ((if p16 then 2 ^ 62 else 0) + code * 2 ^ 32 + counts % 2 ^ 32)

/-- The MCUs of the frame that a chunk of a progressive image covers. -/
def Picture.covers (p : Picture) (c : ChunkOut) : List Nat :=
  if !p.frame.prog then []
  else match p.scans[c.scan]? with
    | none => []
    | some s => (List.range c.count).map fun i =>
      let a := s.area p.frame (c.first + i)
      a.2.1 / (8 * p.frame.vmax) * p.frame.mcus.1 + a.1 / (8 * p.frame.hmax)

/-- The output of a job: the header, then the patches (15 R323, R324), and the status word (15 R327). -/
def Picture.output (p : Picture) (d : BitVec 512) : List Byte × Word :=
  let edge := jobField d 6 1
  let grey3 := jobField d 7 1 = 1
  let f := p.frame
  let (gw, gh) := patchGrid f.w f.h edge (jobField d 32 2)
  let ch := if f.comps.length = 1 && !grey3 then 1 else 3
  let failed := (p.chunks.filter fun c => c.code ≠ 0).length
  let header := natLe 4 (jobField d 0 4) ++ natLe 2 gw ++ natLe 2 gh ++ natLe 1 edge ++ natLe 1 ch ++ natLe 2 0 ++ natLe 4 failed ++
    natLe 4 p.chunks.length ++ natLe 4 f.w ++ natLe 4 f.h ++ natLe 36 0
  (header ++ (p.patches edge gw gh grey3).map (BitVec.ofNat 8),
   BitVec.ofNat 64 ((if edge = 16 then 2 ^ 62 else 0) + gh * 2 ^ 51 + gw * 2 ^ 40 + p.chunks.length * 2 ^ 16 + failed))

/-- The job at the head of a unit begins: its image is read and decoded; what it will write is fixed from here on. An image that
fails whole makes its tailings entry and writes nothing. A job that comes from the other unit, where it began, goes on. (DEDUCED, log 35) -/
def State.beginJob (s : State) (u : Fin 2) : State :=
  match s.units[u] with
  | [] => s
  | j :: r =>
    if j.begun then s else
    let c := coreId j.core
    match (s.core c).cmd j.cmd with
    | none => s
    | some x =>
      let d := x.cap.ma
      let img := jobField d 0 4
      let set (s : State) (j : DecJob) : State := { s with units := vset s.units u.val (j :: r) }
      let whole (s : State) (code : Nat) : State :=
        let counts := s.freeAt 0
        let (n, s) := s.choose 4095
        let s := s.tailing x.ctx (tailingBytes s.cycle img 0xFFFFFFFF 0 code c.val u.val 0 0)
        set s { j with begun := true, img := img, status := failedStatus (jobField d 6 1 = 16) code counts, at_ := s.clock + 1 + n }
      if !x.jobOk then whole s 19
      else
        let rd := s.engRd c x.ctx x.cap.epoch decodeSpace 4 x.cap.ha false
        let bs := (List.range (jobField d 16 8)).map fun i => readEach rd (jobField d 8 8 + i) 1
        let bad := (bs.zipIdx.filter fun b => b.1.2.2.isSome).map Prod.snd
        let s := s.sawReads c x.cap.epoch 4 [(x.cap.ha, passing rd ((List.range (jobField d 16 8)).map fun i => jobField d 8 8 + i))]
        let s := match bs.findSome? fun b => b.2.1 with
          | some (w, o) =>
            (s.engLater c x 5 x.cap.ha o o w).onCmd c x.id fun y => { y with prog := { y.prog with outcome := 1 } }
          | none => s
        let s := if Ent.kind x.cap.ha.e = 2 && !bad.isEmpty then (s.slotPoisoned x.ctx x.launch x.cap.ha.h).2 else s
        let s := s.bump
        match decodeImage (bs.map fun b => (b.1.headD 0).toNat) bad with
        | .error code => whole s code
        | .ok p =>
          let (n, s) := s.choose 4095
          let o := p.output d
          set s { j with begun := true, img := img, out := o.1, status := o.2, at_ := s.clock + 1 + n
                         left := p.chunks.zipIdx.map fun k => ⟨k.2, k.1.scan, k.1.code, k.1.first, k.1.count, p.covers k.1⟩ }

/-- DECODE_JOB_ACCEPT (16 R349): the DECJ at the head of the result queue starts. A descriptor read that violated, or two fenced
units, complete it in this cycle. (DEDUCED, log 35) -/
def execDecodeJobAccept (c : Fin 256) (s : State) : Host.Outcome State Fault Refusal :=
  .next (match (s.core c).head 2 with
    | none => s
    | some cmd =>
      if cmd.op.toNat ≠ 0x54 ∨ s.startStep c 2 cmd ≠ .begin then s
      else
        let start (s : State) : State :=
          let s := cmd.sources.foldl (fun (s : State) h => if Ent.kind h.e = 2 then s.touchSlot cmd.ctx (Ent.auxw (s.freshHandle cmd h).e) else s) s
          let s := s.onCmd c cmd.id fun _ => { cmd with cap := s.freshCap cmd, prog := { cmd.prog with start := some s.clock, due := none, outcome := 0 } }
          s.onCore c fun k => cmd.pops.foldl (fun k i => k.bumpToken (some i) false)
            { k with eng := { k.eng with lastStart := vset k.eng.lastStart 2 s.clock } }
        let atOnce (s : State) (status : Word) : State :=
          (start s).onCmd c cmd.id fun x => { x with prog := { x.prog with due := some s.clock, outcome := status } }
        if cmd.cap.y = 1 then atOnce s (failedStatus false 19 0)
        else if s.lanes 0 = 0 ∧ s.lanes 1 = 0 then
          let n := s.freeAt 0
          atOnce s.bump (failedStatus (jobField cmd.cap.ma 6 1 = 16) 16 n)
        else match s.unitFor with
          | none => s
          | some u =>
            let first := (s.units[u]).isEmpty
            let s := start s
            let s := { s with units := vset s.units u.val (s.units[u] ++ [{ core := c.val, cmd := cmd.id }]) }
            if first then s.beginJob u else s)

/-- The chunks in the lanes of a unit: the first of those left, as many as there are lanes, up to one that waits for an earlier
scan's chunk over the same MCUs (15 R320). (DEDUCED, log 35) -/
def inLanes (n : Nat) (l : List DecChunk) : List DecChunk :=
  let waits (k : DecChunk) : Bool := l.any fun e => decide (e.scan < k.scan) && e.covers.any fun m => k.covers.contains m
  (l.take n).takeWhile fun k => !waits k

/-- DECODE_CHUNK_FINISH (15 R320, R325): a lane finishes its chunk, or abandons it with a tailings entry. -/
def execDecodeChunkFinish (u : Fin 2) (s : State) : Host.Outcome State Fault Refusal :=
  .next (match s.units[u] with
    | [] => s
    | j :: r =>
      let busy := inLanes (s.lanes u.val) j.left
      let (i, s) := s.choose (busy.length - 1)
      match busy[i]? with
      | none => s
      | some k =>
        let s := match (s.core (coreId j.core)).cmd j.cmd with
          | some x => if k.code = 0 then s
              else s.tailing x.ctx (tailingBytes s.cycle j.img k.index 0 k.code j.core u.val k.first k.count)
          | none => s
        let (n, s) := s.choose 4095
        { s with units := vset s.units u.val ({ j with left := j.left.filter fun y => y.index ≠ k.index, at_ := s.clock + 1 + n } :: r) })

/-- The bytes of a job written behind its destination handle; the first that fails is logged, if the job has logged nothing. -/
def State.jobWrite (s : State) (c : Fin 256) (x : Cmd) (out : List Byte) : State :=
  let rd := s.engRd c x.ctx x.cap.epoch decodeSpace 4 x.cap.hb true
  let cells := out.zipIdx.map fun b => (jobField x.cap.ma 24 8 + b.2, b.1)
  let fail (o : Nat) : Option (Reason × Nat) := match rd o 1 with | .error f => some f | .ok _ => none
  let s := match if x.prog.outcome = 1 then none else cells.findSome? fun y => fail y.1 with
    | some (w, o) => s.engViolate c x 5 x.cap.hb o o w
    | none => s
  s.engWrite c x.id x.ctx x.cap.hb (cells.filter fun y => (fail y.1).isNone) []

/-- DECODE_JOB_COMPLETE (15 R327): the output is in place, the command completes with the status word, the next job begins. (DEDUCED, log 35) -/
def execDecodeJobComplete (u : Fin 2) (s : State) : Host.Outcome State Fault Refusal :=
  .next (match s.units[u] with
    | [] => s
    | j :: r =>
      if !j.left.isEmpty then s
      else
        let c := coreId j.core
        let s := match (s.core c).cmd j.cmd with
          | some x => ((s.jobWrite c x j.out).unpin x).finish c x true (some j.status)
          | none => s
        { s with units := vset s.units u.val r }.beginJob u)

/-- The jobs of a unit whose lanes are all fenced go to the other unit, chunks that its lanes held being taken anew; with both units fenced
they complete in this cycle with ERR = 16 and write nothing at DSTOFF (15 R328). (DEDUCED, log 35) -/
def State.moveJobs (s : State) (u : Fin 2) : State :=
  if s.lanes u.val ≠ 0 ∨ (s.units[u]).isEmpty then s
  else
    let js := s.units[u]
    let s := { s with units := vset s.units u.val [] }
    if s.lanes (1 - u.val) ≠ 0 then
      ({ s with units := vset s.units (1 - u.val) (s.units[1 - u] ++ js) }).beginJob (1 - u)
    else js.foldl (fun s j => match (s.core (coreId j.core)).cmd j.cmd with
      | none => s
      | some x =>
        let n := s.freeAt 0
        s.bump.onCmd (coreId j.core) j.cmd fun y => { y with prog := { y.prog with due := some s.clock
                                                                                   outcome := failedStatus (jobField x.cap.ma 6 1 = 16) 16 n } }) s

/-- The rows of HBM that the job at the head of a unit reads and writes. -/
def State.jobRows (s : State) (j : DecJob) : List Nat :=
  match (s.core (coreId j.core)).cmd j.cmd with
  | none => []
  | some x =>
    let span (o n : Nat) : List Nat := (o + (n - 1)) :: (List.range (n / 2048 + 1)).map fun i => o + 2048 * i
    s.rowsAt x.ctx x.cap.ha (span (jobField x.cap.ma 8 8) (jobField x.cap.ma 16 8)) ++
      (if j.out.isEmpty then [] else s.rowsAt x.ctx x.cap.hb (span (jobField x.cap.ma 24 8) j.out.length))

/-- The decode units' events of a cycle; a unit stalls while its job's rows are under repair (22 R395). -/
def State.planUnits (s : State) : List Act :=
  ([0, 1] : List (Fin 2)).filterMap fun u => match s.units[u] with
    | [] => none
    | j :: _ => if s.clock < j.at_ || (s.jobRows j).any s.rowStalled then none
        else if j.left.isEmpty then some (.late (.decodeJobComplete u)) else some (.late (.decodeChunkFinish u))

end Sys2Proof.Machine
end

