-- ==== Sys2Proof/Machine/Winder.lean ====
section
/-! DEFINITION. The Winder's frame (24 R410): completion rings (24 R413), host queues, the end of launches (10 R199) and the
binding of records to cores (10 R217, R218). -/

namespace Sys2Proof.Machine

/-! ### Contexts, queues and their entries (24 R409, R412) -/

/-- The context that owns a host queue. (DEDUCED, log 28) -/
def State.owner (s : State) (q : Nat) : Option (Nat × Ctx) :=
  s.ctxs.find? fun p => decide (p.2.d 0x04 2 ≤ q ∧ q < p.2.d 0x04 2 + p.2.d 0x06 2)

/-- A host queue; one that nothing has written yet holds zeros. -/
def State.queue (s : State) (q : Nat) : HostQ := (Table.get s.queues q).getD {}

/-- A host queue changed. -/
def State.onQueue (s : State) (q : Nat) (f : HostQ → HostQ) : State := { s with queues := Table.set s.queues q (f (s.queue q)) }

/-- The entry that a queue gives next: 128 bytes. -/
def HostQ.entry (h : HostQ) : List Byte := (h.ring.drop (128 * (h.cidx.toNat % 8))).take 128

/-- The kinds of entry, with CONTEXT, MAP and XFER by their operation. -/
inductive EntryKind where
  | launch | post | install | uninstall | release | attest | contextCreate | contextDestroy | window | kill | map | unmap
  | xferToDevice | xferToHost | badkind
  deriving DecidableEq, Repr

/-- The header's zero fields. -/
def headerZero (e : List Byte) : Bool :=
  decide (hdr e 1 1 < 2) && zeros e 2 2 && zeros e 5 3 && zeros e 40 24

/-- The kind of an entry; the operations of CONTEXT and MAP stand in host memory. (DEDUCED, log 28) -/
def State.kindOf (s : State) (e : List Byte) : EntryKind :=
  if !headerZero e then .badkind
  else
    let addr := hdr e 16 8
    match hdr e 0 1 with
    | 1 => .launch
    | 2 => .post
    | 3 => .install
    | 4 => .uninstall
    | 5 => .release
    | 6 => .attest
    | 7 => if s.host.read (addr + 1) = 2 then .contextDestroy else .contextCreate
    | 8 => .window
    | 9 => .kill
    | 10 => if s.host.read (addr + 12) = 2 then .unmap else .map
    | 11 => if hdr e 32 8 / 2 ^ 40 % 2 ^ 23 ≠ 0 then .badkind else if hdr e 32 8 < 2 ^ 63 then .xferToDevice else .xferToHost
    | _ => .badkind

/-- The kind of the entry that a queue gives next. -/
def State.entryKind (s : State) (q : Nat) : EntryKind := s.kindOf (s.queue q).entry

/-- The event of the entry that a queue gives next. -/
def State.entryEvent (s : State) (q : Fin 1024) : Late :=
  match s.entryKind q.val with
  | .launch => .launch q
  | .post => .post q
  | .install => .install q
  | .uninstall => .uninstall q
  | .release => .release q
  | .attest => .attest q
  | .contextCreate => .contextCreate q
  | .contextDestroy => .contextDestroy q
  | .window => .window q
  | .kill => .kill q
  | .map => .map q
  | .unmap => .unmap q
  | .xferToDevice => .xferToDevice q
  | .xferToHost => .xferToHost q
  | .badkind => .badkindEntry q

/-- A completion into the holding list of the context that owns the queue; a queue of no context has no ring. -/
def State.report (s : State) (q : Nat) (c : Compl) : State :=
  match s.owner q with
  | some (x, _) => s.hold x c
  | none => s

/-- The completion of a host-queue entry. -/
def entryDone (q : Nat) (e : List Byte) (status : Nat) (launch : Nat) (d0 d1 : Word) : Compl :=
  ⟨BitVec.ofNat 64 (hdr e 8 8), BitVec.ofNat 8 (hdr e 0 1), BitVec.ofNat 8 status, 0xFF, BitVec.ofNat 8 launch, d0, d1, some q, hdr e 1 1 % 2 = 1⟩

/-- The completion of a host-queue entry, with its status and DATA0. (DEDUCED, log 28) -/
def State.answerEntry (s : State) (q : Nat) (e : List Byte) (status : Nat) (d0 : Word) : State :=
  s.report q (entryDone q e status (hdr e 4 1) d0 0)

/-- The places left in a completion ring by the count last read. -/
def Ctx.places (x : Ctx) : Nat := x.d 0x10 4 - (x.posted + 2 ^ 32 - x.ccons) % 2 ^ 32

/-- CCONS read afresh when the ring looks full, at most once per frame. (DEDUCED, log 30) -/
def State.readCons (s : State) (x : Ctx) : Ctx :=
  if 0 < x.places ∨ x.ccFrame = s.clock / 128 + 1 then x
  else { x with ccons := s.host.readLe (x.d 0xE8 8) 4, ccFrame := s.clock / 128 + 1 }

/-- An entry of a context waits for its ring: those of the cycle are more than it has room for. (DEDUCED, log 30) -/
def State.waits (s : State) (x : Ctx) : Bool := decide ((s.readCons x).places < x.hold.length)

/-- An entry of a queue's context waits, so that the Winder takes no new one from it (24 R413). -/
def State.queueWaits (s : State) (q : Nat) : Bool := match s.owner q with
  | some (_, x) => s.waits x
  | none => false

/-! ### Entries that reach rows under repair (22 R395) -/

/-- An XFER's device addresses with their translations. -/
def xferPlaces (x : Ctx) (va n : Nat) (write : Bool) : List (Nat × Except Reason Nat) :=
  (List.range n).map fun i => (va + i, x.translate (va + i) write)

/-- The first address of an XFER that does not translate. -/
def xferFail (l : List (Nat × Except Reason Nat)) : Option Nat :=
  (l.find? fun p => match p.2 with | .error _ => true | .ok _ => false).map Prod.fst

/-- The physical addresses of an XFER. -/
def xferPhys (l : List (Nat × Except Reason Nat)) : List Nat :=
  l.map fun p => match p.2 with | .ok a => a | .error _ => 0

/-- An XFER's length is within its limits. -/
def xferLen (e : List Byte) : Bool := decide (1 ≤ hdr e 24 8 ∧ hdr e 24 8 ≤ 2 ^ 32)

/-- An XFER that moves bytes moves some of a row under repair. -/
def State.xferStalled (s : State) (x : Ctx) (e : List Byte) (write : Bool) : Bool :=
  xferLen e &&
    let l := xferPlaces x (hdr e 32 8 % 2 ^ 40) (hdr e 24 8) write
    (xferFail l).isNone && (xferPhys l).any fun a => s.rowStalled (a / 2048)

/-- The entry that a queue gives next waits: what the Winder reads or writes for it is under repair. Of a launch that is the handle table, of an
installation the sign table. (DEDUCED, log 23) -/
def State.entryStalled (s : State) (q : Nat) : Bool :=
  (s.hbmStacks.toList.any fun h => !h.steps.isEmpty) &&
    match s.owner q with
    | none => false
    | some (_, x) =>
      let e := (s.queue q).entry
      match s.entryKind q with
      | .xferToDevice => s.xferStalled x e true
      | .xferToHost => s.xferStalled x e false
      | .install => (modelSigns (s.host.readN (hdr e 16 8) (hdr e 24 8))).any fun g => s.vaStalled x (x.d 0xC8 8 + 32 * g.1)
      | .launch => s.frameStalled x.table
      | _ => false

/-- An entry of one kind taken from a queue (24 R410): the consumer count advances; a kind that the queue's function may not use
is denied. A queue whose context has an entry waiting is left as it is until it is latched again (24 R413), and an entry that reaches a row under
repair waits (22 R395). -/
def State.takeEntry (s : State) (q : Fin 1024) (k : EntryKind) (f : State → List Byte → State) : State :=
  let h := s.queue q.val
  if !h.pending || s.entryKind q.val ≠ k then s
  else if s.queueWaits q.val then s.onQueue q fun h => { h with pending := false }
  else if s.entryStalled q.val then s
  else
    let e := h.entry
    let s := s.onQueue q.val fun h => { h with pending := false, cidx := h.cidx + 1 }
    let pf := match s.owner q.val with | some (_, x) => x.d 0x02 1 = 0 | none => true
    let ctx := (s.owner q.val).isSome
    let context := k = .contextCreate || k = .contextDestroy
    if (context && !pf) || (!context && !ctx && k ≠ .badkind) then s.answerEntry q.val e 2 0 else f s e

/-! ### Completion rings (24 R413) -/

/-- The bytes of a ring entry. -/
def Compl.bytes (c : Compl) (phase : Bool) (lost : Nat) : List Byte :=
  natLe 8 c.tag.toNat ++ [c.kind, c.status, c.core, c.launch, if phase then 1 else 0] ++ natLe 2 (min lost 65535) ++ [0] ++
    natLe 8 c.data0.toNat ++ natLe 8 c.data1.toNat

/-- A signal of an MSI-X vector of a context's function counted (24 R412). -/
def State.signal (s : State) (x : Ctx) : State :=
  { s with signals := countOne s.signals (x.d 0x02 1 * 65536 + x.d 0x14 2) }

/-- Entries written in order while the ring has room; a launch's number is free once its completion is written. -/
def State.writeRing : Nat → State → Nat → State
  | 0, s, _ => s
  | fuel + 1, s, n =>
    match Table.get s.ctxs n with
    | none => s
    | some x =>
      match x.hold with
      | [] => s
      | c :: rest =>
        let x := s.readCons x
        if x.places = 0 then { s with ctxs := Table.set s.ctxs n x }
        else
          let len := x.d 0x10 4
          let at_ := x.posted % len
          let host := s.host.writeN (x.d 0x08 8 + 32 * at_) (c.bytes x.phase x.lost)
          let x := { x with hold := rest, lost := 0, posted := (x.posted + 1) % 2 ^ 32
                            phase := if at_ + 1 = len then !x.phase else x.phase }
          let launches := if c.kind = 1 && c.status = 0 then Table.erase s.launches c.launch.toNat else s.launches
          let t := { s with host := host, ctxs := Table.set s.ctxs n x, launches := launches }
          State.writeRing fuel (if c.irq then t.signal x else t) n

/-- The entries that go on waiting, and how many events find their 64 places full (24 R413). -/
def keepHeld (l : List Compl) : List Compl × Nat :=
  l.foldl (fun (a : List Compl × Nat) c =>
    if 32 ≤ c.kind.toNat ∧ 64 ≤ (a.1.filter fun y => 32 ≤ y.kind.toNat).length then (a.1, a.2 + 1) else (a.1 ++ [c], a.2)) ([], 0)

/-- Every context's holding list written as far as its ring has room; events beyond the places left for them are dropped and counted.
(DEDUCED, log 30) -/
def State.flushRings (s : State) : State :=
  s.ctxs.foldl (fun s p => if p.2.hold.isEmpty then s else
    (s.writeRing p.2.hold.length p.1).onCtx p.1 fun x => let r := keepHeld x.hold; { x with hold := r.1, lost := x.lost + r.2 }) s

/-! ### The end of a launch (10 R199) -/

/-- The launches that have not completed. -/
def State.liveLaunches (s : State) : List (Nat × Launch) := s.launches.filter fun l => !l.2.completed

/-- Every core of the set is halted with no engine command outstanding, and no record of the launch is left. -/
def State.launchOver (s : State) (n : Nat) (l : Launch) : Bool :=
  ((launchSet l.cores).all fun c => let k := s.core c; k.isHalted && k.queuesEmpty) &&
    s.dies.toList.all fun d => d.tasks.all fun t => t.launch ≠ n

/-- The subscriptions that a launch has on a core end (16 R343). -/
def State.endSubs (s : State) (n : Nat) (c : Fin 256) : State :=
  ((s.core c).eng.subs.filter fun x => x.cmd.launch = n).foldl (fun s x => s.endSub c x) s

/-- A launch completes: its bindings are unpinned (15 R312), its groups (10 R200) and subscriptions (16 R343) end. -/
def State.endLaunch (s : State) (n : Nat) (l : Launch) : State :=
  let s := l.bindings.foldl (fun s b => s.pin l.ctx b.1 false) s
  let s := (launchSet l.cores).foldl (fun s c => (s.endSubs n c).onCore c fun k =>
    if k.lastLaunch = some n then { k with lastLaunch := none } else k) s
  let s := { s with groups := s.groups.filter fun g => !l.groups.contains g.1 }
  s.onLaunch n fun l => { l with completed := true, bindings := [] }

/-- The launches that complete with this cycle. -/
def State.endLaunches (s : State) : State :=
  s.liveLaunches.foldl (fun s l => if s.launchOver l.1 l.2 then s.endLaunch l.1 l.2 else s) s

/-- The completions that are noted as a frame begins: each one's entry is on its way to the ring. -/
def State.noteLaunches (s : State) : State :=
  s.launches.foldl (fun s l => if l.2.completed && !l.2.done then
    (s.onLaunch l.1 fun l => { l with done := true }).hold l.2.ctx
      ⟨l.2.tag, 1, 0, 0xFF, BitVec.ofNat 8 l.1, BitVec.ofNat 64 l.2.recfaults, 0, some l.2.queue, l.2.irq⟩
    else s) s

/-- A destruction can come about (24 R414): no launch of the context runs, and no entry of the context waits or is to come; where the
entry's queue is the context's own, its ring has room. (DEDUCED, log 31) -/
def State.mayDestroy (s : State) (n : Nat) (x : Ctx) (q : Nat) : Bool :=
  x.hold.isEmpty && !(s.launches.any fun l => l.2.ctx = n) &&
    !(s.msgs.any fun m => match m.body with | .hostDone _ y _ => decide (y = n) | _ => false) &&
    (((s.owner q).map Prod.fst) ≠ some n || decide (0 < (s.readCons x).places))

/-- A context whose destruction is reported goes, with its table, pages, slots and windows (24 R414), once no entry waits for its ring and no
other destruction is still to be reported there (24 R413). (DEDUCED, log 31) -/
def State.dropCtx (s : State) (n : Nat) : State :=
  let owed (y : Ctx) : Bool := match y.destroying with
    | some (some (_, q)) => decide ((s.owner q).map Prod.fst = some n)
    | _ => false
  match Table.get s.ctxs n with
  | some x => if x.hold.isEmpty && !(s.ctxs.any fun p => owed p.2) then { s with ctxs := Table.erase s.ctxs n } else s
  | none => s

/-- A context that is being destroyed: its entry completes as soon as it can, then it goes (24 R414). (DEDUCED, log 31) -/
def State.destroy (s : State) (n : Nat) : State :=
  match Table.get s.ctxs n with
  | none => s
  | some x => match x.destroying with
    | none => s
    | some none => s.dropCtx n
    | some (some (c, q)) =>
      if s.mayDestroy n x q then (((s.onCtx n fun y => { y with destroying := some none }).report q c).writeRing 1 n).dropCtx n else s

/-- The contexts whose destruction comes about. -/
def State.destroyAll (s : State) : State := s.ctxs.foldl (fun s p => s.destroy p.1) s

/-- XFERs to the host whose flushing read has completed (24 R416). -/
def State.transfersDone (s : State) : State :=
  s.msgs.foldl (fun s m => match m.body with
    | .hostDone q x c =>
      if m.at_ ≤ s.clock then ((s.dropMsg m.id).onQueue q fun h => { h with busy := 0 }).hold x c else s
    | _ => s) s

/-! ### Polling (24 R410) -/

/-- A queue may give an entry: one is unprocessed, no MAP or XFER of it runs, and no entry of its context waits for the ring. -/
def State.pollable (s : State) (q : Nat) : Bool :=
  let h := s.queue q
  h.pidx ≠ h.cidx && h.busy = 0 && !h.pending &&
    match s.owner q with
    | some (_, x) => !s.waits x && x.destroying.isNone
    | none => true

/-- The 64 queues of a slot latched. -/
def State.poll (s : State) (k : Nat) : State :=
  (s.queues.map Prod.fst).foldl (fun s q =>
    if decide (64 * k ≤ q ∧ q < 64 * k + 64) && s.pollable q then s.onQueue q fun h => { h with pending := true } else s) s

/-! ### Scheduling (10 R217, R218) -/

/-- A ready queue's key: launch and level. -/
def readyKey (launch : Nat) (prio : BitVec 8) : Nat := launch * 256 + prio.toNat

/-- The key of a record's ready queue. -/
def TaskRec.key (t : TaskRec) : Nat := readyKey t.launch t.prio

/-- A launch's cores may start: its LAUNCHED event no longer waits for the ring (10 R196). -/
def State.announced (s : State) (n : Nat) (l : Launch) : Bool :=
  match Table.get s.ctxs l.ctx with
  | some x => !(x.hold.any fun c => c.kind = 37 && c.launch.toNat = n)
  | none => false

/-- A record that a core may take: ready, not yet bound, of a launch whose set holds the core; a pre-empted record and a launch's
first one have a core of their own. -/
def State.eligible (s : State) (d : Fin 4) (c : Nat) (t : TaskRec) : Bool :=
  (match t.state with
   | .ready => true
   | .preempted k => decide (k = c)
   | .first k => decide (k = c)
   | .parked _ => false) &&
  !(s.dies[d]).bound t.id &&
  match Table.get s.launches t.launch with
  | some l => l.cores.getLsbD c && s.announced t.launch l
  | none => false

/-- A core in service to which records may be bound (22 R392, R393): a quarantined cluster takes back what it left alone. -/
def State.inService (s : State) (c : Fin 256) (t : TaskRec) : Bool :=
  let k := clusterOf c.val
  s.clusters.getLsbD k.val && !(s.core c).testDue && (s.core c).testing.isNone &&
    (!(s.faces[k]).quarantined || match t.state with | .preempted _ => true | _ => false)

/-- An idle core: no record runs, and no bind record names it. -/
def State.idleCore (s : State) (c : Fin 256) : Bool :=
  let k := s.core c
  k.isHalted && k.run.isNone && !((s.dies[dieOf c.val]).binds.any fun b => b.core = c.val)

/-- A pre-emption has been asked of a core. -/
def State.requested (s : State) (c : Fin 256) : Bool :=
  let k := s.core c
  k.seq.preempt || (match k.seq.mode with | .saving _ => true | _ => false) ||
    (s.dies[dieOf c.val]).binds.any fun b => b.core = c.val && b.act = .preempt

/-- A core that carries a pre-emption and to which no record is bound yet. -/
def State.carries (s : State) (c : Fin 256) : Bool :=
  (s.core c).run.isSome && s.requested c && !((s.dies[dieOf c.val]).binds.any fun b => decide (b.core = c.val ∧ b.act ≠ .preempt))

/-- The ready queue is owed binds in this window (10 R218). -/
def State.owed (s : State) (d : Fin 4) (key : Nat) : Bool :=
  decide ((Table.get (s.dies[d]).boundInWindow key).getD 0 < ((Table.get s.launches (key / 256)).map Launch.reserve).getD 0)

/-- The ready queues with a record that a core may take. -/
def State.queuesFor (s : State) (d : Fin 4) (c : Fin 256) : List Nat :=
  (((s.dies[d]).tasks.filter fun t => s.eligible d c.val t && s.inService c t).map TaskRec.key).eraseDups

/-- The choice among ready queues at one level: round-robin after the one bound last. -/
def roundRobin (last : Option Nat) (keys : List Nat) : Option Nat :=
  let low (l : List Nat) : Option Nat := l.foldl (fun a k => match a with | some m => some (min m k) | none => some k) none
  match last with
  | some n => (low (keys.filter fun k => decide (n < k))).or (low keys)
  | none => low keys

/-- The ready queue that a core is bound to. -/
def State.choice (s : State) (d : Fin 4) (c : Fin 256) : Option Nat :=
  let all := s.queuesFor d c
  let owed := all.filter (s.owed d)
  let l := if owed.isEmpty then all else owed
  let top := (l.map (· % 256)).foldl max 0
  roundRobin (Table.get (s.dies[d]).lastBound top) (l.filter fun k => k % 256 = top)

/-- The bind records of a die in one frame: how many are written, and when the last one was. -/
structure BindPace where
  count : Nat := 0
  last : Nat := 0
  due : Nat := 0

/-- A bind record written in a slot of the frame and carried out within 9 cycles; the records of a die keep their order. (DEDUCED, log 30) -/
def State.writeBind (s : State) (d : Fin 4) (p : BindPace) (c : Nat) (act : BindAct) (limit : Nat) : State × BindPace :=
  let (n, s) := s.choose (limit - p.last)
  let (m, s) := s.choose 8
  let w := p.last + n
  let t := max p.due (s.clock + w + m)
  (s.onDie d fun x => { x with binds := x.binds ++ [⟨c, act, t⟩] }, ⟨p.count + 1, w, t⟩)

/-- A core that is idle or carries a pre-emption, bound to the head of the chosen queue (10 R218). (DEDUCED, log 5; DEDUCED, log 30) -/
def State.bindCore (s : State) (d : Fin 4) (p : BindPace) (c : Fin 256) (limit : Nat) : State × BindPace :=
  if !(s.idleCore c || s.carries c) || decide (28 ≤ p.count) then (s, p)
  else match s.choice d c with
    | none => (s, p)
    | some key =>
      match (s.dies[d]).tasks.find? fun t => t.key = key && s.eligible d c.val t && s.inService c t with
      | none => (s, p)
      | some t =>
        let act : BindAct := match t.state with | .preempted _ => .resume t.id | _ => .start t.id
        let s := s.onDie d fun x => { x with
          lastBound := Table.set x.lastBound (key % 256) key
          boundInWindow := Table.set x.boundInWindow key ((Table.get x.boundInWindow key).getD 0 + 1) }
        s.writeBind d p c.val act limit

/-- The cores of a die. -/
def dieCores (d : Fin 4) : List (Fin 256) := (List.range 64).map fun i => coreId (64 * d.val + i)

/-- The core that a ready queue's request goes to: of the candidates running below a level, the lowest level, then the lowest id. -/
def State.victim (s : State) (d : Fin 4) (key : Nat) (below : Nat) : Option (Fin 256) :=
  let runs (c : Fin 256) : Nat := (((s.core c).run.map fun r => r.prio.toNat)).getD 256
  let l := (dieCores d).filter fun c =>
    decide (runs c < below) && !s.requested c &&
      (s.dies[d]).tasks.any fun t => t.key = key && s.eligible d c.val t && s.inService c t
  l.foldl (fun a c => match a with | some b => if runs c < runs b then some c else a | none => some c) none

/-- The records of a ready queue that are not bound. -/
def State.readyCount (s : State) (d : Fin 4) (key : Nat) : Nat :=
  ((s.dies[d]).tasks.filter fun t => t.key = key && (match t.state with | .parked _ => false | _ => true) && !(s.dies[d]).bound t.id).length

/-- A pre-emption request raised for a ready queue that has no idle candidate (10 R218): for its level, or for its reserve. -/
def State.requestFor (s : State) (d : Fin 4) (p : BindPace) (key : Nat) (limit : Nat) : State × BindPace :=
  let x := s.dies[d]
  let idle := (dieCores d).any fun c => s.idleCore c && (s.queuesFor d c).contains key
  let left := 256 - s.clock / 128 % 256
  let reserve := ((Table.get s.launches (key / 256)).map Launch.reserve).getD 0
  let missing := reserve - (Table.get x.boundInWindow key).getD 0
  let below := if 0 < missing ∧ left ≤ missing then 256 else key % 256
  if idle || decide (28 ≤ p.count) || decide (s.readyCount d key ≤ (x.asked.filter fun a => a.1 = key).length) then (s, p)
  else match s.victim d key below with
    | none => (s, p)
    | some c =>
      let s := s.onDie d fun x => { x with asked := x.asked ++ [(key, c.val)] }
      s.writeBind d p c.val .preempt limit

/-- One die's part of the frame: cores to bind in ascending order, then requests. -/
def State.scheduleDie (s : State) (d : Fin 4) : State :=
  let s := if s.clock / 128 % 256 = 0 then s.onDie d fun x => { x with boundInWindow := [] } else s
  let s := s.onDie d fun x => { x with asked := x.asked.filter fun a => s.requested (coreId a.2) }
  let limit := if (s.dies[d]).tasks.any fun t => t.by_.any fun b => decide (s.clock ≤ b) then 31 else 111
  let (s, p) := (dieCores d).foldl (fun (a : State × BindPace) c => a.1.bindCore d a.2 c limit) (s, { due := s.clock + 1 })
  let keys := ((s.dies[d]).tasks.map TaskRec.key).eraseDups
  (keys.foldl (fun (a : State × BindPace) k => a.1.requestFor d a.2 k limit) (s, p)).1

/-- A handle entry written on request (11 R223); its holds stay (11 R225). (DEDUCED, log 28) -/
def State.order (s : State) (o : Order) : State :=
  let e := s.homeEntry o.ctx o.handle
  let new := match o.entry with
    | some x => Ent.put x 144 16 (Ent.pin e)
    | none => Ent.put e 136 3 4
  let s := s.invalidate o.ctx fun h => h = o.handle
  (s.onCtx o.ctx fun x => { x with handles := Table.set x.handles o.handle new }).wakeRecords

/-- What the Winder does at the end of every cycle: XFERs and launches complete, and entries that wait are written (24 R413). -/
def State.winderEnd (s : State) : State := s.transfersDone.endLaunches.flushRings

/-- WINDER_FRAME: slots 0 to 15 poll, slot 16 begins the binding; completion entries and the ends of launches are noted as the frame begins. -/
def execWinderFrame (s : State) : Host.Outcome State Fault Refusal :=
  .next (
    let k := s.clock % 128
    if !s.fwOk || decide (16 < k) then s
    else
      let s := if k = 0 then { s with ended := [] }.noteLaunches.destroyAll else s
      if k < 16 then s.poll k else ([0, 1, 2, 3] : List (Fin 4)).foldl State.scheduleDie s)

end Sys2Proof.Machine
end

