-- ==== Sys2Proof/Machine/HostEvents.lean ====
section
/-! DEFINITION. What the host and the network do: host-queue entries (24 R412 to R418), the wake space and the device's registers
(24 R404 to R409), inbound packets (24 R417). -/

namespace Sys2Proof.Machine

/-! ### LAUNCH (10 R194 to R198) -/

/-- The fields of a launch record. -/
structure LaunchRec where
  bytes : List Byte
  imgh : Nat
  reserve : Nat
  quota : Nat
  wshare : Nat
  share : Bool
  cores : BitVec 256
  gmem : List (BitVec 256)
  srkey : Word
  record : BitVec 512

/-- A launch record read. -/
def launchRec (b : List Byte) : LaunchRec where
  bytes := b
  imgh := hdr b 0 1
  reserve := hdr b 1 1
  quota := hdr b 2 2
  wshare := hdr b 4 1
  share := hdr b 5 1 % 2 = 1
  cores := BitVec.ofNat 256 (hdr b 0x08 32)
  gmem := (List.range 4).map fun n => BitVec.ofNat 256 (hdr b (0x28 + 32 * n) 32)
  srkey := BitVec.ofNat 64 (hdr b 0xA8 8)
  record := BitVec.ofNat 512 (hdr b 0xC0 64)

/-- The kernel image behind a handle of the context: HBM, flash or a host window; none when it cannot be read whole. Flash pages that cannot be
read are counted (15 R305). (DEDUCED, log 29) -/
def State.kernelImage (s : State) (ctx : Nat) (e : BitVec 256) : Option (List Byte) × State :=
  let rd := s.engRd 0 ctx {} (fun n => n = 2 || n = 3 || n = 5) 4 ⟨0, e⟩ false
  let pages (n : Nat) : List Nat := flashPages [(⟨0, e⟩, List.range n)]
  match s.readPages ctx (pages 0x100), rd 0 0x100 with
  | ([], s), .ok (h, none) =>
    let n := hdr h 0x30 4
    match s.readPages ctx ((pages n).filter fun p => !(pages 0x100).contains p), rd 0 n with
    | ([], s), .ok (b, none) => (some b, s)
    | (_, s), _ => (none, s)
  | (_, s), _ => (none, s)

/-- An entry as it is compared with a declaration (11 R223): without PIN, and a weight handle's without STATE and BASE, which report its page's
slot (15 R307), unless it is RETIRED. (DEDUCED, log 28) -/
def entryStatic (e : BitVec 256) : BitVec 256 :=
  let e := Ent.put e 144 16 0
  if Ent.kind e = 2 ∧ Ent.state e ≠ 4 then Ent.put (Ent.put e 136 3 0) 0 64 0 else e

/-- Live launches of a context. -/
def State.launchesOf (s : State) (ctx : Nat) : List (Nat × Launch) := s.liveLaunches.filter fun l => l.2.ctx = ctx

/-- A declaration differs from an entry that a live launch of the context declared (11 R223). -/
def State.declClash (s : State) (ctx : Nat) (x : Ctx) (image : List Byte) : Bool :=
  (imgHandles image).any fun h =>
    ((s.launchesOf ctx).any fun l => l.2.declared.contains h.1) && entryStatic (x.entry h.1) ≠ entryStatic h.2

/-- The weight bindings that a launch makes (15 R316): a declared handle's AUXW in this cycle. -/
def State.newBindings (s : State) (ctx : Nat) (x : Ctx) (image : List Byte) : List (Nat × Nat) :=
  ((imgHandles image).filter fun h => Ent.kind h.2 = 2).map fun h =>
    (h.1, Ent.auxw (if (s.launchesOf ctx).any fun l => l.2.declared.contains h.1 then x.entry h.1 else h.2))

/-- The launch record is accepted (10 R194), the image's own checks included. (DEDUCED, log 28) -/
def State.launchOk (s : State) (ctx : Nat) (x : Ctx) (r : LaunchRec) (image : List Byte) (tvec : Word) : Bool :=
  let groups := hdr image 0x10 1
  let member (c : Nat) : Nat := (r.gmem.filter fun g => g.getLsbD c).length +
    (s.groups.filter fun g => g.2.members.getLsbD c).length
  let kind (h : Nat) : Nat := Ent.kind (((imgHandles image).find? fun p => p.1 = h).map Prod.snd |>.getD (x.entry h))
  let pages := ((s.launchesOf ctx).flatMap fun l => l.2.bindings.map Prod.snd) ++ (s.newBindings ctx x image).map Prod.snd
  zeros r.bytes 6 2 && decide (hdr r.bytes 5 1 < 2) && zeros r.bytes 0xB0 16 && decide (1 ≤ r.quota ∧ r.quota ≤ 16384) &&
    r.cores ≠ 0 && ((List.range 64).all fun k => decide (r.cores.toNat / 16 ^ k % 16 = 0) || s.clusters.getLsbD k) &&
    s.imageOk ctx x image r.cores && !s.declClash ctx x image &&
    ((List.range 4).all fun n => if n < groups then (r.gmem.getD n 0 &&& ~~~r.cores) = 0 else r.gmem.getD n 0 = 0) &&
    ((List.range 256).all fun c => decide (member c ≤ 4)) &&
    recValid (hdr image 0x06 2) kind r.record &&
    decide (tvec.toNat < 2 ^ 14) && (!tvec.getLsbD 0 || decide (tvec.toNat / 2 < hdr image 0x06 2)) &&
    decide (pages.eraseDups.length ≤ x.d 0x24 4) &&
    ((s.newBindings ctx x image).all fun b => decide (Ent.pin (x.entry b.1) < 65535)) &&
    (!r.share || match Table.get s.launches r.wshare with
      | some l => l.ctx = ctx && !l.completed && decide (hdr image 0x0E 1 ≤ l.wflag ∧ hdr image 0x0F 1 ≤ l.wtq)
      | none => false)

/-- A window of the flag store: die, first semaphore and count, first token queue and count. -/
abbrev FlagWindow := Nat × Nat × Nat × Nat × Nat

/-- The windows that live launches use, a shared one once. -/
def windowsOf (l : List (Nat × Launch)) : List FlagWindow :=
  (l.map fun p => (p.2.wdie, p.2.fbase, p.2.wflag, p.2.tqbase, p.2.wtq)).eraseDups

/-- The lowest free run of n among `size` numbers, the used runs given. -/
def lowestRun (used : List (Nat × Nat)) (n size : Nat) : Option Nat :=
  let free (a : Nat) : Bool := decide (a + n ≤ size) && used.all fun u => u.2 = 0 || n = 0 || decide (a + n ≤ u.1 ∨ u.1 + u.2 ≤ a)
  ((0 :: used.map fun u => u.1 + u.2).filter free).foldl (fun a x => match a with | some m => some (min m x) | none => some x) none

/-- The window that a launch takes (10 R206); none for BUSY. -/
def State.launchWindow (s : State) (ctx : Nat) (x : Ctx) (r : LaunchRec) (image : List Byte) (home : Nat) : Option FlagWindow :=
  if r.share then (Table.get s.launches r.wshare).map fun l => (l.wdie, l.fbase, l.wflag, l.tqbase, l.wtq)
  else
    let nf := hdr image 0x0E 1
    let nt := hdr image 0x0F 1
    let own := windowsOf (s.launchesOf ctx)
    let here := (windowsOf s.liveLaunches).filter fun w => w.1 = home
    let sum (f : FlagWindow → Nat) : Nat := (own.map f).foldl (· + ·) 0
    if x.d 0x20 2 < sum (fun w => w.2.2.1) + nf ∨ x.d 0x22 2 < sum (fun w => w.2.2.2.2) + nt then none
    else match lowestRun (here.map fun w => (w.2.1, w.2.2.1)) nf 4096, lowestRun (here.map fun w => (w.2.2.2.1, w.2.2.2.2)) nt 1024 with
      | some f, some t => some (home, f, nf, t, nt)
      | _, _ => none

/-- A window's semaphores set to 0 and its token queues emptied (10 R195). -/
def State.clearWindow (s : State) (w : FlagWindow) : State :=
  s.onDie (Fin.ofNat 4 w.1) fun d => { d with
    sems := d.sems.filter fun e => !decide (w.2.1 ≤ e.1 ∧ e.1 < w.2.1 + w.2.2.1)
    tqs := d.tqs.filter fun e => !decide (w.2.2.2.1 ≤ e.1 ∧ e.1 < w.2.2.2.1 + w.2.2.2.2) }

/-- The group-table entries of a launch: the lowest free numbers. (DEDUCED, log 29) -/
def State.freeGroups (s : State) (n : Nat) : List Nat := ((List.range 256).filter fun g => (Table.get s.groups g).isNone).take n

/-- The declared entries written into the context's table, and the weight bindings pinned (11 R223, 15 R316). -/
def State.declare (s : State) (ctx : Nat) (image : List Byte) (bindings : List (Nat × Nat)) : State :=
  let held (h : Nat) : Bool := (s.launchesOf ctx).any fun l => l.2.declared.contains h
  let new := (imgHandles image).filter fun h => !held h.1
  let s := s.invalidate ctx fun h => new.any fun p => p.1 = h
  let s := s.onCtx ctx fun x =>
    { x with handles := new.foldl (fun t h => Table.set t h.1 (Ent.put h.2 144 16 (Ent.pin (x.entry h.1)))) x.handles }
  bindings.foldl (fun s b => s.pin ctx b.1 true) s

/-- The first records of a launch, one for each core of its set, each in its die's task store. -/
def State.firstTasks (s : State) (n : Nat) (cores : BitVec 256) (r : BitVec 512) : State :=
  (launchSet cores).foldl (fun s c => s.onDie (dieOf c.val) fun d => { d with
    tasks := d.tasks ++ [{ id := d.nextTask, launch := n, record := r, prio := BitVec.ofNat 8 (recField r 6 1), state := .first c.val }]
    nextTask := d.nextTask + 1 }) s

/-- An accepted launch placed: number, window, groups, declarations, first records, LAUNCHED. -/
def State.place (s : State) (q : Nat) (e : List Byte) (n ctx : Nat) (at_ : HInfo) (r : LaunchRec) (image : List Byte) (home : Nat) (w : FlagWindow)
    (groups : List Nat) (bindings : List (Nat × Nat)) : State :=
  let s := if r.share then s else s.clearWindow w
  let s := { s with groups := groups.zipIdx.foldl (fun (t : Table Group) (g : Nat × Nat) => Table.set t g.1 { ctx := ctx, members := r.gmem.getD g.2 0 }) s.groups }
  let s := s.declare ctx image bindings
  let l : Launch := {
    ctx := ctx, cores := r.cores, home := home, image := image, wdie := w.1, fbase := w.2.1, wflag := w.2.2.1, tqbase := w.2.2.2.1,
    wtq := w.2.2.2.2, groups := groups, srkey := r.srkey, reserve := r.reserve, quota := r.quota, tvec := BitVec.ofNat 64 (hdr e 32 8),
    bindings := bindings, declared := (imgHandles image).map Prod.fst, imageAt := at_, kept := [], tag := BitVec.ofNat 64 (hdr e 8 8), irq := hdr e 1 1 % 2 = 1,
    queue := q, recfaults := 0 }
  let s := { s with
    launches := Table.set s.launches n l
    dies := s.dies.map fun (d : Die) => { d with boundInWindow := d.boundInWindow.filter fun b => b.1 / 256 ≠ n } }
  let s := s.firstTasks n r.cores r.record
  s.hold ctx ⟨BitVec.ofNat 64 (hdr e 8 8), 37, 0, 0xFF, BitVec.ofNat 8 n, BitVec.ofNat 64 home, 0, none, false⟩

/-- LAUNCH. (DEDUCED, log 10; DEDUCED, log 29) -/
def execLaunch (q : Fin 1024) (s : State) : Host.Outcome State Fault Refusal :=
  .next (s.takeEntry q .launch fun s e =>
    match s.owner q.val with
    | none => s
    | some (ctx, x) =>
      let r := launchRec (s.host.readN (hdr e 16 8) 256)
      match s.kernelImage ctx (x.entry r.imgh) with
      | (none, s) => s.answerEntry q.val e 3 0
      | (some image, s) =>
        if !s.launchOk ctx x r image (BitVec.ofNat 64 (hdr e 32 8)) then s.answerEntry q.val e 3 0
        else
          let home := ((launchSet r.cores).head?.map fun c => c.val / 64).getD 0
          let groups := s.freeGroups (hdr image 0x10 1)
          match (List.range 256).find? (fun n => (Table.get s.launches n).isNone), s.launchWindow ctx x r image home with
          | some n, some w =>
            if groups.length < hdr image 0x10 1 then s.answerEntry q.val e 5 0
            else s.place q.val e n ctx ⟨r.imgh, x.entry r.imgh⟩ r image home w groups (s.newBindings ctx x image)
          | _, _ => s.answerEntry q.val e 5 0)

/-! ### POST, RELEASE, KILL -/

/-- The kind of a context's handle. -/
def State.handleKind (s : State) (ctx h : Nat) : Nat := Ent.kind (s.homeEntry ctx h)

/-- A live launch of a context. -/
def State.liveLaunch (s : State) (ctx n : Nat) : Option Launch :=
  match Table.get s.launches n with
  | some l => if l.ctx = ctx && !l.completed then some l else none
  | none => none

/-- POST: the record enters the home die's task store; 24 R411 bounds its start. -/
def execPost (q : Fin 1024) (s : State) : Host.Outcome State Fault Refusal :=
  .next (s.takeEntry q .post fun s e =>
    match s.owner q.val with
    | none => s
    | some (ctx, _) =>
      match s.liveLaunch ctx (hdr e 4 1) with
      | none => s.answerEntry q.val e 3 0
      | some l =>
        let r := BitVec.ofNat 512 (hdr e 64 64)
        if !recValid (hdr l.image 0x06 2) (s.handleKind ctx) r then s.answerEntry q.val e 3 0
        else
          let d := Fin.ofNat 4 l.home
          let (ok, s) := s.putTask d (hdr e 4 1) r
          if ok then
            let last (t : TaskRec) : TaskRec := { t with by_ := some (s.clock + 57) }
            (s.onDie d fun x => { x with tasks := modifyAt x.tasks (x.tasks.length - 1) last }).answerEntry q.val e 0 0
          else s.answerEntry q.val e 4 0)

/-- RELEASE: a core of the context that TRAP.SYS holds goes on. -/
def execRelease (q : Fin 1024) (s : State) : Host.Outcome State Fault Refusal :=
  .next (s.takeEntry q .release fun s e =>
    match s.owner q.val with
    | none => s
    | some (ctx, _) =>
      let c := coreId (hdr e 32 1)
      match (s.core c).seq.mode with
      | .held _ =>
        if s.runsCtx c.val ctx then
          (s.onCore c Core.goOn).answerEntry q.val e 0 0
        else s.answerEntry q.val e 3 0
      | _ => s.answerEntry q.val e 3 0)

/-- The commands of a core that have not started are dropped: no effect, token or release of theirs follows. -/
def State.dropUnstarted (s : State) (c : Fin 256) : State :=
  let k := s.core c
  let cmds := k.eng.all 0 ++ k.eng.all 1 ++ k.eng.all 2
  let s := { s with cur := c }.withdraw
  let s := cmds.foldl (fun s x => if x.prog.start.isNone then s.giveBack x else s) s
  let s := k.heldCmds.foldl State.unpin s
  let s := s.onFace (clusterOf c.val) fun f => { f with waiting := f.waiting.filter fun r => r.who ≠ c.val % 4 }
  let drop (x : Cmd) : Cmd := if x.prog.start.isSome then x else
    { x with prog := { x.prog with acq := .idle, start := some 0, due := some 0, dropped := true } }
  s.onCore c fun k => { k.dropFaults with eng := { k.dropFaults.eng with queues := k.dropFaults.eng.queues.map fun l => l.map drop, held := [] } }

/-- The pins of a saved record's commands given back. -/
def State.unpinSaved (s : State) (t : TaskRec) : State :=
  match t.saved with
  | none => s
  | some k => (k.eng.all 0 ++ k.eng.all 1 ++ k.eng.all 2).foldl (fun s x => s.unpin x) s

/-- KILL: every record of the launch ends, on its core or in a task store. (DEDUCED, log 31) -/
def State.killLaunch (s : State) (n : Nat) (l : Launch) : State :=
  let s := (launchSet l.cores).foldl (fun s c =>
    if (s.core c).run.any fun r => r.launch = n then
      let s := s.dropUnstarted c
      let s := s.onCore c fun k => { k with seq := { k.seq with pend := [], landings := [], wait := [], events := [], loops := []
                                                                transfer := none, delayLeft := 0, preempt := false } }
      s.endRecord c 0 0
    else s) s
  let mine := (s.dies.toList.flatMap Die.tasks).filter fun t => t.launch = n
  let s := mine.foldl State.unpinSaved s
  { s with dies := s.dies.map fun d =>
      let ids := (d.tasks.filter fun t => t.launch = n).map TaskRec.id
      { d with tasks := d.tasks.filter fun t => t.launch ≠ n
               binds := d.binds.filter fun b => match b.act with
                 | .start i => !ids.contains i
                 | .resume i => !ids.contains i
                 | .preempt => true } }

/-- KILL. (DEDUCED, log 31) -/
def execKill (q : Fin 1024) (s : State) : Host.Outcome State Fault Refusal :=
  .next (s.takeEntry q .kill fun s e =>
    match s.owner q.val with
    | none => s
    | some (ctx, _) =>
      match s.liveLaunch ctx (hdr e 4 1) with
      | none => s.answerEntry q.val e 3 0
      | some l => (s.killLaunch (hdr e 4 1) l).answerEntry q.val e 0 0)

/-! ### INSTALL, UNINSTALL (15 R302, R303, R317) -/

/-- The flash pages of an object. -/
def Obj.pages (o : Obj) : Nat := cdiv o.len 16384

/-- A page that an installation may write: in the region, of no object, in a stack that still takes writes, on a channel in service. -/
def State.pageFree (s : State) (ctx : Nat) (x : Ctx) (taken : List (Nat × Nat)) (p : Nat) : Bool :=
  decide (p < x.d 0x30 8 / 16384) && !(taken.any fun t => decide (t.1 ≤ p ∧ p < t.1 + t.2)) &&
    (let h := s.hbfStacks.getD (Config.flashPlace ctx p / 16 % 8) {}; !h.nowrite && h.chan.getLsbD (Config.flashPlace ctx p % 16))

/-- The objects placed one after the other, each in the lowest run of pages that holds it; none when one finds no room. (DEDUCED, log 27) -/
def State.placeObjs (s : State) (ctx : Nat) (x : Ctx) : List (Nat × Nat) → List Obj → Option (List Obj)
  | _, [] => some []
  | taken, o :: r =>
    match (List.range (x.d 0x30 8 / 16384)).find? fun p => (List.range o.pages).all fun i => s.pageFree ctx x taken (p + i) with
    | none => none
    | some p => (State.placeObjs s ctx x ((p, o.pages) :: taken) r).map fun l => { o with page := p } :: l

/-- The pages that models take. -/
def takenPages (l : List Model) : List (Nat × Nat) := l.flatMap fun m => m.objs.map fun o => (o.page, o.pages)

/-- A model that a binding of a pinned handle names. -/
def State.modelPinned (s : State) (ctx : Nat) (x : Ctx) (m : Model) : Bool :=
  s.launches.any fun l => l.2.ctx = ctx && !l.2.completed && l.2.bindings.any fun b =>
    decide (0 < Ent.pin (x.entry b.1)) && m.objs.any fun (o : Obj) => o.page = b.2

/-- The models that may be evicted, in the order of eviction. -/
def State.evictable (s : State) (ctx : Nat) (x : Ctx) : List Model :=
  let le (a b : Model) : Bool := decide (a.lastUse < b.lastUse) || (a.lastUse = b.lastUse && decide (a.id.toNat ≤ b.id.toNat))
  (x.models.filter fun m => !s.modelPinned ctx x m).foldr (insertBy le) []

/-- A page of a model. -/
def Model.holds (m : Model) (p : Nat) : Bool := m.objs.any fun (o : Obj) => o.page = p

/-- A model evicted: handles that name it retire, their slots become free (15 R303). -/
def State.evict (s : State) (ctx : Nat) (m : Model) : State :=
  let retire (e : BitVec 256) : BitVec 256 := if Ent.kind e = 2 && m.holds (Ent.auxw e) then Ent.put (Ent.put e 136 3 4) 0 64 0 else e
  let s := s.invalidate ctx fun h => let e := s.homeEntry ctx h; Ent.kind e = 2 && m.holds (Ent.auxw e)
  (s.onCtx ctx fun x => { x with
    models := x.models.filter fun y => y.id ≠ m.id
    handles := x.handles.map fun p => (p.1, retire p.2)
    slots := x.slots.map fun sl => if sl.state ≠ .free && m.holds sl.page then {} else sl }).wakeRecords

/-- How many models to evict, and where the objects then go. (DEDUCED, log 27) -/
def State.installPlan (s : State) (ctx : Nat) (x : Ctx) (objs : List Obj) : Option (List Model × List Obj) :=
  let ev := s.evictable ctx x
  (List.range (ev.length + 1)).findSome? fun n =>
    let gone := ev.take n
    let left := x.models.filter fun m => !(gone.any fun g => g.id = m.id)
    (s.placeObjs ctx x (takenPages left) objs).map fun l => (gone, l)

/-- The context's sign-table entry of an identifier. -/
def State.signEntry (s : State) (ctx : Nat) (x : Ctx) (id : Nat) : List Byte :=
  match s.hbmRead ctx (x.d 0xC8 8 + 32 * id) 32 with
  | .ok (b, _) => b
  | .error _ => []

/-- INSTALL. The page list holds the objects' first pages, four bytes each. A sign entry that is valid already stays as it is (15 R302); of two
entries of the image for one identifier the later one stands. (DEDUCED, log 27; DESIGN CHOICE, log 27) -/
def execInstall (q : Fin 1024) (s : State) : Host.Outcome State Fault Refusal :=
  .next (s.takeEntry q .install fun s e =>
    match s.owner q.val with
    | none => s
    | some (ctx, x) =>
      let image := s.host.readN (hdr e 16 8) (hdr e 24 8)
      if !modelOk x (s.signEntry ctx x) image then s.answerEntry q.val e 3 0
      else
        let objs := modelObjs image
        let signs := (modelSigns image).filter fun g => !signValid (s.signEntry ctx x g.1)
        match s.installPlan ctx x (objs.map Prod.snd) with
        | none => s.answerEntry q.val e 4 0
        | some (gone, placed) =>
          let s := gone.foldl (fun s m => s.evict ctx m) s
          let flash (m : Memory) : Memory := (objs.zip placed).foldl (fun m p =>
            m.writeN (p.2.page * 16384) ((image.drop p.1.1).take p.2.len ++ List.replicate (p.2.pages * 16384 - p.2.len) 0)) m
          let fresh (p : Nat) : Bool := (takenPages [⟨0, [], placed, 0⟩]).any fun t => decide (t.1 ≤ p ∧ p < t.1 + t.2)
          let model : Model := { id := BitVec.ofNat 64 (hdr image 0x18 8), digest := (image.drop 0x40).take 64, objs := placed, lastUse := s.clock }
          let s := s.onCtx ctx fun y => { y with
            flash := flash y.flash, models := y.models ++ [model], flashBad := y.flashBad.filter fun p => !fresh p }
          let s := signs.foldl (fun s g => s.winderWrite ctx (x.d 0xC8 8 + 32 * g.1) g.2) s
          let list := hdr e 16 8 + hdr e 24 8
          let s := { s with host := s.host.writeN list (placed.flatMap fun (o : Obj) => natLe 4 o.page) }
          s.answerEntry q.val e 0 (BitVec.ofNat 64 list))

/-- UNINSTALL: a model that no AUXW and no binding of a pinned handle names. (DEDUCED, log 27) -/
def execUninstall (q : Fin 1024) (s : State) : Host.Outcome State Fault Refusal :=
  .next (s.takeEntry q .uninstall fun s e =>
    match s.owner q.val with
    | none => s
    | some (ctx, x) =>
      match x.models.find? fun m => m.id = BitVec.ofNat 64 (hdr e 32 8) with
      | none => s.answerEntry q.val e 3 0
      | some m =>
        let named := x.handles.any fun p => Ent.kind p.2 = 2 && m.holds (Ent.auxw p.2)
        if named || s.modelPinned ctx x m then s.answerEntry q.val e 3 0
        else (s.evict ctx m).answerEntry q.val e 0 0)

/-! ### ATTEST (24 R418) -/

/-- The attestation report of a context, signed by the identity key with the secret number k. (DEDUCED, log 39) -/
def Ctx.report (x : Ctx) (ctx : Nat) (nonce : List Byte) (k : Nat) : List Byte :=
  let body := natLe 4 0x4148524B ++ [1, BitVec.ofNat 8 ctx] ++ natLe 2 x.models.length ++ nonce ++ sha512 Config.firmware ++
    sha512 x.key ++ x.models.flatMap fun m => natLe 8 m.id.toNat ++ m.digest
  body ++ ecdsaSign identityKey k body

/-- ATTEST. (DEDUCED, log 39) -/
def execAttest (q : Fin 1024) (s : State) : Host.Outcome State Fault Refusal :=
  .next (s.takeEntry q .attest fun s e =>
    match s.owner q.val with
    | none => s
    | some (ctx, x) =>
      let r := x.report ctx ((e.drop 64).take 64) (s.freeAt 0)
      ({ s.bump with host := s.host.writeN (hdr e 16 8) r }).answerEntry q.val e 0 (BitVec.ofNat 64 r.length))

/-! ### CONTEXT, WINDOW (24 R414, R415) -/

/-- The Winder-mapped areas of a descriptor, as address and bytes. -/
def Ctx.areaBytes (x : Ctx) : List (Nat × Nat) :=
  [(x.d 0xC8 8, 2 ^ 21), (x.d 0xD0 8, 2 ^ 21), (x.d 0xD8 8, 2 ^ 21), (x.d 0xE0 8, x.d 0x24 4 * x.d 0x28 8)]

/-- A descriptor within the limits of 24 R414 that it meets or fails alone, its operation given. (DEDUCED, log 28) -/
def Ctx.limitsOk (x : Ctx) (op : Nat) : Bool :=
  let b := x.desc
  let len := x.d 0x10 4
  let areas := x.areaBytes
  decide (hdr b 0 1 < 64 ∧ hdr b 1 1 = op ∧ hdr b 2 1 ≤ 16 ∧ hdr b 3 1 ≤ 1) &&
    decide (1 ≤ x.d 0x06 2 ∧ x.d 0x04 2 + x.d 0x06 2 ≤ 1024) &&
    decide (64 ≤ len ∧ len ≤ 65536 ∧ 2 ^ Nat.log2 len = len) && zeros b 0x16 2 && zeros b 0xC5 3 && zeros b 0xF0 16 &&
    decide (x.d 0x18 8 % 8 = 0 ∧ x.d 0xE8 8 % 4 = 0 ∧ x.d 0x20 2 ≤ 4096 ∧ x.d 0x22 2 ≤ 1024) &&
    decide (x.d 0x28 8 % 2 ^ 21 = 0 ∧ x.d 0x30 8 % 2 ^ 14 = 0) &&
    (areas.all fun a => decide (a.1 % 2 ^ 21 = 0 ∧ a.1 + a.2 ≤ 2 ^ 40)) &&
    decide (areas.Pairwise fun a b => a.2 = 0 ∨ b.2 = 0 ∨ a.1 + a.2 ≤ b.1 ∨ b.1 + b.2 ≤ a.1) &&
    decide ((areas.map Prod.snd).foldl (· + ·) 0 ≤ x.d 0x38 8)

/-- A descriptor's queues are owned by no other context (24 R414). -/
def State.queuesFree (s : State) (x : Ctx) : Bool :=
  let q := x.d 0x04 2
  s.ctxs.all fun p => p.1 = x.d 0 1 || decide (q + x.d 0x06 2 ≤ p.2.d 0x04 2 ∨ p.2.d 0x04 2 + p.2.d 0x06 2 ≤ q)

/-- A descriptor that may create its context (24 R414). How many contexts the virtual functions may own together the spec leaves open: any
number up to 64 is accepted. (DESIGN CHOICE, log 28) -/
def State.descOk (s : State) (x : Ctx) : Bool :=
  x.limitsOk 1 && (Table.get s.ctxs (x.d 0 1)).isNone && s.queuesFree x &&
    decide ((s.ctxs.map fun p => p.2.d 0x30 8).foldl (· + ·) 0 + x.d 0x30 8 ≤ 2 ^ 43)

/-- A page of a context mapped onto a fresh frame of zeros (24 R416); its caller has seen that one is left. -/
def State.mapPage (s : State) (ctx page : Nat) (w : Bool) : State :=
  match s.newFrame with
  | (none, s) => s
  | (some f, s) => (s.clearFrame f).onCtx ctx fun x => x.setPage page (pageEntry f w)

/-- A context as a descriptor makes it: window 63 lies over the wake space (24 R407). (DEDUCED, log 31) -/
def newCtx (b : List Byte) (phase : Bool) : Ctx :=
  { desc := b, handles := [], table := frameCount, firm := [], vlogNew := (0, 0), l1 := [], l2 := [], slots := List.replicate (hdr b 0x24 4) {}, models := [], flash := [], flashBad := [],
    vlogCount := 0, vlog := [], hostWin := [(63, { w := true, base := 0, len := 2 ^ 20, rx := 0, peer := 0 })], netWin := [],
    version := 0, written := 0, posted := 0, ccons := 0, ccFrame := 0, phase := phase, hold := [], lost := 0, destroying := none,
    retired := [] }

/-- CONTEXT, create: the handle table, the violation log, the save areas and the Winder-mapped areas take fresh frames; with too few left the
entry finds no room. (DESIGN CHOICE, log 7) -/
def execContextCreate (q : Fin 1024) (s : State) : Host.Outcome State Fault Refusal :=
  .next (s.takeEntry q .contextCreate fun s e =>
    let b := s.host.readN (hdr e 16 8) 256
    let (p, s) := s.choose 1
    let x := newCtx b (decide (p = 1))
    let pages := (x.areas.map Prod.snd).foldl (· + ·) 0
    if !s.descOk x then s.answerEntry q.val e 3 0
    else if s.framesLeft < pages + 3 then s.answerEntry q.val e 4 0
    else
      let n := hdr b 0 1
      let (f, s) := s.newFrame
      let x := { x with table := f.getD frameCount }
      let s := { s.clearFrame x.table with ctxs := Table.set s.ctxs n x }
      let (f, s) := s.newFrame
      let x := { x with firm := [f.getD frameCount] }
      let s := { s with ctxs := Table.set s.ctxs n x }
      let (f, s) := s.newFrame
      let x := { x with firm := x.firm ++ [f.getD frameCount] }
      let s := { s with ctxs := Table.set s.ctxs n x, host := s.host.writeN (x.d 0x18 8) (natLe 8 0) }
      let s := x.areas.foldl (fun s a => (List.range a.2).foldl (fun s i => s.mapPage n (a.1 + i) false) s) s
      s.answerEntry q.val e 0 0)

/-- A descriptor that may destroy a context (24 R414). (DEDUCED, log 31) -/
def State.goneOk (s : State) (x : Ctx) : Bool := x.limitsOk 2 && s.queuesFree x

/-- CONTEXT, destroy: it waits until no launch of the context runs (24 R414). (DEDUCED, log 31) -/
def execContextDestroy (q : Fin 1024) (s : State) : Host.Outcome State Fault Refusal :=
  .next (s.takeEntry q .contextDestroy fun s e =>
    let b := s.host.readN (hdr e 16 8) 256
    match Table.get s.ctxs (hdr b 0 1) with
    | some x =>
      if x.destroying.isSome || !s.goneOk (newCtx b false) then s.answerEntry q.val e 3 0
      else s.onCtx (hdr b 0 1) fun y => { y with destroying := some (some (entryDone q.val e 0 (hdr e 4 1) 0 0, q.val)) }
    | none => s.answerEntry q.val e 3 0)

/-- WINDOW. -/
def execWindow (q : Fin 1024) (s : State) : Host.Outcome State Fault Refusal :=
  .next (s.takeEntry q .window fun s e =>
    match s.owner q.val with
    | none => s
    | some (ctx, _) =>
      let b := s.host.readN (hdr e 16 8) 32
      let kind := hdr b 0 1
      let n := hdr b 1 1
      let w : Window := { w := hdr b 2 1 = 1, base := BitVec.ofNat 64 (hdr b 8 8), len := hdr b 16 8
                          rx := if kind = 6 then hdr b 24 8 else 0, peer := if kind = 6 then BitVec.ofNat 64 (hdr b 8 8) else 0 }
      let ok := decide ((kind = 5 ∨ kind = 6) ∧ n < 63 ∧ hdr b 2 1 < 2) && zeros b 3 5 &&
        (if kind = 5 then zeros b 24 8 else zeros b 15 1)
      if !ok then s.answerEntry q.val e 3 0
      else
        let s := s.onCtx ctx fun x => if kind = 5 then { x with hostWin := Table.set x.hostWin n w } else { x with netWin := Table.set x.netWin n w }
        s.answerEntry q.val e 0 0)

/-! ### MAP, XFER (24 R416) -/

/-- The pages that a context has mapped, retired ones apart. -/
def Ctx.mapped (x : Ctx) : Nat := (x.l2.filter fun e => e.2.getLsbD 0 && !e.2.getLsbD 2).length

/-- A MAP descriptor's own limits. -/
def mapOk (b : List Byte) : Bool :=
  decide (hdr b 0 8 % 2 ^ 21 = 0 ∧ 1 ≤ hdr b 8 4 ∧ hdr b 8 4 ≤ 524288 ∧ hdr b 0 8 + hdr b 8 4 * 2 ^ 21 ≤ 2 ^ 40) &&
    decide (hdr b 13 1 < 2) && zeros b 14 18

/-- The pages that a MAP descriptor names. -/
def mapPages (b : List Byte) : List Nat := (List.range (hdr b 8 4)).map fun i => hdr b 0 8 / 2 ^ 21 + i

/-- MAP, map; with too few frames left it maps nothing and finds no room. (DESIGN CHOICE, log 7) -/
def execMap (q : Fin 1024) (s : State) : Host.Outcome State Fault Refusal :=
  .next (s.takeEntry q .map fun s e =>
    match s.owner q.val with
    | none => s
    | some (ctx, x) =>
      let b := s.host.readN (hdr e 16 8) 32
      let ps := mapPages b
      let ok := mapOk b && hdr b 12 1 = 1 && (ps.all fun p => !((x.page p).getLsbD 0 && !(x.page p).getLsbD 2) && !x.owned p) &&
        decide ((x.mapped + ps.length) * 2 ^ 21 ≤ x.d 0x38 8)
      if !ok then s.answerEntry q.val e 3 0
      else if s.framesLeft < ps.length then s.answerEntry q.val e 4 0
      else (ps.foldl (fun s p => s.mapPage ctx p (hdr b 13 1 = 1)) s).answerEntry q.val e 0 0)

/-- MAP, unmap. -/
def execUnmap (q : Fin 1024) (s : State) : Host.Outcome State Fault Refusal :=
  .next (s.takeEntry q .unmap fun s e =>
    match s.owner q.val with
    | none => s
    | some (ctx, x) =>
      let b := s.host.readN (hdr e 16 8) 32
      let ps := mapPages b
      if !(mapOk b && ps.all fun p => (x.page p).getLsbD 0 && !x.owned p) then s.answerEntry q.val e 3 0
      else (s.onCtx ctx fun y => ps.foldl (fun y p => y.setPage p 0) y).answerEntry q.val e 0 0)

/-- The completion of an XFER on its way, its queue busy until then (24 R416). -/
def State.xferLater (s : State) (q ctx at_ : Nat) (c : Compl) : State :=
  (s.onQueue q fun h => { h with busy := 1 }).send at_ (.hostDone q ctx c)

/-- XFER, host to device. -/
def execXferToDevice (q : Fin 1024) (s : State) : Host.Outcome State Fault Refusal :=
  .next (s.takeEntry q .xferToDevice fun s e =>
    match s.owner q.val with
    | none => s
    | some (_, x) =>
      let n := hdr e 24 8
      let l := xferPlaces x (hdr e 32 8 % 2 ^ 40) n true
      if !xferLen e then s.answerEntry q.val e 3 0
      else match xferFail l with
        | some a => s.answerEntry q.val e 3 (BitVec.ofNat 64 a)
        | none =>
          let a := hdr e 16 8
          let poison := ((xferPhys l).zipIdx.filter fun p => s.hostPoison.contains ((a + p.2) / 32)).map fun p => p.1 / 32
          (s.hbmWrite ((xferPhys l).zip (s.host.readN a n)) poison.eraseDups).answerEntry q.val e 0 0)

/-- XFER, device to host: it completes with the flushing read that follows its last write. -/
def execXferToHost (q : Fin 1024) (s : State) : Host.Outcome State Fault Refusal :=
  .next (s.takeEntry q .xferToHost fun s e =>
    match s.owner q.val with
    | none => s
    | some (ctx, x) =>
      let n := hdr e 24 8
      let l := xferPlaces x (hdr e 32 8 % 2 ^ 40) n false
      if !xferLen e then s.answerEntry q.val e 3 0
      else match xferFail l with
        | some a => s.answerEntry q.val e 3 (BitVec.ofNat 64 a)
        | none =>
          let as := xferPhys l
          let poison := (l.zip as).find? fun p => s.hbmPoison.contains (p.2 / 32)
          let cells := as.zipIdx.map fun p => (hdr e 16 8 + p.2, p.1)
          let s := s.hostWrite (cells.map fun p => (p.1, s.hbm.read p.2))
            ((cells.filter fun p => s.hbmPoison.contains (p.2 / 32)).map fun p => p.1 / 32).eraseDups
          let c := match poison with
            | some p => entryDone q.val e 7 (hdr e 4 1) (BitVec.ofNat 64 p.1.1) 0
            | none => entryDone q.val e 0 (hdr e 4 1) 0 0
          let (k, s) := s.choose 4095
          s.xferLater q.val ctx (s.clock + 1 + k) c)

/-- An entry of no kind, or with a zero field that is not zero. -/
def execBadkindEntry (q : Fin 1024) (s : State) : Host.Outcome State Fault Refusal :=
  .next (s.takeEntry q .badkind fun s e => s.answerEntry q.val e 1 0)

/-! ### Writes to the wake space (24 R407 to R409) -/

/-- The party that writes: a host function below 17; a core's copy, by its context, handle with BASE, and pc, and whether a refusal is still to
be logged for it; the context of a network peer. -/
inductive Writer where
  | host (fn : Nat)
  | core (c : Fin 256) (ctx handle pc base : Nat) (log : Bool)
  | peer (ctx : Nat)
  deriving DecidableEq, Repr

/-- The writer that a number stands for: `coreWriter`, `peerWriter`, or a host function. (DEDUCED, log 32) -/
def writerOf (src : Nat) : Writer :=
  match src / 2 ^ 40 % 4 with
  | 0 => .host src
  | 1 => .core (coreId (src % 256)) (src / 256 % 64) (src / 2 ^ 14 % 256) (src / 2 ^ 22 % 8192) (src / 2 ^ 42) (src / 2 ^ 39 % 2 = 0)
  | _ => .peer (src % 64)

/-- A refused wake write: counted for the host, a violation for a core or a peer (24 R408), a copy's logged once for each handle, at the
offset in the handle (11 R230). (DEDUCED, log 32) -/
def State.refuseWake (s : State) (w : Writer) (r : Reason) (off : Nat) : State :=
  match w with
  | .host _ => { s with wakeErr := s.wakeErr + 1 }
  | .core c ctx h pc base log =>
    if !log then s
    else
    let off := off - base
    let s := s.onCore c fun k => if k.ctx = some ctx then
      { k with sys := { k.sys with viol := true, tval := if k.sys.mode then k.sys.tval else violTval h off } } else k
    s.logViolation ctx off h r c 2 pc 0
  | .peer ctx => s.logViolation ctx off 0 r 0xFF 6 0 0

/-- A writer may write to what a context owns: a virtual function to its own, the physical function to all (24 R404). (DEDUCED, log 32) -/
def mayWrite (w : Writer) (ctx : Option (Nat × Ctx)) : Bool :=
  match w, ctx with
  | .host f, some (_, x) => f = 0 || x.d 0x02 1 = f
  | .host f, none => f = 0
  | .core _ c _ _ _ _, some (n, _) => n = c
  | .peer c, some (n, _) => n = c
  | _, none => false

/-- A doorbell written (24 R409). -/
def State.ring (s : State) (w : Writer) (q : Nat) (v : Word) : State :=
  if !mayWrite w (s.owner q) then s.refuseWake w .space (8 * q)
  else
    let p := v.setWidth 32
    if 8 < (p - (s.queue q).cidx).toNat then s.report q ⟨0, 0, 6, 0xFF, 0, 0, 0, none, false⟩
    else s.onQueue q fun h => { h with pidx := p }

/-- DOORBELL. (DEDUCED, log 32) -/
def execDoorbell (src : Nat) (q : Fin 1024) (v : BitVec 64) (s : State) : Host.Outcome State Fault Refusal :=
  .next (if !s.fwOk then s else s.ring (writerOf src) q.val v)

/-- The context of a live launch. -/
def State.launchOwner (s : State) (l : Nat) : Option (Nat × Ctx) :=
  match Table.get s.launches l with
  | some x => if x.completed then none else (Table.get s.ctxs x.ctx).map fun c => (x.ctx, c)
  | none => none

/-- A task register written (24 R408): the record enters the die's task store, or its drop is reported. -/
def State.putFrom (s : State) (w : Writer) (d : Fin 4) (l : Nat) (v : Word) : State :=
  match s.launchOwner l with
  | none => s.refuseWake w .space (0x10000 + 0x1000 * d.val + 8 * l)
  | some (ctx, x) =>
    if !mayWrite w (some (ctx, x)) then s.refuseWake w .space (0x10000 + 0x1000 * d.val + 8 * l)
    else
      let va := v.toNat % 2 ^ 40
      let drop (s : State) (status : BitVec 8) : State :=
        s.hold ctx ⟨0, 2, status, 0xFF, BitVec.ofNat 8 l, BitVec.ofNat 64 va, 0, none, false⟩
      match Table.get s.launches l, s.hbmRead ctx va 64 with
      | some ln, .ok (b, _) =>
        let r := BitVec.ofNat 512 (leNat b)
        if va % 64 ≠ 0 || !recValid (hdr ln.image 0x06 2) (s.handleKind ctx) r || !((dieCores d).any fun c => ln.cores.getLsbD c.val) then
          drop s 3
        else
          let (ok, t) := s.putTask d l r
          if ok then t else drop s 4
      | _, _ => drop s 3

/-- TASK_REGISTER. -/
def execTaskRegister (src : Nat) (d : Fin 4) (l : Fin 256) (v : BitVec 64) (s : State) : Host.Outcome State Fault Refusal :=
  .next (if !s.fwOk then s else s.putFrom (writerOf src) d l.val v)

/-- A cluster wake register written: STAY, by the physical function alone (24 R419). -/
def State.setStay (s : State) (w : Writer) (k : Nat) (v : Word) : State :=
  match w with
  | .host 0 => { s with stay := if v.getLsbD 0 then s.stay ||| (1#64 <<< k) else s.stay &&& ~~~(1#64 <<< k) }
  | _ => s.refuseWake w .space (0x14000 + 8 * k)

/-- CLUSTER_WAKE_REGISTER. -/
def execClusterWakeRegister (src : Nat) (k : Fin 64) (v : BitVec 64) (s : State) : Host.Outcome State Fault Refusal :=
  .next (if !s.fwOk then s else s.setStay (writerOf src) k.val v)

/-- An offset in the wake space holds a register (24 R407). -/
def wakeRegister (off : Nat) : Bool :=
  decide (off < 0x2000 ∨ (0x10000 ≤ off ∧ off < 0x14000 ∧ off % 0x1000 < 0x800) ∨ (0x14000 ≤ off ∧ off < 0x14200))

/-- A write into the wake space is refused (24 R408). -/
def State.wakeRefused (s : State) (w : Writer) (off : Nat) (bytes : List Byte) : Bool :=
  wakeRegister off && (bytes.length ≠ 8 || off % 8 ≠ 0 ||
    (if off < 0x2000 then !mayWrite w (s.owner (off / 8))
     else if off < 0x14000 then !mayWrite w (s.launchOwner (off % 0x1000 / 8))
     else w ≠ .host 0))

/-- The wake writes of a cycle in order; after the first one of a copy that is refused, its others log nothing (11 R230). -/
def State.wakeQuiet (s : State) (l : List (Nat × Nat × List Byte)) : List (Nat × Nat × List Byte) :=
  (l.foldl (fun (a : List (Nat × Nat × List Byte) × List Nat) x =>
    if x.1 / 2 ^ 40 % 4 = 1 && s.wakeRefused (writerOf x.1) x.2.1 x.2.2 then
      if a.2.contains x.1 then (a.1 ++ [(x.1 + 2 ^ 39, x.2)], a.2) else (a.1 ++ [x], a.2 ++ [x.1])
    else (a.1 ++ [x], a.2)) ([], [])).1

/-- A write into the wake space, by its offset: of the wrong size or alignment it is refused. (DEDUCED, log 32) -/
def State.wakeWrite (s : State) (w : Writer) (off : Nat) (bytes : List Byte) : State :=
  let v := BitVec.ofNat 64 (leNat bytes)
  if !wakeRegister off then s
  else if bytes.length ≠ 8 ∨ off % 8 ≠ 0 then s.refuseWake w .wake off
  else if off < 0x2000 then s.ring w (off / 8) v
  else if off < 0x14000 then s.putFrom w (Fin.ofNat 4 ((off - 0x10000) / 0x1000)) (off % 0x1000 / 8) v
  else s.setStay w ((off - 0x14000) / 8) v

/-! ### The registers as system software reads them (24 R404 to R406, 15 R304, 11 R231) -/

/-- CAPNET.RATE (24 R405): the highest rate that the lanes in service allow. -/
def netRate (lanes : BitVec 8) : Nat :=
  if lanes = 0xFF then 0
  else if lanes &&& 0x0F = 0x0F ∨ lanes &&& 0xF0 = 0xF0 then 1
  else if 2 ≤ ((List.range 8).filter fun i => lanes.getLsbD i).length then 2
  else 3

/-- The capability registers (24 R405). -/
def State.capability (s : State) (off : Nat) : Word :=
  if off = 0 then s.clusters
  else if off < 0x68 then (s.hbmStacks.getD ((off - 0x08) / 8) {}).pch.setWidth 64
  else if off < 0xA8 then (s.hbfStacks.getD ((off - 0x68) / 8) {}).chan.setWidth 64
  else if off = 0xA8 then BitVec.ofNat 64 (netRate s.netLanes * 256 + s.netLanes.toNat)
  else if off = 0xB0 then s.decLanes.setWidth 64
  else 0

/-- The control and status registers (24 R406). -/
def State.control (s : State) (off : Nat) : Word :=
  match off with
  | 0x00 => if s.fwOk then 1 else 0
  | 0x08 => BitVec.ofNat 64 (s.newShift.getD s.winShift)
  | 0x10 => s.wakeErr
  | 0x18 => s.therm
  | _ => 0

/-- The health registers of an HBF stack (15 R304). -/
def Hbf.health (h : Hbf) (off : Nat) : Word :=
  match off with
  | 0x00 => h.bad ++ h.spare
  | 0x08 => h.maxPe ++ h.meanPe
  | 0x10 => h.refresh
  | 0x18 => h.curr ++ h.prev
  | 0x20 => h.unc
  | 0x28 => BitVec.ofNat 64 ((if h.nowrite then 2 ^ 17 else 0) + (if h.chan = 0xFFFF then 0 else 2 ^ 16) + h.chan.toNat)
  | _ => 0

/-- A 64-bit word of a context's violation log (11 R231): COUNT, then the ring. -/
def Ctx.logWord (x : Ctx) (off : Nat) : Word :=
  if off = 0 then x.vlogCount
  else if off < 32 ∨ 32 + 32 * 64 ≤ off then 0
  else (((Table.get x.vlog ((off - 32) / 32)).getD 0) >>> (off % 32 * 8)).setWidth 64

/-- A function sees what belongs to a context: its owner, and the physical function (24 R404). -/
def Ctx.seenBy (x : Ctx) (fn : Nat) : Bool := fn = 0 || x.d 0x02 1 = fn

/-- The 64-bit word at an aligned offset of BAR0; an unlisted one reads 0, and without verified firmware all but FWSTAT (24 R404, R418). -/
def State.bar0 (s : State) (fn off : Nat) : Word :=
  if !s.fwOk && decide (off ≠ 0x1000) then 0
  else if off < 0x1000 then s.capability off
  else if off < 0x2000 then s.control (off - 0x1000)
  else if 0x10000 ≤ off ∧ off < 0x10200 then (s.hbfStacks.getD ((off - 0x10000) / 64) {}).health (off % 64)
  else if 0x20000 ≤ off ∧ off < 0x60000 then
    match Table.get s.ctxs ((off - 0x20000) / 0x1000) with
    | some x => if x.seenBy fn then x.logWord (off % 0x1000) else 0
    | none => 0
  else 0

/-- A byte of BAR2: the wake space reads 0; the entry ring of a queue reads as written, to a function that owns it (24 R404, R407). -/
def State.bar2 (s : State) (fn off : Nat) : Byte :=
  let q := (off - 0x100000) / 0x400
  let seen := match s.owner q with | some (_, x) => x.seenBy fn | none => fn = 0
  if !s.fwOk || decide (off < 0x100000) || !seen then 0 else (s.queue q).ring.getD (off % 0x400) 0

/-- What a read of n bytes of the device returns to a function: function 0 is the physical one. -/
def State.barRead (s : State) (fn bar off n : Nat) : List Byte :=
  (List.range n).map fun i =>
    let a := off + i
    if bar = 0 then BitVec.ofNat 8 ((s.bar0 fn (a / 8 * 8)).toNat / 256 ^ (a % 8)) else if bar = 2 then s.bar2 fn a else 0

/-! ### The other registers (24 R404, R406) -/

/-- WINSHIFT written: a length from 26 to 34 holds from its next boundary on. -/
def State.setShift (s : State) (v : Word) : State :=
  let n := v.toNat % 64
  if 26 ≤ n ∧ n ≤ 34 then { s with newShift := some n } else s

/-- WINSHIFT. -/
def execWinshift (v : BitVec 64) (s : State) : Host.Outcome State Fault Refusal :=
  .next (if !s.fwOk then s else s.setShift v)

/-- WAKEERR: bits written as one are cleared. -/
def execWakeerr (v : BitVec 64) (s : State) : Host.Outcome State Fault Refusal :=
  .next (if !s.fwOk then s else { s with wakeErr := s.wakeErr &&& ~~~v })

/-- Bytes written into the entry rings of host queues that the writer owns. -/
def State.ringBytes (s : State) (w : Writer) (off : Nat) (bytes : List Byte) : State :=
  bytes.zipIdx.foldl (fun (s : State) (b : Byte × Nat) =>
    let a := off + b.2
    let q := a / 1024
    if q < 1024 && mayWrite w (s.owner q) then
      s.onQueue q fun h => { h with ring := modifyAt (h.ring ++ List.replicate (1024 - h.ring.length) 0) (a % 1024) fun _ => b.1 }
    else s) s

/-- REGISTER_WRITE: a write by its region and offset. (DESIGN CHOICE, log 6; DEDUCED, log 32) -/
def execRegisterWrite (src : Nat) (bar : Nat) (offset : Nat) (bytes : List (BitVec 8)) (s : State) : Host.Outcome State Fault Refusal :=
  .next (
    let w := writerOf src
    let v := BitVec.ofNat 64 (leNat bytes)
    if !s.fwOk then s
    else if bar = 2 then
      if offset < 0x100000 then s.wakeWrite w offset bytes
      else match w with
        | .host _ => s.ringBytes w (offset - 0x100000) bytes
        | _ => s
    else if bar = 0 && w = .host 0 && bytes.length = 8 then
      if offset = 0x1008 then s.setShift v
      else if offset = 0x1010 then { s with wakeErr := s.wakeErr &&& ~~~v }
      else s
    else s)

/-! ### The network (24 R417) -/

/-- NET_PACKET_RECEIVE: an inbound write placed, with the poison that it carries (22 R379), and acknowledged, or refused whole and answered with an
error; without verified firmware nothing answers (24 R418). What the port does while CAPNET.RATE
= 3 the spec leaves open: packets come and go as before. (DESIGN CHOICE, log 6; DESIGN CHOICE, log 33) -/
def execNetPacketReceive (x : Fin 64) (window : Fin 64) (offset : Nat) (bytes : List (BitVec 8)) (s : State) :
    Host.Outcome State Fault Refusal :=
  let answer (s : State) (ok : Bool) : State := { s with netAnswers := s.netAnswers ++ [(x.val, ok)] }
  .next (if !s.fwOk then s else match Table.get s.ctxs x.val with
    | none => answer s false
    | some c =>
      if window.val = 63 then answer (s.wakeWrite (.peer x.val) offset bytes) (!s.wakeRefused (.peer x.val) offset bytes)
      else
        let fail (o : Nat) (r : Reason) (va : Nat) : State := answer (s.logViolation x.val o 0 r 0xFF 6 0 va) false
        match Table.get c.netWin window.val with
        | none => fail offset .bounds 0
        | some w =>
          if w.rx = 0 then fail offset .bounds 0
          else if w.len < offset + bytes.length then fail (max offset w.len) .bounds 0
          else
            let l := xferPlaces c (w.rx + offset) bytes.length true
            match l.find? fun p => match p.2 with | .error _ => true | .ok _ => false with
            | some (va, .error r) => fail (va - w.rx) r va
            | _ =>
              let bad (i : Nat) : Bool := s.netPoison.any fun p => p.1 = x.val && p.2.1 = window.val && p.2.2 = offset + i
              let poison := ((xferPhys l).zipIdx.filter fun p => bad p.2).map fun p => p.1 / 32
              answer (s.hbmWrite ((xferPhys l).zip bytes) poison.eraseDups) true)

end Sys2Proof.Machine
end

