-- ==== Sys2Proof/Machine/Dispatch.lean ====
section
/-! DEFINITION. The one dispatch of instructions and events to their meanings. -/

namespace Sys2Proof.Machine

def exec (i : Instr) (s : State) : Host.Outcome State Fault Refusal :=
  match i with
  | .nop => Sys2Proof.Machine.execNop s
  | .add g d a b => Sys2Proof.Machine.execAdd g d a b s
  | .sub g d a b => Sys2Proof.Machine.execSub g d a b s
  | .mul g d a b => Sys2Proof.Machine.execMul g d a b s
  | .mulh g d a b => Sys2Proof.Machine.execMulh g d a b s
  | .mulhu g d a b => Sys2Proof.Machine.execMulhu g d a b s
  | .div g d a b => Sys2Proof.Machine.execDiv g d a b s
  | .divU g d a b => Sys2Proof.Machine.execDivU g d a b s
  | .rem g d a b => Sys2Proof.Machine.execRem g d a b s
  | .remU g d a b => Sys2Proof.Machine.execRemU g d a b s
  | .and g d a b => Sys2Proof.Machine.execAnd g d a b s
  | .or g d a b => Sys2Proof.Machine.execOr g d a b s
  | .xor g d a b => Sys2Proof.Machine.execXor g d a b s
  | .shl g d a b => Sys2Proof.Machine.execShl g d a b s
  | .shr g d a b => Sys2Proof.Machine.execShr g d a b s
  | .sar g d a b => Sys2Proof.Machine.execSar g d a b s
  | .rotl g d a b => Sys2Proof.Machine.execRotl g d a b s
  | .min g d a b => Sys2Proof.Machine.execMin g d a b s
  | .max g d a b => Sys2Proof.Machine.execMax g d a b s
  | .minu g d a b => Sys2Proof.Machine.execMinu g d a b s
  | .maxu g d a b => Sys2Proof.Machine.execMaxu g d a b s
  | .clz g d a => Sys2Proof.Machine.execClz g d a s
  | .popc g d a => Sys2Proof.Machine.execPopc g d a s
  | .sel g d a b k => Sys2Proof.Machine.execSel g d a b k s
  | .addi g d a imm => Sys2Proof.Machine.execAddi g d a imm s
  | .andi g d a imm => Sys2Proof.Machine.execAndi g d a imm s
  | .ori g d a imm => Sys2Proof.Machine.execOri g d a imm s
  | .xori g d a imm => Sys2Proof.Machine.execXori g d a imm s
  | .shli g d a imm => Sys2Proof.Machine.execShli g d a imm s
  | .shri g d a imm => Sys2Proof.Machine.execShri g d a imm s
  | .sari g d a imm => Sys2Proof.Machine.execSari g d a imm s
  | .movi g d imm => Sys2Proof.Machine.execMovi g d imm s
  | .movhi g d imm => Sys2Proof.Machine.execMovhi g d imm s
  | .cmpEq g d a b => Sys2Proof.Machine.execCmpEq g d a b s
  | .cmpNe g d a b => Sys2Proof.Machine.execCmpNe g d a b s
  | .cmpLt g d a b => Sys2Proof.Machine.execCmpLt g d a b s
  | .cmpLtu g d a b => Sys2Proof.Machine.execCmpLtu g d a b s
  | .cmpGe g d a b => Sys2Proof.Machine.execCmpGe g d a b s
  | .cmpGeu g d a b => Sys2Proof.Machine.execCmpGeu g d a b s
  | .cmpiEq g d a imm => Sys2Proof.Machine.execCmpiEq g d a imm s
  | .cmpiNe g d a imm => Sys2Proof.Machine.execCmpiNe g d a imm s
  | .cmpiLt g d a imm => Sys2Proof.Machine.execCmpiLt g d a imm s
  | .cmpiLtu g d a imm => Sys2Proof.Machine.execCmpiLtu g d a imm s
  | .cmpiGe g d a imm => Sys2Proof.Machine.execCmpiGe g d a imm s
  | .cmpiGeu g d a imm => Sys2Proof.Machine.execCmpiGeu g d a imm s
  | .pand g d a b => Sys2Proof.Machine.execPand g d a b s
  | .por g d a b => Sys2Proof.Machine.execPor g d a b s
  | .pxor g d a b => Sys2Proof.Machine.execPxor g d a b s
  | .pnot g d a => Sys2Proof.Machine.execPnot g d a s
  | .pmovPp g d a => Sys2Proof.Machine.execPmovPp g d a s
  | .pmovPs g d a => Sys2Proof.Machine.execPmovPs g d a s
  | .pmovSp g d a => Sys2Proof.Machine.execPmovSp g d a s
  | .qpeek g d a => Sys2Proof.Machine.execQpeek g d a s
  | .qcnt g d a => Sys2Proof.Machine.execQcnt g d a s
  | .qclr g a => Sys2Proof.Machine.execQclr g a s
  | .br g o => Sys2Proof.Machine.execBr g o s
  | .call g o => Sys2Proof.Machine.execCall g o s
  | .ret g a => Sys2Proof.Machine.execRet g a s
  | .jmp g d a => Sys2Proof.Machine.execJmp g d a s
  | .loop g l c => Sys2Proof.Machine.execLoop g l c s
  | .loopi g l c => Sys2Proof.Machine.execLoopi g l c s
  | .loopr g l x2 c => Sys2Proof.Machine.execLoopr g l x2 c s
  | .lbrk g n => Sys2Proof.Machine.execLbrk g n s
  | .lidx g d l => Sys2Proof.Machine.execLidx g d l s
  | .lidxIn g d l => Sys2Proof.Machine.execLidxIn g d l s
  | .dtld g d e => Sys2Proof.Machine.execDtld g d e s
  | .sysr g d r => Sys2Proof.Machine.execSysr g d r s
  | .sysw g d r => Sys2Proof.Machine.execSysw g d r s
  | .syss g d r => Sys2Proof.Machine.execSyss g d r s
  | .sysc g d r => Sys2Proof.Machine.execSysc g d r s
  | .trap g n => Sys2Proof.Machine.execTrap g n s
  | .trapSys g n => Sys2Proof.Machine.execTrapSys g n s
  | .eret g => Sys2Proof.Machine.execEret g s
  | .halt g => Sys2Proof.Machine.execHalt g s
  | .haltAbort g a => Sys2Proof.Machine.execHaltAbort g a s
  | .waitc g l x2 c t => Sys2Proof.Machine.execWaitc g l x2 c t s
  | .sleep g a => Sys2Proof.Machine.execSleep g a s
  | .cyc g d => Sys2Proof.Machine.execCyc g d s
  | .isync g d => Sys2Proof.Machine.execIsync g d s
  | .segmark g a => Sys2Proof.Machine.execSegmark g a s
  | .bswap g a => Sys2Proof.Machine.execBswap g a s
  | .vadd g v a b t k f => Sys2Proof.Machine.execVadd g v a b t k f s
  | .vsub g v a b t k f => Sys2Proof.Machine.execVsub g v a b t k f s
  | .vmul g v a b t k f => Sys2Proof.Machine.execVmul g v a b t k f s
  | .vfma g v a b t k f => Sys2Proof.Machine.execVfma g v a b t k f s
  | .vmin g v a b t k => Sys2Proof.Machine.execVmin g v a b t k s
  | .vmax g v a b t k => Sys2Proof.Machine.execVmax g v a b t k s
  | .vabs g v a t k f => Sys2Proof.Machine.execVabs g v a t k f s
  | .vneg g v a t k f => Sys2Proof.Machine.execVneg g v a t k f s
  | .vand g v a b t k => Sys2Proof.Machine.execVand g v a b t k s
  | .vor g v a b t k => Sys2Proof.Machine.execVor g v a b t k s
  | .vxor g v a b t k => Sys2Proof.Machine.execVxor g v a b t k s
  | .vshl g v a b t k => Sys2Proof.Machine.execVshl g v a b t k s
  | .vshr g v a b t k => Sys2Proof.Machine.execVshr g v a b t k s
  | .vsar g v a b t k => Sys2Proof.Machine.execVsar g v a b t k s
  | .vcmpEq g d a b t k => Sys2Proof.Machine.execVcmpEq g d a b t k s
  | .vcmpNe g d a b t k => Sys2Proof.Machine.execVcmpNe g d a b t k s
  | .vcmpLt g d a b t k => Sys2Proof.Machine.execVcmpLt g d a b t k s
  | .vcmpLtu g d a b t k => Sys2Proof.Machine.execVcmpLtu g d a b t k s
  | .vcmpGe g d a b t k => Sys2Proof.Machine.execVcmpGe g d a b t k s
  | .vcmpGeu g d a b t k => Sys2Proof.Machine.execVcmpGeu g d a b t k s
  | .vsel g v a b t k => Sys2Proof.Machine.execVsel g v a b t k s
  | .vcvt g v a x3 t k f => Sys2Proof.Machine.execVcvt g v a x3 t k f s
  | .vrot g v a n t k f => Sys2Proof.Machine.execVrot g v a n t k f s
  | .virot g v a t k => Sys2Proof.Machine.execVirot g v a t k s
  | .vredSum g v a t k u x => Sys2Proof.Machine.execVredSum g v a t k u x s
  | .vredMax g v a t k x => Sys2Proof.Machine.execVredMax g v a t k x s
  | .vredMin g v a t k x => Sys2Proof.Machine.execVredMin g v a t k x s
  | .vtrn g v a t k => Sys2Proof.Machine.execVtrn g v a t k s
  | .kand g d a b => Sys2Proof.Machine.execKand g d a b s
  | .kor g d a b => Sys2Proof.Machine.execKor g d a b s
  | .knot g d a => Sys2Proof.Machine.execKnot g d a s
  | .vaddScalar g v a x3 t k f => Sys2Proof.Machine.execVaddScalar g v a x3 t k f s
  | .vsubScalar g v a x3 t k f => Sys2Proof.Machine.execVsubScalar g v a x3 t k f s
  | .vmulScalar g v a x3 t k f => Sys2Proof.Machine.execVmulScalar g v a x3 t k f s
  | .vfmaScalar g v a x3 t k f => Sys2Proof.Machine.execVfmaScalar g v a x3 t k f s
  | .vminScalar g v a x3 t k => Sys2Proof.Machine.execVminScalar g v a x3 t k s
  | .vmaxScalar g v a x3 t k => Sys2Proof.Machine.execVmaxScalar g v a x3 t k s
  | .vandScalar g v a x3 t k => Sys2Proof.Machine.execVandScalar g v a x3 t k s
  | .vorScalar g v a x3 t k => Sys2Proof.Machine.execVorScalar g v a x3 t k s
  | .vxorScalar g v a x3 t k => Sys2Proof.Machine.execVxorScalar g v a x3 t k s
  | .vshlScalar g v a x3 t k => Sys2Proof.Machine.execVshlScalar g v a x3 t k s
  | .vshrScalar g v a x3 t k => Sys2Proof.Machine.execVshrScalar g v a x3 t k s
  | .vsarScalar g v a x3 t k => Sys2Proof.Machine.execVsarScalar g v a x3 t k s
  | .vcmpEqScalar g d a x3 t k => Sys2Proof.Machine.execVcmpEqScalar g d a x3 t k s
  | .vcmpNeScalar g d a x3 t k => Sys2Proof.Machine.execVcmpNeScalar g d a x3 t k s
  | .vcmpLtScalar g d a x3 t k => Sys2Proof.Machine.execVcmpLtScalar g d a x3 t k s
  | .vcmpLtuScalar g d a x3 t k => Sys2Proof.Machine.execVcmpLtuScalar g d a x3 t k s
  | .vcmpGeScalar g d a x3 t k => Sys2Proof.Machine.execVcmpGeScalar g d a x3 t k s
  | .vcmpGeuScalar g d a x3 t k => Sys2Proof.Machine.execVcmpGeuScalar g d a x3 t k s
  | .vbcast g v a x3 t k f => Sys2Proof.Machine.execVbcast g v a x3 t k f s
  | .viota g v x2 t k c => Sys2Proof.Machine.execViota g v x2 t k c s
  | .vext g q a x3 x => Sys2Proof.Machine.execVext g q a x3 x s
  | .vins g v x2 => Sys2Proof.Machine.execVins g v x2 s
  | .vshp g x1 => Sys2Proof.Machine.execVshp g x1 s
  | .kwin g d x2 k => Sys2Proof.Machine.execKwin g d x2 k s
  | .fexp2 g v a t k => Sys2Proof.Machine.execFexp2 g v a t k s
  | .flog2 g v a t k => Sys2Proof.Machine.execFlog2 g v a t k s
  | .frcp g v a t k => Sys2Proof.Machine.execFrcp g v a t k s
  | .frsq g v a t k => Sys2Proof.Machine.execFrsq g v a t k s
  | .fsigm g v a t k => Sys2Proof.Machine.execFsigm g v a t k s
  | .ftanh g v a t k => Sys2Proof.Machine.execFtanh g v a t k s
  | .ferf g v a t k => Sys2Proof.Machine.execFerf g v a t k s
  | .ftopk g v a x3 t k l => Sys2Proof.Machine.execFtopk g v a x3 t k l s
  | .fhkey g q a x3 r => Sys2Proof.Machine.execFhkey g q a x3 r s
  | .ld8 g d h o j => Sys2Proof.Machine.execLd8 g d h o j s
  | .ld16 g d h o j => Sys2Proof.Machine.execLd16 g d h o j s
  | .ld32 g d h o j => Sys2Proof.Machine.execLd32 g d h o j s
  | .ld64 g d h o j => Sys2Proof.Machine.execLd64 g d h o j s
  | .ld8s g d h o j => Sys2Proof.Machine.execLd8s g d h o j s
  | .ld16s g d h o j => Sys2Proof.Machine.execLd16s g d h o j s
  | .ld32s g d h o j => Sys2Proof.Machine.execLd32s g d h o j s
  | .st8 g d h o j => Sys2Proof.Machine.execSt8 g d h o j s
  | .st16 g d h o j => Sys2Proof.Machine.execSt16 g d h o j s
  | .st32 g d h o j => Sys2Proof.Machine.execSt32 g d h o j s
  | .st64 g d h o j => Sys2Proof.Machine.execSt64 g d h o j s
  | .vld g v m x3 k c x => Sys2Proof.Machine.execVld g v m x3 k c x s
  | .vst g v m x3 k c x => Sys2Proof.Machine.execVst g v m x3 k c x s
  | .atomAdd g d h o u w => Sys2Proof.Machine.execAtomAdd g d h o u w s
  | .atomMin g d h o u w => Sys2Proof.Machine.execAtomMin g d h o u w s
  | .atomMax g d h o u w => Sys2Proof.Machine.execAtomMax g d h o u w s
  | .atomSwap g d h o u w => Sys2Proof.Machine.execAtomSwap g d h o u w s
  | .atomCas g d h o u w => Sys2Proof.Machine.execAtomCas g d h o u w s
  | .ratomAdd g d h o f u w => Sys2Proof.Machine.execRatomAdd g d h o f u w s
  | .ratomMin g d h o f u w => Sys2Proof.Machine.execRatomMin g d h o f u w s
  | .ratomMax g d h o f u w => Sys2Proof.Machine.execRatomMax g d h o f u w s
  | .ratomSwap g d h o f u w => Sys2Proof.Machine.execRatomSwap g d h o f u w s
  | .ratomCas g d h o f u w => Sys2Proof.Machine.execRatomCas g d h o f u w s
  | .tlook g d a => Sys2Proof.Machine.execTlook g d a s
  | .tlookR g d a b => Sys2Proof.Machine.execTlookR g d a b s
  | .tset g d a b => Sys2Proof.Machine.execTset g d a b s
  | .tdel g d a => Sys2Proof.Machine.execTdel g d a s
  | .tpin g d a => Sys2Proof.Machine.execTpin g d a s
  | .tunpin g d a => Sys2Proof.Machine.execTunpin g d a s
  | .tmld g m h o z => Sys2Proof.Machine.execTmld g m h o z s
  | .tmst g m h o z => Sys2Proof.Machine.execTmst g m h o z s
  | .tmset g m a x => Sys2Proof.Machine.execTmset g m a x s
  | .tmsetClear g m => Sys2Proof.Machine.execTmsetClear g m s
  | .tmadd g m a x => Sys2Proof.Machine.execTmadd g m a x s
  | .sgset g d a b => Sys2Proof.Machine.execSgset g d a b s
  | .fenceScope g x1 => Sys2Proof.Machine.execFenceScope g x1 s
  | .fenceX g => Sys2Proof.Machine.execFenceX g s
  | .semsig g a n => Sys2Proof.Machine.execSemsig g a n s
  | .semwait g a => Sys2Proof.Machine.execSemwait g a s
  | .barr g d x2 => Sys2Proof.Machine.execBarr g d x2 s
  | .tqpush g d a b => Sys2Proof.Machine.execTqpush g d a b s
  | .tqpop g d a k => Sys2Proof.Machine.execTqpop g d a k s
  | .fuse g m => Sys2Proof.Machine.execFuse g m s
  | .decouple g => Sys2Proof.Machine.execDecouple g s
  | .rejoin g => Sys2Proof.Machine.execRejoin g s
  | .taskput g d a b => Sys2Proof.Machine.execTaskput g d a b s
  | .futrd g d a => Sys2Proof.Machine.execFutrd g d a s
  | .futfill g a b => Sys2Proof.Machine.execFutfill g a b s
  | .mlease g n e => Sys2Proof.Machine.execMlease g n e s
  | .mfree g e => Sys2Proof.Machine.execMfree g e s
  | .mldw g a l u c e => Sys2Proof.Machine.execMldw g a l u c e s
  | .mrun g a b f h k e => Sys2Proof.Machine.execMrun g a b f h k e s
  | .mdrain g a b h k e => Sys2Proof.Machine.execMdrain g a b h k e s
  | .mclr g b e => Sys2Proof.Machine.execMclr g b e s
  | .massay g a b l e => Sys2Proof.Machine.execMassay g a b l e s
  | .copy g a b e => Sys2Proof.Machine.execCopy g a b e s
  | .copy2 g a b t e => Sys2Proof.Machine.execCopy2 g a b t e s
  | .gath g a b e => Sys2Proof.Machine.execGath g a b e s
  | .mcast g a b f l e => Sys2Proof.Machine.execMcast g a b f l e s
  | .subs g a b l e => Sys2Proof.Machine.execSubs g a b l e s
  | .unsub g a e => Sys2Proof.Machine.execUnsub g a e s
  | .rfree g a b e => Sys2Proof.Machine.execRfree g a b e s
  | .hfetch g a l e => Sys2Proof.Machine.execHfetch g a l e s
  | .prosp g a b c e => Sys2Proof.Machine.execProsp g a b c e s
  | .hrebind g a b e => Sys2Proof.Machine.execHrebind g a b e s
  | .decj g a c e => Sys2Proof.Machine.execDecj g a c e s
  | .publish g c e => Sys2Proof.Machine.execPublish g c e s
  | .trapEntry c => Sys2Proof.Machine.execTrapEntry c s
  | .sleepWake c => Sys2Proof.Machine.execSleepWake c s
  | .landingArrival m => Sys2Proof.Machine.execLandingArrival m s
  | .landingWatchdog c => Sys2Proof.Machine.execLandingWatchdog c s
  | .handleFill c => Sys2Proof.Machine.execHandleFill c s
  | .handleFillTimeout c => Sys2Proof.Machine.execHandleFillTimeout c s
  | .engineCommandStart c q => Sys2Proof.Machine.execEngineCommandStart c q s
  | .engineCommandComplete c q n => Sys2Proof.Machine.execEngineCommandComplete c q n s
  | .aTileConsumed c n => Sys2Proof.Machine.execATileConsumed c n s
  | .faceLeaseGrant f => Sys2Proof.Machine.execFaceLeaseGrant f s
  | .leaseExpiry f => Sys2Proof.Machine.execLeaseExpiry f s
  | .leaseEnd f => Sys2Proof.Machine.execLeaseEnd f s
  | .semaphoreIncrement m => Sys2Proof.Machine.execSemaphoreIncrement m s
  | .semaphoreDecrementGrant d f => Sys2Proof.Machine.execSemaphoreDecrementGrant d f s
  | .tokenQueuePush m => Sys2Proof.Machine.execTokenQueuePush m s
  | .tokenQueuePop m => Sys2Proof.Machine.execTokenQueuePop m s
  | .barrierArrival m => Sys2Proof.Machine.execBarrierArrival m s
  | .barrierResume m => Sys2Proof.Machine.execBarrierResume m s
  | .gangFuse k mask => Sys2Proof.Machine.execGangFuse k mask s
  | .gangTimeout c => Sys2Proof.Machine.execGangTimeout c s
  | .gangRejoin k => Sys2Proof.Machine.execGangRejoin k s
  | .ratomStep m => Sys2Proof.Machine.execRatomStep m s
  | .remoteTagProbe m => Sys2Proof.Machine.execRemoteTagProbe m s
  | .futureFillApply m => Sys2Proof.Machine.execFutureFillApply m s
  | .futfillAnswer m => Sys2Proof.Machine.execFutfillAnswer m s
  | .fetchRequest m => Sys2Proof.Machine.execFetchRequest m s
  | .fetchQueueServe d => Sys2Proof.Machine.execFetchQueueServe d s
  | .stagingFetchComplete x slot => Sys2Proof.Machine.execStagingFetchComplete x slot s
  | .prospectorSelection d => Sys2Proof.Machine.execProspectorSelection d s
  | .hrebindApply m => Sys2Proof.Machine.execHrebindApply m s
  | .segmentCopyLand c => Sys2Proof.Machine.execSegmentCopyLand c s
  | .packetPlace c n => Sys2Proof.Machine.execPacketPlace c n s
  | .listRecordReread c n => Sys2Proof.Machine.execListRecordReread c n s
  | .decodeJobAccept c => Sys2Proof.Machine.execDecodeJobAccept c s
  | .decodeChunkFinish u => Sys2Proof.Machine.execDecodeChunkFinish u s
  | .decodeJobComplete u => Sys2Proof.Machine.execDecodeJobComplete u s
  | .hostFlushReadComplete m => Sys2Proof.Machine.execHostFlushReadComplete m s
  | .netAckReceive m => Sys2Proof.Machine.execNetAckReceive m s
  | .netPacketReceive x window offset bytes => Sys2Proof.Machine.execNetPacketReceive x window offset bytes s
  | .powerOnReset => Sys2Proof.Machine.execPowerOnReset s
  | .winderFrame => Sys2Proof.Machine.execWinderFrame s
  | .start c => Sys2Proof.Machine.execStart c s
  | .resume c => Sys2Proof.Machine.execResume c s
  | .preempt c => Sys2Proof.Machine.execPreempt c s
  | .preemptHonour c => Sys2Proof.Machine.execPreemptHonour c s
  | .clusterClockGate k => Sys2Proof.Machine.execClusterClockGate k s
  | .clusterClockWake k => Sys2Proof.Machine.execClusterClockWake k s
  | .retainWakeHandshake k => Sys2Proof.Machine.execRetainWakeHandshake k s
  | .thermalStepChange d v => Sys2Proof.Machine.execThermalStepChange d v s
  | .countingWindowBoundary => Sys2Proof.Machine.execCountingWindowBoundary s
  | .repairStepStart stack pch res unit len => Sys2Proof.Machine.execRepairStepStart stack pch res unit len s
  | .repairStepEnd stack pch => Sys2Proof.Machine.execRepairStepEnd stack pch s
  | .retirementCut x va res stack finder => Sys2Proof.Machine.execRetirementCut x va res stack finder s
  | .retirementReport x => Sys2Proof.Machine.execRetirementReport x s
  | .targetedTestStart u => Sys2Proof.Machine.execTargetedTestStart u s
  | .targetedTestEnd u pass => Sys2Proof.Machine.execTargetedTestEnd u pass s
  | .clusterFence k => Sys2Proof.Machine.execClusterFence k s
  | .launch q => Sys2Proof.Machine.execLaunch q s
  | .post q => Sys2Proof.Machine.execPost q s
  | .install q => Sys2Proof.Machine.execInstall q s
  | .uninstall q => Sys2Proof.Machine.execUninstall q s
  | .release q => Sys2Proof.Machine.execRelease q s
  | .attest q => Sys2Proof.Machine.execAttest q s
  | .contextCreate q => Sys2Proof.Machine.execContextCreate q s
  | .contextDestroy q => Sys2Proof.Machine.execContextDestroy q s
  | .window q => Sys2Proof.Machine.execWindow q s
  | .kill q => Sys2Proof.Machine.execKill q s
  | .map q => Sys2Proof.Machine.execMap q s
  | .unmap q => Sys2Proof.Machine.execUnmap q s
  | .xferToDevice q => Sys2Proof.Machine.execXferToDevice q s
  | .xferToHost q => Sys2Proof.Machine.execXferToHost q s
  | .badkindEntry q => Sys2Proof.Machine.execBadkindEntry q s
  | .doorbell src q v => Sys2Proof.Machine.execDoorbell src q v s
  | .taskRegister src d l v => Sys2Proof.Machine.execTaskRegister src d l v s
  | .clusterWakeRegister src k v => Sys2Proof.Machine.execClusterWakeRegister src k v s
  | .winshift v => Sys2Proof.Machine.execWinshift v s
  | .wakeerr v => Sys2Proof.Machine.execWakeerr v s
  | .registerWrite src bar offset bytes => Sys2Proof.Machine.execRegisterWrite src bar offset bytes s
  | .signTableReadArrival c => Sys2Proof.Machine.execSignTableReadArrival c s
  | .readDisturbRefresh stack bad => Sys2Proof.Machine.execReadDisturbRefresh stack bad s
  | .wearLevelling stack meanPe maxPe bad => Sys2Proof.Machine.execWearLevelling stack meanPe maxPe bad s
  | .throttleThresholdCrossing d hot => Sys2Proof.Machine.execThrottleThresholdCrossing d hot s

end Sys2Proof.Machine
end

