-- ==== Sys2Proof/Machine/Cycle.lean ====
section
/-! DEFINITION. One cycle of the package: fetch and issue on a core (01 R5 to R16, 02 R43), gangs in lockstep (10 R205), and the
order in which the actions of a cycle are taken (10 R224 of 11, 10 R207, 14 R282 to R284). -/

namespace Sys2Proof.Machine

/-! ### Fetch and issue -/

/-- The word of a slot of a bundle in the instruction scratchpad (01 R10). -/
def Core.slotWord (k : Core) (pc slot : Nat) : Nat := k.sto.imem.readLe (32 * pc + 4 * slot) 4

/-- A slot of a bundle in hand: its index, and its instruction or why its word is refused. -/
abbrev SlotIn := Nat × Except DecodeErr Instr

/-- The slots of a bundle that are not NOP, in the order of 01 R10. -/
def Core.fetch (k : Core) (pc : Nat) : List SlotIn :=
  ((List.range 8).map fun n => (n, decodeSlot (slotClassOf n) (k.slotWord pc n))).filter fun x => match x.2 with
    | .ok .nop => false
    | _ => true

/-- The state that an outcome leaves; a meaning never stops. -/
def after (s : State) (o : Host.Outcome State Fault Refusal) : State :=
  match o with
  | .next t => t
  | .fault _ => s
  | .refused _ => s

/-- The opcode of a slot's word (02 R31). -/
def Core.slotOp (k : Core) (pc slot : Nat) : Nat := k.slotWord pc slot / 2 ^ 25

/-- Step 1 of 02 R43 for a word with a reserved field set: whether its opcode is forbidden where the core stands (01 R12, 03 R69, R70, 04 R96,
12 R246). -/
def bannedOp (cls : SlotClass) (op : Nat) (k : Core) : Bool :=
  match cls with
  | .sa =>
    if 0x40 ≤ op ∧ op ≤ 0x43 ∨ op = 0x5E then banTransfer k
    else if op = 0x46 then banLoopr k
    else if 0x44 ≤ op ∧ op ≤ 0x47 then banLoop k
    else if op = 0x49 ∨ op = 0x5D then k.rpl
    else if op = 0x54 ∨ op = 0x56 then k.inDelay
    else if op = 0x55 then k.inDelay || k.atEnd
    else false
  | .mem => k.rpl && decide (0x18 ≤ op ∧ op ≤ 0x1C ∨ 0x21 ≤ op ∧ op ≤ 0x24 ∨ op = 0x29 ∨ 0x34 ≤ op ∧ op ≤ 0x3E)
  | _ => false

/-- One slot in one of the passes of 02 R43. -/
def State.slotPass (p : Phase) (s : State) (x : SlotIn) : State :=
  let s := { s with latch := { s.latch with phase := p, slot := x.1 } }
  match x.2 with
  | .ok i => after s (exec i s)
  | .error e =>
    match p, e with
    | .check, .illegal => s.note { cause := .illegalInstruction }
    | .check, .reserved =>
      let banned := bannedOp (slotClassOf x.1) (s.me.slotOp s.me.seq.pc.toNat x.1) s.me
      s.note { cause := if banned then .illegalInstruction else .reservedField }
    | _, _ => s

/-- One pass over the slots of a bundle. -/
def State.slotPasses (l : List SlotIn) (p : Phase) (s : State) : State := l.foldl (State.slotPass p) s

/-- The bundle issues: a lone instruction by its own meaning, a fuller bundle by the passes over its slots. -/
def State.issueBundle (s : State) (l : List SlotIn) : State :=
  match l with
  | [] => after s (exec .nop { s with latch := {} })
  | [(n, .ok i)] => let s := { s with latch := { slot := n } }; after s (exec i s)
  | _ => { s with latch := {} }.issue (State.slotPasses l)

/-- The loop that a record's kernel runs under (10 R213): pushed the first time that fetch reaches KER. -/
def State.enterKernel (s : State) (r : RunRec) : Except Trap State :=
  let k := s.me
  if k.seq.taskEntered || k.seq.pc ≠ r.ker then .ok s
  else if k.ldepth ≠ 0 then .error { cause := .illegalInstruction }
  else if r.trip = 0 then .ok (s.setMe { k with seq := { k.seq with taskEntered := true, pc := r.epi } })
  else .ok (s.setMe { k with seq := { k.seq with taskEntered := true, iterCycles := 0,
                                                 loops := [{ start := r.ker, fin := r.epi - 1, count := r.trip }] } })

/-- Fetch waits for a segment copy into the half that it reads (03 R81, 14 R299); in a handler, a poisoned bundle does not issue while its
event is held (22 R380, 21 R369). (DEDUCED, log 25) -/
def Core.fetchWaits (k : Core) : Bool :=
  (k.live && k.sto.ipoison.contains k.seq.pc.toNat) ||
  match k.sto.seg.copy with
  | some (_, half, _) => decide (k.seq.pc.toNat / 4096 = half)
  | none => false

/-- The running core's cycle: the bundle at its pc waits, traps or issues. -/
def State.bundle (s : State) : State :=
  let k := s.me
  if k.fetchWaits then s.waitCycle false
  else match k.run.map s.enterKernel with
    | some (.error t) => s.trapAtIssue t 0
    | some (.ok s) => s.issueBundle (s.me.fetch s.me.seq.pc.toNat)
    | none => s.issueBundle (k.fetch k.seq.pc.toNat)

/-- A poisoned bundle fetched (22 R380, R383): an event of kind B, which a handler holds. (DEDUCED, log 25) -/
def State.fetchPoison (s : State) (c : Fin 256) : State :=
  let k := s.core c
  if k.seq.mode = .running && k.sto.ipoison.contains k.seq.pc.toNat then
    if k.seq.events.any fun x => x.trap.cause = .poisonConsumption && x.trap.sub = 4 then s
    else
    let (u, s) := s.choose 255
    let r : TrapReq := { trap := { cause := .poisonConsumption, sub := 4,
                                   tval := BitVec.ofNat 64 (u * 256 + k.seq.pc.toNat * 65536) }, kind := .b }
    s.onCore c fun k => { k with seq := { k.seq with events := k.seq.events ++ [r] } }
  else s

/-- A cycle of a core that waits after its bundle, at no point where a request can be honoured: it counts toward the iteration (21 R374). -/
def State.countCycle (s : State) : State :=
  let c := s.me
  (s.setMe (if c.rpl then c else { c with seq := { c.seq with iterCycles := c.seq.iterCycles + 1 } })).endCoreCycle

/-- The cycle of a core that issues nothing: pending writes complete; a frozen clock stands. -/
def State.idleCycle (s : State) : State :=
  match s.me.seq.mode with
  | .halted => s
  | .filling _ _ _ => s
  | .frozen _ => s
  | .restoring _ => s
  | .saving (some _) => s
  | .halting code v => if s.me.settled then s.endRecord s.cur code.toNat v else s.endCoreCycle
  | .serving n =>
    if s.me.settled then
      let s := match s.me.run with
        | some r => s.hold r.ctx ⟨0, 32, 0, BitVec.ofNat 8 s.cur.val, BitVec.ofNat 8 r.launch, n.setWidth 64, 0, none, false⟩
        | none => s
      (s.onCore s.cur fun k => { k with seq := { k.seq with mode := .held n } }).endCoreCycle
    else s.countCycle
  | .held _ => s.countCycle
  | .trapping _ => s.countCycle
  | _ => s.endCoreCycle

/-- The cycle of one core. -/
def State.soloCycle (s : State) (c : Fin 256) : State :=
  let s := { s with cur := c, latch := {} }
  if s.me.seq.mode = .running then (s.bundle).releasePromises c else s.idleCycle

/-! ### Gangs in lockstep (10 R205) -/

/-- A member holds for a cycle: its suppressed bundle waits, anything else goes on. (DEDUCED, log 23) -/
def State.holdMember (s : State) (c : Fin 256) : State :=
  let s := { s with cur := c, latch := {} }
  if s.me.seq.mode = .running then s.waitCycle false else s.idleCycle

/-- What became of a member's bundle if it issued in this cycle. -/
def State.memberVerdict (s : State) (c : Fin 256) : Verdict := (({ s with cur := c, latch := {} }).bundle).latch.verdict

/-- A fused gang's cycle: either every member issues or none does. (DEDUCED, log 23) -/
def State.gangCycle (s : State) (ms : List (Fin 256)) : State :=
  let mode (c : Fin 256) : RunMode := (s.core c).seq.mode
  if ms.any fun c => (s.core c).entering then
    ms.foldl (fun s c => if (s.core c).entering then s else s.holdMember c) s
  else if ms.any fun c => match mode c with | .filling _ _ _ => true | .frozen _ => true | _ => false then s
  else if !(ms.all fun c => mode c = .running) then ms.foldl State.holdMember s
  else
    let vs := ms.map fun c => (c, s.memberVerdict c)
    if vs.any fun v => v.2 = .trapped then
      let s := ms.foldl (fun s c => s.onCore c fun k => k.setGang k.gmask 2) s
      vs.foldl (fun s v => if v.2 = .trapped then s.soloCycle v.1 else s.holdMember v.1) s
    else if vs.any fun v => v.2 = .froze then
      vs.foldl (fun s v => if v.2 = .froze then s.soloCycle v.1 else s) s
    else if vs.any fun v => v.2 = .waited then
      vs.foldl (fun s v => if v.2 = .waited then s.soloCycle v.1 else s.holdMember v.1) s
    else ms.foldl State.soloCycle s

/-- Every member of a fused gang is on its core: after a pre-emption they come back one by one (10 R205). -/
def State.together (s : State) (c : Fin 256) : Bool :=
  ((s.core c).gang c).all fun x => (s.core x).gmask = (s.core c).gmask && (s.core x).gstate = 1

/-- A core's members in lockstep: its gang while fused, else itself; none while a member of the gang is not back yet. -/
def State.lockstep (s : State) (c : Fin 256) : List (Fin 256) :=
  let k := s.core c
  if k.gstate = 1 then (if s.together c then k.gang c else []) else [c]

/-- DECOUPLE has reached one member at the end of its bundle's cycle, and reaches all of them with it (10 R205). -/
def State.spreadDecouple (s : State) : State :=
  { s with cores := Vector.ofFn fun c : Fin 256 =>
      let k := s.core c
      if k.gstate = 1 && (k.gang c).any fun x => (s.core x).gmask = k.gmask && (s.core x).gstate = 2 then k.setGang k.gmask 2 else k }

/-- The cycle of a core, or of the gang that it leads. -/
def State.coreCycle (s : State) (c : Fin 256) : State :=
  match s.lockstep c with
  | [] => s
  | [_] => s.soloCycle c
  | ms => s.gangCycle ms

/-! ### The parts of a cycle -/

/-- The messages that have arrived, of one kind. -/
def State.arrived (s : State) (p : MsgBody → Bool) : List Msg := s.msgs.filter fun m => decide (m.at_ ≤ s.clock) && p m.body

/-- All cores. -/
def allCores : List (Fin 256) := (List.range 256).map coreId

/-- All faces, clusters and groups of four cores. -/
def allClusters : List (Fin 64) := (List.range 64).map (Fin.ofNat 64)

/-- The four dies. -/
def allDies : List (Fin 4) := [0, 1, 2, 3]

/-- An event on the agenda. -/
def ev (i : Instr) : Act := .event i

/-- An event of the table's end on the agenda. -/
def lv (e : Late) : Act := .late e

/-- A cut that the host asks for waits for the Winder's turn in the cycle (11 R224). -/
def isCut : Instr → Bool
  | .retirementCut _ _ _ _ _ => true
  | _ => false

/-- What begins with the cycle, and what the outside has done (22 R390, R395, 24 R420): the events of a window's first cycle count in that
window, and a WINSHIFT written in it waits for the next one. (DESIGN CHOICE, log 6) -/
def State.planBegin (s : State) : List Act :=
  (if s.windowStarts then [ev .countingWindowBoundary] else []) ++ (s.inbox.filter fun i => !isCut i).map ev ++
    (if s.clock % 128 = 0 then allDies.filterMap fun d => (s.dies[d]).newStep.map fun v => lv (.thermalStepChange d v) else []) ++
    (s.hbmStacks.toList.zipIdx.flatMap fun h => h.1.steps.filterMap fun x =>
      if x.2.2.2 ≤ s.clock then some (lv (.repairStepEnd (Fin.ofNat 12 h.2) (Fin.ofNat 32 x.1))) else none)

/-- The Winder's slots with a meaning of their own (24 R410), and the cuts that retire pages in this cycle (22 R397, R398). -/
def State.planWinder (s : State) : List Act :=
  (if s.fwOk && decide (s.clock % 128 ≤ 16) then [ev .winderFrame] else []) ++
    (s.cuts.filterMap fun k => match k.page with
      | some p => if k.ripe s.clock then some (lv (.retirementCut (Fin.ofNat 64 k.ctx) (BitVec.ofNat 40 (p * 2 ^ 21)) k.res k.stack k.finder)) else none
      | none => none) ++
    (s.inbox.filter isCut).map ev

/-- The event of a host-queue entry. -/
def State.planEntries (s : State) : List Act :=
  s.queues.filterMap fun q => if q.2.pending then some (lv (s.entryEvent (Fin.ofNat 1024 q.1))) else none

/-- Messages that arrive in one cycle are served by core, those of one core in issue order; pops follow the pushes (10 R207, R209,
12 R242, R256). -/
def MsgBody.flagKey : MsgBody → Nat
  | .tqPush c _ _ _ _ _ _ _ _ => c
  | .tqPop c _ _ _ _ _ _ _ _ => 256 + c
  | .semReq _ w => 8 * w.core + w.slot
  | .futFill c _ _ _ k => 8 * c + k
  | .ratom c _ _ _ _ _ _ _ _ _ _ _ _ _ _ _ => c
  | _ => 0

/-- Messages of the flag stores, the group table, cores and engines. -/
def State.planMessages (s : State) : List Act :=
  let inc := (s.arrived fun b => match b with | .semInc _ _ _ => true | .signal _ _ _ _ _ => true | _ => false).map
    fun m => ev (.semaphoreIncrement m.id)
  let tq := (sortOn (fun m : Msg => m.body.flagKey) (s.arrived fun b => match b with
      | .tqPush _ _ _ _ _ _ _ _ _ => true
      | .tqPop _ _ _ _ _ _ _ _ _ => true
      | _ => false)).map fun m => ev (match m.body with | .tqPush _ _ _ _ _ _ _ _ _ => .tokenQueuePush m.id | _ => .tokenQueuePop m.id)
  let other := (s.arrived fun _ => true).filterMap fun m => match m.body with
    | .arrive _ _ => some (ev (.barrierArrival m.id))
    | .resume _ _ _ _ => some (ev (.barrierResume m.id))
    | .probe _ _ _ _ _ _ _ _ => some (ev (.remoteTagProbe m.id))
    | .landed _ _ _ => some (ev (.landingArrival m.id))
    | .futAnswer _ _ _ => some (ev (.futfillAnswer m.id))
    | .flush _ _ => some (lv (.hostFlushReadComplete m.id))
    | .netAck _ _ => some (lv (.netAckReceive m.id))
    | _ => none
  let wake := (s.arrived fun _ => true).filterMap fun m => match m.body with
    | .wake src off bs => some (src, off, bs)
    | _ => none
  inc ++ tq ++ other ++ (s.wakeQuiet wake).map fun w => lv (.registerWrite w.1 2 w.2.1 w.2.2)

/-- The decrements that a die's semaphores can make: one for each waiter while the count lasts. -/
def State.planGrants (s : State) : List Act :=
  allDies.flatMap fun d =>
    ((s.dies[d]).semWait.map SemWaiter.sem).eraseDups.flatMap fun f =>
      List.replicate (min ((s.dies[d]).sem f).count.toNat ((s.dies[d]).semWait.filter fun w => w.sem = f).length)
        (ev (.semaphoreDecrementGrant d (Fin.ofNat 4096 f)))

/-- The power state of a cluster changes (24 R419). (DEDUCED, log 38) -/
def State.planPower (s : State) (k : Fin 64) : List Act :=
  match s.power[k] with
  | .run none => []
  | .run (some t) => if s.since (4 * k.val) t 1024 && s.clusterIdle k then [lv (.clusterClockGate k)] else []
  | .clock => if s.wakeCause k then [lv (.clusterClockWake k)] else if s.stay.getLsbD k.val then [] else [lv (.clusterClockGate k)]
  | .leavingClock t => if t ≤ s.clock then [lv (.clusterClockWake k)] else []
  | .retain => if s.bound k || s.stay.getLsbD k.val then [lv (.retainWakeHandshake k)] else []
  | .leavingRetain t => if t ≤ s.clock then [lv (.retainWakeHandshake k)] else []

/-- The bind record that a die carries out next (10 R217). -/
def State.planBind (s : State) (d : Fin 4) : List Act :=
  match s.bindHead d with
  | none => []
  | some b => match s.bindNow (coreId b.core) with
    | none => []
    | some x => match x.act with
      | .start _ => [lv (.start (coreId b.core))]
      | .resume _ => [lv (.resume (coreId b.core))]
      | .preempt => [lv (.preempt (coreId b.core))]

/-- The pre-emption of a core goes on (21 R375). -/
def State.planSave (s : State) (c : Fin 256) : List Act :=
  match (s.core c).seq.mode with
  | .saving none => if (s.core c).drained then [lv (.preemptHonour c)] else []
  | .saving (some t) => if t ≤ s.clock && !s.areaStalled c then [lv (.preemptHonour c)] else []
  | .restoring t => if t ≤ s.clock && !s.areaStalled c then [lv (.resume c)] else []
  | _ => if (s.core c).seq.preempt && s.honourNow c then [lv (.preemptHonour c)] else []

/-- Waits of a core that end by time. -/
def State.planWaits (s : State) (c : Fin 256) : List Act :=
  let k := s.core c
  (match k.seq.mode with
   | .filling t u hs => if !hs.isEmpty && s.since c.val t 65536 then [ev (.handleFillTimeout c)] else if u ≤ s.clock then [ev (.handleFill c)] else []
   | .frozen t => if s.since c.val t 4096 then [ev (.landingWatchdog c)] else []
   | .asleep w none => if s.past w then [ev (.sleepWake c)] else []
   | _ => []) ++
  (match k.gangWait with
   | some (t, _) => if s.since c.val t 65536 then [ev (.gangTimeout c)] else []
   | none => []) ++
  (match k.sto.seg.copy with
   | some (_, _, t) => if t ≤ s.clock then [ev (.segmentCopyLand c)] else []
   | none => []) ++
  (if k.seq.wait.any fun w => match w with | .sgSent _ t rows => decide (t ≤ s.clock) && !rows.any s.rowStalled | _ => false then [lv (.signTableReadArrival c)] else [])

/-- The gangs of a cluster (10 R204, R205). -/
def State.planGang (s : State) (k : Fin 64) : List Act :=
  let masks := ((clusterCores k).filterMap fun c => (s.core c).fuseMask).eraseDups
  (if (s.mismatched k).isEmpty then (masks.filter fun m => m ≠ 0 && s.allFused k m).map fun m => ev (.gangFuse k m)
   else [ev (.gangFuse k 0)]) ++
  (if (clusterCores k).any fun c => s.allRejoined c then [ev (.gangRejoin k)] else [])

/-- Structural tests and fences (22 R392, R393): a test that nothing outside has ended ends with its 2^20 cycles, passed or failed. (DESIGN
CHOICE, log 40) -/
def State.planTests (s : State) : List Act :=
  ((List.range 320).filterMap fun u => let u := Fin.ofNat 320 u
    if s.testReady u then some (lv (.targetedTestStart u))
    else if s.testOver u then some (lv (.targetedTestEnd u (BitVec.ofNat 1 (s.freeAt u.val)))) else none) ++
    allClusters.filterMap fun k =>
      if (s.faces[k]).quarantined && s.clusterFree k && s.clusters.getLsbD k.val then some (lv (.clusterFence k)) else none

/-- The commands at the heads of a core's queues (14 R282, 16 R349). (DEDUCED, log 19) -/
def State.planStarts (s : State) (c : Fin 256) : List Act :=
  ([0, 1, 2] : List (Fin 3)).flatMap fun q =>
    match (s.core c).head q.val with
    | none => []
    | some cmd =>
      match s.startStep c q.val cmd with
      | .wait => []
      | .begin => [if cmd.op.toNat = 0x54 then lv (.decodeJobAccept c) else ev (.engineCommandStart c q)]
      | _ => [ev (.engineCommandStart c q)]

/-- The leases of a face (08 R164). -/
def State.planLease (s : State) (k : Fin 64) : List Act :=
  (match (s.faces[k]).lease with
   | some l => if !l.expired && decide (l.expiry ≤ s.clock) then [ev (.leaseExpiry k)] else []
   | none => []) ++ (if s.canGrant k then [ev (.faceLeaseGrant k)] else [])

/-- A die's clock ticks in this cycle (24 R420): in 5 − STEP of every 5 cycles. (DEDUCED, log 9) -/
def State.ticks (s : State) (d : Fin 4) : Bool := decide (s.clock % 5 < 5 - (s.dies[d]).step.toNat)

/-- The cores' own actions: a trap entry in place of an issue, or a cycle; a gang acts with its leader. -/
def State.planCores (s : State) : List Act :=
  (allCores.filter fun c => s.ticks (dieOf c.val) && (s.core c).seq.mode ≠ .halted).flatMap fun c =>
    let ms := s.lockstep c
    if ms.head? ≠ some c then []
    else
      let enter := (ms.filter fun x => (s.core x).entering).map fun x => ev (.trapEntry x)
      if ms.length = 1 && !enter.isEmpty then enter else .core c :: enter

/-- The changes of PIN that the cores' issues ask for, made at the homes of entries: by core, in the order of issue (11 R224, R225). -/
def State.planPins (s : State) : State :=
  let l := sortOn (fun m : Msg => match m.body with | .pin c _ _ _ => c | _ => 0) (s.arrived fun b => match b with | .pin _ _ _ _ => true | _ => false)
  l.foldl (fun s m => match m.body with
    | .pin _ ctx h up => (s.dropMsg m.id).pin ctx h up
    | _ => s) s

/-- The cores' changes at the homes of entries: by core, MA before MB (11 R224). -/
def State.planHomes (s : State) : List Act :=
  let tile := allCores.flatMap fun c => ((s.core c).eng.queues.getD 1 []).filterMap fun x =>
    match s.consumeAt c x with
    | some t => if t ≤ s.clock then some (ev (.aTileConsumed c x.id)) else none
    | none => none
  let place (b : MsgBody) : Nat := match b with
    | .hrebind c id => 8 * c + (((s.core (coreId c)).cmd id).map fun x => x.slot.toNat).getD 0
    | b => b.flagKey
  let other := (sortOn (fun m : Msg => place m.body) (s.arrived fun _ => true)).filterMap fun m => match m.body with
    | .futFill _ _ _ _ _ => some (ev (.futureFillApply m.id))
    | .hrebind _ _ => some (ev (.hrebindApply m.id))
    | _ => none
  tile ++ other ++ s.planUnits

/-- The Prospectors (15 R313), then the requests that reach the fetch queues. -/
def State.planProspectors (s : State) : List Act :=
  (allDies.filterMap fun d => match (s.dies[d]).prosp with
    | j :: _ => if j.at_ ≤ s.clock then some (ev (.prospectorSelection d)) else none
    | [] => none) ++
    (s.arrived fun b => match b with | .fetchReq _ _ => true | _ => false).map fun m => ev (.fetchRequest m.id)

/-- Fetch queues, and the ends of staging fetches (15 R308, R309). -/
def State.planFetches (s : State) : List Act :=
  (allDies.filterMap fun d => if (s.dies[d]).fetch.isEmpty then none else some (ev (.fetchQueueServe d))) ++
    s.ctxs.flatMap fun x => x.2.slots.zipIdx.filterMap fun sl => match sl.1.due with
      | some t => if t ≤ s.clock then some (ev (.stagingFetchComplete (Fin.ofNat 64 x.1) sl.2)) else none
      | none => none

/-- Commands whose last effect is due (14 R283); of one core the face's before the copies, as 05 R114 orders their NaN events. -/
def State.planCompletions (s : State) : List Act :=
  allCores.flatMap fun c => ([1, 0, 2] : List (Fin 3)).flatMap fun q =>
    ((s.core c).eng.queues.getD q.val []).filterMap fun x =>
      if s.cmdDue x then some (ev (.engineCommandComplete c q x.id)) else none

/-- The issuing core and the bank of an RATOM, and whether its step waits for a held ATOM of the owner on its word (12 R241, R242). -/
def State.ratomAt (s : State) : MsgBody → (Nat × Nat × Nat) × Bool
  | .ratom c _ ctx _ e off _ w64 _ _ _ _ _ _ _ _ =>
    ((c, Ent.rcore e, Ent.rbank e), s.runsCtx (Ent.rcore e) ctx &&
      (s.core (coreId (Ent.rcore e))).atomHeld (bankAddr (Ent.rbank e) (Ent.base e + off.toNat)) (if w64 then 8 else 4))
  | _ => ((0, 0, 0), false)

/-- The RATOM steps at the end of a cycle, after the engine writes of the cycle; those of one core reach a bank in issue order (12 R242). A
step waits while the owner holds an ATOM on the word. (DEDUCED, log 12) -/
def State.planRatoms (s : State) : List Act :=
  let l := sortOn (fun m : Msg => m.body.flagKey) (s.arrived fun b => match b with
    | .ratom _ _ _ _ _ _ _ _ _ _ _ _ _ _ _ _ => true
    | _ => false)
  let waiting := (l.filter fun m => (s.ratomAt m.body).2).map fun m => ((s.ratomAt m.body).1, m.id)
  (l.filter fun m => !(waiting.any fun w => w.1 = (s.ratomAt m.body).1 && decide (w.2 ≤ m.id))).map fun m => ev (.ratomStep m.id)

/-- What follows the completions of a cycle: leases end, packets are placed, promise sleeps are checked, retirements reported,
remote steps applied. -/
def State.planEnd (s : State) : List Act :=
  (allClusters.filterMap fun k => if s.leaseOver k then some (ev (.leaseEnd k)) else none) ++
    (allCores.flatMap fun c => (s.core c).eng.subs.filterMap fun x =>
      if s.canPlace c x || s.mayEnd c x then some (ev (.packetPlace c x.id))
      else if x.list && !x.ready && !x.suspended && decide (x.at_ ≤ s.clock) then some (lv (.listRecordReread c x.id)) else none) ++
    (allCores.filterMap fun c => match (s.core c).seq.mode with
      | .asleep w (some _) => if s.past w then some (ev (.sleepWake c)) else none
      | _ => none) ++
    (s.ctxs.flatMap fun x => (x.2.retired.takeWhile fun r => decide (r.at_ ≤ s.clock)).map fun _ =>
      lv (.retirementReport (Fin.ofNat 64 x.1))) ++ s.planRatoms

/-- The actions of one part of a cycle, listed when the part is reached; requests that have reached a flag store wait there. What the cores do
in a cycle sees entries as they were before the cycle's changes: those of the Winder, the Prospectors and the cores follow, in that order
(11 R224). The errors of a cycle count after a window's boundary; the Winder's part ends the cycle. (DEDUCED, log 11) -/
def State.plan (s : State) (n : Nat) : State × List Act :=
  match n with
  | 0 => ({ s with inbox := s.inbox.filter isCut }, s.planBegin)
  | 1 =>
    let s := ((s.errors.foldl State.hwError { s with errors := [] }).moveJobs 0).moveJobs 1
    ({ s with msgs := s.msgs.filter fun m => !(decide (m.at_ ≤ s.clock) && match m.body with | .wake _ _ _ => true | _ => false) },
    s.planMessages)
  | 2 =>
    let s := (sortOn (fun m : Msg => m.body.flagKey) (s.arrived fun b => match b with | .semReq _ _ => true | _ => false)).foldl
      (fun s m => s.semArrive m.id) s
    (s, s.planGrants)
  | 3 => (s, allClusters.flatMap s.planPower ++ s.planTests)
  | 4 => (s.seeTasks, allDies.flatMap s.planBind)
  | 5 => (s, allCores.flatMap s.planSave)
  | 6 => (s, allCores.flatMap s.planWaits ++ allClusters.flatMap s.planGang)
  | 7 => (s, allCores.flatMap s.planStarts)
  | 8 => (s, allClusters.flatMap s.planLease)
  | 9 => let s := (allCores.filter fun c => s.ticks (dieOf c.val)).foldl State.fetchPoison s.spreadDecouple; (s, s.planCores)
  | 10 =>
    let s := (s.orders.foldl State.order { s with orders := [] }).ripen.moveOwns
    ({ s with inbox := [] }, s.planWinder)
  | 11 => (s, s.planEntries)
  | 12 => (s, s.planProspectors)
  | 13 => (s, s.planFetches)
  | 14 => (s.planPins, s.planHomes)
  | 15 => (s, s.planCompletions)
  | 16 => (s, s.planEnd)
  | 17 => ({ s.winderEnd with netAnswers := [], netPoison := [] }, [])
  | _ => (s, [])

/-- The next action, from part n of the cycle on; `k` parts are left. The last action of a cycle is its end. Binds of one cycle
are carried out one after the other. (DEDUCED, log 11) -/
def State.nextFrom : Nat → State → Act × State
  | 0, s => (.tick, s)
  | k + 1, s =>
    let n := 17 - k
    let r := s.agenda
    match s.plan n with
    | (t, []) => State.nextFrom k t
    | (t, a :: l) => (a, { t with agenda := l ++ .part (if n = 4 then 4 else n + 1) :: r })

/-- The next action of the package. -/
def State.nextAct (s : State) : Act × State :=
  match s.agenda with
  | [] => State.nextFrom 18 s
  | .part n :: r => State.nextFrom (18 - n) { s with agenda := r }
  | a :: r => (a, { s with agenda := r })

/-- A cluster's idle time is counted (24 R419). -/
def State.idleTime (s : State) (k : Fin 64) : Power :=
  match s.power[k] with
  | .run t => if s.clusterIdle k then .run (some (t.getD (s.clock + 1))) else .run none
  | p => p

/-- The end of a cycle: CYCLE counts on (01 R23). (DEDUCED, log 11) -/
def State.tick (s : State) : State := { s with clock := s.clock + 1, power := Vector.ofFn s.idleTime }

/-- An event of the table's end carried out: `exec` of the event that Instr gives the same name. -/
def State.late (s : State) : Late → Host.Outcome State Fault Refusal
  | .listRecordReread c n => execListRecordReread c n s
  | .decodeJobAccept c => execDecodeJobAccept c s
  | .decodeChunkFinish u => execDecodeChunkFinish u s
  | .decodeJobComplete u => execDecodeJobComplete u s
  | .hostFlushReadComplete m => execHostFlushReadComplete m s
  | .netAckReceive m => execNetAckReceive m s
  | .start c => execStart c s
  | .resume c => execResume c s
  | .preempt c => execPreempt c s
  | .preemptHonour c => execPreemptHonour c s
  | .clusterClockGate k => execClusterClockGate k s
  | .clusterClockWake k => execClusterClockWake k s
  | .retainWakeHandshake k => execRetainWakeHandshake k s
  | .thermalStepChange d v => execThermalStepChange d v s
  | .repairStepEnd stack pch => execRepairStepEnd stack pch s
  | .retirementReport x => execRetirementReport x s
  | .targetedTestStart u => execTargetedTestStart u s
  | .targetedTestEnd u pass => execTargetedTestEnd u pass s
  | .retirementCut x va res stack finder => execRetirementCut x va res stack finder s
  | .clusterFence k => execClusterFence k s
  | .launch q => execLaunch q s
  | .post q => execPost q s
  | .install q => execInstall q s
  | .uninstall q => execUninstall q s
  | .release q => execRelease q s
  | .attest q => execAttest q s
  | .contextCreate q => execContextCreate q s
  | .contextDestroy q => execContextDestroy q s
  | .window q => execWindow q s
  | .kill q => execKill q s
  | .map q => execMap q s
  | .unmap q => execUnmap q s
  | .xferToDevice q => execXferToDevice q s
  | .xferToHost q => execXferToHost q s
  | .badkindEntry q => execBadkindEntry q s
  | .registerWrite src bar offset bytes => execRegisterWrite src bar offset bytes s
  | .signTableReadArrival c => execSignTableReadArrival c s

/-- An action carried out. -/
def State.act (s : State) : Act → Host.Outcome State Fault Refusal
  | .event i => exec i s
  | .late e => s.late e
  | .core c => .next (s.coreCycle c)
  | .part _ => .next s
  | .tick => .next s.tick

end Sys2Proof.Machine
end

