-- ==== Sys2Proof/Machine/Step.lean ====
section
/-! DEFINITION. One step of the package: the next action of the current cycle, carried out; and the state in which the next step
runs a given slot word. -/

namespace Sys2Proof.Machine

/-- One step: the next action (an event of the package, a core's cycle, the end of the cycle), carried out. (DEDUCED, log 11) -/
def step (s : State) : Host.Outcome State Fault Refusal :=
  let a := s.nextAct
  a.2.act a.1

/-- Core 0 about to issue a bundle that holds one slot word at its pc: the word's bytes little-endian in the instruction
scratchpad, the bundle's other words zero, the core running, its cycle next. (DEDUCED, log 10) -/
def State.withSlotWord (s : State) (slot w : Nat) : State :=
  let k := s.core 0
  let bytes := natLe (4 * slot) 0 ++ natLe 4 w ++ natLe (28 - 4 * slot) 0
  let k := { k with sto := { k.sto with imem := k.sto.imem.writeN (32 * k.seq.pc.toNat) bytes }
                    seq := { k.seq with mode := .running } }
  { s with cores := s.cores.set 0 k, agenda := .core 0 :: s.agenda }

/-- The lowest slot of each class (01 R10). (DEDUCED, log 10) -/
def slotOfClass : SlotClass → Nat
  | .sa => 0
  | .sb => 1
  | .vector => 2
  | .fn => 5
  | .mem => 6

/-- The handles that an instruction uses, filled: fetch of its bundle needs no handle-cache fill (11 R228). (DEDUCED, log 10) -/
def State.withHandles (s : State) (slot : Nat) (i : Instr) : State :=
  let p := after s (exec i { s with cur := 0, latch := { phase := .probe, slot := slot } })
  let k := s.core 0
  { s with cores := s.cores.set 0 { k with sto := { k.sto with hcache :=
      (p.latch.uses.eraseDups.map fun h => (h, s.homeEntry ((k.ctx).getD 64) h)) ++ k.sto.hcache } } }

/-- The state whose next step fetches and runs the slot word w on core 0: the word stands in the first slot of its class. (DEDUCED, log 10) -/
def State.withFetchWord (s : State) (_nbits w : Nat) : State :=
  match decodeTableSlot w with
  | some (c, i) => (s.withSlotWord (slotOfClass c) w).withHandles (slotOfClass c) i
  | none => s.withSlotWord 0 w

end Sys2Proof.Machine
end

