-- ==== Sys2Proof/Safety.lean ====
section
/-! DEFINITION. What counts as a safe run (every memory in canonical form, every step answered), and when a bundle that holds one
instruction issues. -/

namespace Sys2Proof.Machine

/-- A core's memories are in canonical form. -/
def Core.memOk (k : Core) : Bool := k.sto.spad.wf && k.sto.imem.wf

/-- The memories of a saved context are in canonical form. -/
def TaskRec.memOk (t : TaskRec) : Bool := t.saved.all Core.memOk

/-- What a launch has left on a core is in canonical form. -/
def Launch.memOk (l : Launch) : Bool := l.kept.all fun k => k.2.memOk

/-- Every memory of the package is in canonical form: the two of each core, of each saved context and of what launches have left on
cores, the HBM, the host's, each context's flash. -/
def State.memOk (s : State) : Bool :=
  s.cores.toList.all Core.memOk && (s.dies.toList.all fun d => d.tasks.all TaskRec.memOk) && (s.launches.all fun l => l.2.memOk) &&
    s.hbm.wf && s.host.wf && s.ctxs.all fun x => x.2.flash.wf

/-- What every step keeps: every memory in canonical form, the contexts in order of their numbers. -/
def State.inv (s : State) : Prop := s.memOk = true ∧ s.ctxs.Pairwise fun a b => a.1 < b.1

/-- A run of n steps that never stops. -/
def State.runs (s : State) : Nat → Prop
  | 0 => True
  | n + 1 => ∃ t, step s = .next t ∧ t.runs n

/-- A lone slot instruction under guard g issues in this cycle, its own conditions apart: it stands in a slot (01 R10), the guard
holds and no rollback squashes it (01 R20, 22 R385), no delay bundle ends a loop (01 R12), no released command waits for room (04 R95),
the iteration is within MAXITER (21 R374), its slot's unit is free (04 R86), and the landing buffer has room for n more results (14 R289). -/
structure State.ready (s : State) (g : Guard) (n : Nat := 0) : Prop where
  solo : s.latch.phase = .solo
  slot : s.latch.slot < 8
  runs : s.me.runs g = true
  place : (s.me.inDelay && s.me.atEnd) = false
  room : s.me.releasing = false
  within : s.me.overrun = none
  unit : s.unitBusy = false
  landings : s.me.seq.landings.length + n ≤ 16

/-- The scalar operands with the given codes, read in field order (03 R59, 01 R18). -/
def State.readAll (s : State) : List Nat → Except Trap (List Word × State)
  | [] => .ok ([], s)
  | a :: r => do
    let (x, s) ← s.readS a
    let (xs, s) ← s.readAll r
    return (x :: xs, s)

/-- The handles are in the core's handle cache (11 R227). -/
def State.cached (s : State) (hs : List Nat) : Prop := s.me.misses hs = []

/-- An engine queue has room for one more command (14 R281); in replay, outside a handler, commands are held instead (04 R95, R97). -/
def State.queueRoom (s : State) (q : Nat) : Prop :=
  s.me.holds = true ∨ (s.me.eng.queues.getD q []).length + (s.me.eng.fault.getD q none).toList.length < 16

end Sys2Proof.Machine
end

