-- ==== Sys2Proof/Certificates/Slice0/Obligations.lean ====
section
/-! DEFINITION. The statements for the provers, with the tables that they are written from. -/

namespace Sys2Proof.Spec

open Sys2Proof.Machine

/-! ### Scalar results and predicates (03 R60 to R66, R74, R78) -/

/-- An instruction that writes a scalar result: guard, operand codes, destination code, latency, and the result, from the state
in which the instruction stands and the operands read. -/
structure ScalarForm where
  g : Guard
  srcs : List Nat
  d : Nat
  l : Nat
  value : State → List Word → Word

/-- A result of the first operand. -/
def un (f : Word → Word) (_ : State) (xs : List Word) : Word := f (xs.getD 0 0)

/-- A result of the first two operands. -/
def bin (f : Word → Word → Word) (_ : State) (xs : List Word) : Word := f (xs.getD 0 0) (xs.getD 1 0)

/-- The table of 03 R60, with R61 (SEL), R62 (division), R63 (constants), R65 (PMOV to a scalar), R66 (QCNT) and R78 (CYC). -/
def scalarForm : Instr → Option ScalarForm
  | .add g d a b => some ⟨g, [a.toNat, b.toNat], d.toNat, 1, bin fun x y => x + y⟩
  | .sub g d a b => some ⟨g, [a.toNat, b.toNat], d.toNat, 1, bin fun x y => x - y⟩
  | .mul g d a b => some ⟨g, [a.toNat, b.toNat], d.toNat, 3, bin fun x y => x * y⟩
  | .mulh g d a b => some ⟨g, [a.toNat, b.toNat], d.toNat, 3, bin fun x y => BitVec.ofInt 64 (x.toInt * y.toInt / 2 ^ 64)⟩
  | .mulhu g d a b => some ⟨g, [a.toNat, b.toNat], d.toNat, 3, bin fun x y => BitVec.ofNat 64 (x.toNat * y.toNat / 2 ^ 64)⟩
  | .div g d a b => some ⟨g, [a.toNat, b.toNat], d.toNat, 20,
      bin fun x y => if y = 0 then BitVec.allOnes 64 else BitVec.ofInt 64 (x.toInt.tdiv y.toInt)⟩
  | .divU g d a b => some ⟨g, [a.toNat, b.toNat], d.toNat, 20,
      bin fun x y => if y = 0 then BitVec.allOnes 64 else BitVec.ofNat 64 (x.toNat / y.toNat)⟩
  | .rem g d a b => some ⟨g, [a.toNat, b.toNat], d.toNat, 20,
      bin fun x y => if y = 0 then x else BitVec.ofInt 64 (x.toInt.tmod y.toInt)⟩
  | .remU g d a b => some ⟨g, [a.toNat, b.toNat], d.toNat, 20,
      bin fun x y => if y = 0 then x else BitVec.ofNat 64 (x.toNat % y.toNat)⟩
  | .and g d a b => some ⟨g, [a.toNat, b.toNat], d.toNat, 1, bin fun x y => x &&& y⟩
  | .or g d a b => some ⟨g, [a.toNat, b.toNat], d.toNat, 1, bin fun x y => x ||| y⟩
  | .xor g d a b => some ⟨g, [a.toNat, b.toNat], d.toNat, 1, bin fun x y => x ^^^ y⟩
  | .shl g d a b => some ⟨g, [a.toNat, b.toNat], d.toNat, 1, bin fun x y => x <<< (y.toNat % 64)⟩
  | .shr g d a b => some ⟨g, [a.toNat, b.toNat], d.toNat, 1, bin fun x y => x >>> (y.toNat % 64)⟩
  | .sar g d a b => some ⟨g, [a.toNat, b.toNat], d.toNat, 1, bin fun x y => BitVec.ofInt 64 (x.toInt / 2 ^ (y.toNat % 64))⟩
  | .rotl g d a b => some ⟨g, [a.toNat, b.toNat], d.toNat, 1, bin fun x y => x.rotateLeft (y.toNat % 64)⟩
  | .min g d a b => some ⟨g, [a.toNat, b.toNat], d.toNat, 1, bin fun x y => BitVec.ofInt 64 (min x.toInt y.toInt)⟩
  | .max g d a b => some ⟨g, [a.toNat, b.toNat], d.toNat, 1, bin fun x y => BitVec.ofInt 64 (max x.toInt y.toInt)⟩
  | .minu g d a b => some ⟨g, [a.toNat, b.toNat], d.toNat, 1, bin fun x y => BitVec.ofNat 64 (min x.toNat y.toNat)⟩
  | .maxu g d a b => some ⟨g, [a.toNat, b.toNat], d.toNat, 1, bin fun x y => BitVec.ofNat 64 (max x.toNat y.toNat)⟩
  | .clz g d a => some ⟨g, [a.toNat], d.toNat, 1, un fun x => BitVec.ofNat 64 (if x = 0 then 64 else 63 - x.toNat.log2)⟩
  | .popc g d a => some ⟨g, [a.toNat], d.toNat, 1, un fun x => BitVec.ofNat 64 ((List.range 64).filter fun i => x.getLsbD i).length⟩
  | .sel g d a b k => some ⟨g, [a.toNat, b.toNat], d.toNat, 1, fun s xs => if s.me.pred k.toNat then xs.getD 0 0 else xs.getD 1 0⟩
  | .addi g d a i => some ⟨g, [a.toNat], d.toNat, 1, un fun x => x + i.signExtend 64⟩
  | .andi g d a i => some ⟨g, [a.toNat], d.toNat, 1, un fun x => x &&& i.signExtend 64⟩
  | .ori g d a i => some ⟨g, [a.toNat], d.toNat, 1, un fun x => x ||| i.signExtend 64⟩
  | .xori g d a i => some ⟨g, [a.toNat], d.toNat, 1, un fun x => x ^^^ i.signExtend 64⟩
  | .shli g d a i => some ⟨g, [a.toNat], d.toNat, 1, un fun x => x <<< i.toNat⟩
  | .shri g d a i => some ⟨g, [a.toNat], d.toNat, 1, un fun x => x >>> i.toNat⟩
  | .sari g d a i => some ⟨g, [a.toNat], d.toNat, 1, un fun x => BitVec.ofInt 64 (x.toInt / 2 ^ i.toNat)⟩
  | .movi g d i => some ⟨g, [], d.toNat, 1, fun _ _ => i.signExtend 64⟩
  | .movhi g d i => some ⟨g, [], d.toNat, 1, fun s _ => (s.me.sreg d.toNat <<< 16) ||| i.setWidth 64⟩
  | .pmovSp g d a => some ⟨g, [], d.toNat, 1, fun s _ => if s.me.pred a.toNat then 1 else 0⟩
  | .qcnt g d a => some ⟨g, [], d.toNat, 1, fun s _ => BitVec.ofNat 64 (s.me.regs.q.getD (a.toNat - 24) []).length⟩
  | .cyc g d => some ⟨g, [], d.toNat, 1, fun s _ => BitVec.ofNat 64 s.clock⟩
  | _ => none

/-! ### Predicates (03 R64, R65) -/

/-- An instruction that writes a predicate: guard, operand codes, destination, and the value. -/
structure PredForm where
  g : Guard
  srcs : List Nat
  d : Nat
  value : State → List Word → Bool

/-- CMP.cond on two operands. -/
def cmpForm (g : Guard) (d : BitVec 3) (a b : BitVec 5) (f : Word → Word → Bool) : PredForm :=
  ⟨g, [a.toNat, b.toNat], d.toNat, fun _ xs => f (xs.getD 0 0) (xs.getD 1 0)⟩

/-- CMPI.cond with a sign-extended immediate. -/
def cmpiForm (g : Guard) (d : BitVec 3) (a : BitVec 5) (i : BitVec 11) (f : Word → Word → Bool) : PredForm :=
  ⟨g, [a.toNat], d.toNat, fun _ xs => f (xs.getD 0 0) (i.signExtend 64)⟩

/-- The conditions of 03 R64 and the operations of 03 R65. -/
def predForm : Instr → Option PredForm
  | .cmpEq g d a b => some (cmpForm g d a b fun x y => decide (x = y))
  | .cmpNe g d a b => some (cmpForm g d a b fun x y => decide (x ≠ y))
  | .cmpLt g d a b => some (cmpForm g d a b fun x y => decide (x.toInt < y.toInt))
  | .cmpLtu g d a b => some (cmpForm g d a b fun x y => decide (x.toNat < y.toNat))
  | .cmpGe g d a b => some (cmpForm g d a b fun x y => decide (y.toInt ≤ x.toInt))
  | .cmpGeu g d a b => some (cmpForm g d a b fun x y => decide (y.toNat ≤ x.toNat))
  | .cmpiEq g d a i => some (cmpiForm g d a i fun x y => decide (x = y))
  | .cmpiNe g d a i => some (cmpiForm g d a i fun x y => decide (x ≠ y))
  | .cmpiLt g d a i => some (cmpiForm g d a i fun x y => decide (x.toInt < y.toInt))
  | .cmpiLtu g d a i => some (cmpiForm g d a i fun x y => decide (x.toNat < y.toNat))
  | .cmpiGe g d a i => some (cmpiForm g d a i fun x y => decide (y.toInt ≤ x.toInt))
  | .cmpiGeu g d a i => some (cmpiForm g d a i fun x y => decide (y.toNat ≤ x.toNat))
  | .pand g d a b => some ⟨g, [], d.toNat, fun s _ => s.me.pred a.toNat && s.me.pred b.toNat⟩
  | .por g d a b => some ⟨g, [], d.toNat, fun s _ => s.me.pred a.toNat || s.me.pred b.toNat⟩
  | .pxor g d a b => some ⟨g, [], d.toNat, fun s _ => xor (s.me.pred a.toNat) (s.me.pred b.toNat)⟩
  | .pnot g d a => some ⟨g, [], d.toNat, fun s _ => !s.me.pred a.toNat⟩
  | .pmovPp g d a => some ⟨g, [], d.toNat, fun s _ => s.me.pred a.toNat⟩
  | .pmovPs g d a => some ⟨g, [a.toNat], d.toNat, fun _ xs => decide (xs.getD 0 0 ≠ 0)⟩
  | _ => none

/-! ### Frames -/

/-- Nothing of the package changes but the stepped core and the latch. -/
def onlyMe (s u : State) : Prop :=
  u = { s with cores := u.cores, latch := u.latch } ∧ ∀ c, c ≠ s.cur → u.core c = s.core c

/-- Nothing is in flight in the core, no request of its bundle is out, no loop is live, no transfer is pending, and sequential fetch goes
on. -/
structure Calm (k : Core) : Prop where
  pend : k.seq.pend = []
  wait : k.seq.wait = []
  landings : k.seq.landings = []
  loops : k.seq.loops = []
  transfer : k.seq.transfer = none
  delay : k.seq.delayLeft = 0
  rollback : k.seq.rollback = none
  pc : k.seq.pc.toNat < 8191

/-- The memories, tables, system registers, vector registers and engines of a core are unchanged; so are its delta table, loops and
record; the program counter goes on to the next bundle. -/
def sameButRegs (k u : Core) : Prop :=
  u = { k with regs := u.regs, seq := u.seq } ∧ u.seq.pc.toNat = k.seq.pc.toNat + 1 ∧ u.seq.delta = k.seq.delta ∧
    u.seq.loops = k.seq.loops ∧ u.seq.mode = k.seq.mode ∧ u.seq.entryRegion = k.seq.entryRegion ∧ u.seq.events = k.seq.events

/-! ### Control transfer and loops (03 R68 to R73) -/

/-- A transfer with delay bundles: guard, operand codes, target, and the destination code of its link. -/
structure BranchForm where
  g : Guard
  srcs : List Nat
  target : State → List Word → Int
  link : Option Nat

/-- The transfers of 03 R68. -/
def branchForm : Instr → Option BranchForm
  | .br g o => some ⟨g, [], fun s _ => s.me.seq.pc.toNat + o.toInt, none⟩
  | .call g o => some ⟨g, [], fun s _ => s.me.seq.pc.toNat + o.toInt, some 23⟩
  | .jmp g d a => some ⟨g, [a.toNat], fun _ xs => (xs.getD 0 0).toNat, some d.toNat⟩
  | .ret g a => some ⟨g, [a.toNat], fun _ xs => (xs.getD 0 0).toNat, none⟩
  | _ => none

/-- A loop instruction: guard, the length to its end, the operand codes, the count, the stages of a replay loop or 0. -/
structure LoopForm where
  g : Guard
  len : Nat
  srcs : List Nat
  count : List Word → Word
  stages : Nat

/-- The loop instructions of 03 R70. -/
def loopForm : Instr → Option LoopForm
  | .loop g l c => some ⟨g, l.toNat, [c.toNat], fun xs => xs.getD 0 0, 0⟩
  | .loopi g l c => some ⟨g, l.toNat, [], fun _ => c.setWidth 64, 0⟩
  | .loopr g l st c => some ⟨g, l.toNat, [c.toNat], fun xs => xs.getD 0 0, st.toNat + 1⟩
  | _ => none

/-- A writing form of 03 R74: guard, operand code, register number, the new value of the RW fields from the old value and the
operand, and the W1C bits that it clears. -/
structure SysForm where
  g : Guard
  src : Nat
  r : BitVec 10
  new : Word → Word → Word
  clears : Word → Word

/-- SYSW, SYSS and SYSC (03 R74). -/
def sysForm : Instr → Option SysForm
  | .sysw g d r => some ⟨g, d.toNat, r, fun _ v => v, fun v => v⟩
  | .syss g d r => some ⟨g, d.toNat, r, fun o v => o ||| v, fun v => v⟩
  | .sysc g d r => some ⟨g, d.toNat, r, fun o v => o &&& ~~~v, fun _ => 0⟩
  | _ => none

/-! ### Guards, encodings and words (01 R20, 02 R31) -/

/-- The guard of a slot instruction (01 R20); NOP has none. -/
def guardField : Instr → Option Guard
  | .add g _ _ _ => some g
  | .sub g _ _ _ => some g
  | .mul g _ _ _ => some g
  | .mulh g _ _ _ => some g
  | .mulhu g _ _ _ => some g
  | .div g _ _ _ => some g
  | .divU g _ _ _ => some g
  | .rem g _ _ _ => some g
  | .remU g _ _ _ => some g
  | .and g _ _ _ => some g
  | .or g _ _ _ => some g
  | .xor g _ _ _ => some g
  | .shl g _ _ _ => some g
  | .shr g _ _ _ => some g
  | .sar g _ _ _ => some g
  | .rotl g _ _ _ => some g
  | .min g _ _ _ => some g
  | .max g _ _ _ => some g
  | .minu g _ _ _ => some g
  | .maxu g _ _ _ => some g
  | .clz g _ _ => some g
  | .popc g _ _ => some g
  | .sel g _ _ _ _ => some g
  | .addi g _ _ _ => some g
  | .andi g _ _ _ => some g
  | .ori g _ _ _ => some g
  | .xori g _ _ _ => some g
  | .shli g _ _ _ => some g
  | .shri g _ _ _ => some g
  | .sari g _ _ _ => some g
  | .movi g _ _ => some g
  | .movhi g _ _ => some g
  | .cmpEq g _ _ _ => some g
  | .cmpNe g _ _ _ => some g
  | .cmpLt g _ _ _ => some g
  | .cmpLtu g _ _ _ => some g
  | .cmpGe g _ _ _ => some g
  | .cmpGeu g _ _ _ => some g
  | .cmpiEq g _ _ _ => some g
  | .cmpiNe g _ _ _ => some g
  | .cmpiLt g _ _ _ => some g
  | .cmpiLtu g _ _ _ => some g
  | .cmpiGe g _ _ _ => some g
  | .cmpiGeu g _ _ _ => some g
  | .pand g _ _ _ => some g
  | .por g _ _ _ => some g
  | .pxor g _ _ _ => some g
  | .pnot g _ _ => some g
  | .pmovPp g _ _ => some g
  | .pmovPs g _ _ => some g
  | .pmovSp g _ _ => some g
  | .qpeek g _ _ => some g
  | .qcnt g _ _ => some g
  | .qclr g _ => some g
  | .br g _ => some g
  | .call g _ => some g
  | .ret g _ => some g
  | .jmp g _ _ => some g
  | .loop g _ _ => some g
  | .loopi g _ _ => some g
  | .loopr g _ _ _ => some g
  | .lbrk g _ => some g
  | .lidx g _ _ => some g
  | .lidxIn g _ _ => some g
  | .dtld g _ _ => some g
  | .sysr g _ _ => some g
  | .sysw g _ _ => some g
  | .syss g _ _ => some g
  | .sysc g _ _ => some g
  | .trap g _ => some g
  | .trapSys g _ => some g
  | .eret g => some g
  | .halt g => some g
  | .haltAbort g _ => some g
  | .waitc g _ _ _ _ => some g
  | .sleep g _ => some g
  | .cyc g _ => some g
  | .isync g _ => some g
  | .segmark g _ => some g
  | .bswap g _ => some g
  | .vadd g _ _ _ _ _ _ => some g
  | .vsub g _ _ _ _ _ _ => some g
  | .vmul g _ _ _ _ _ _ => some g
  | .vfma g _ _ _ _ _ _ => some g
  | .vmin g _ _ _ _ _ => some g
  | .vmax g _ _ _ _ _ => some g
  | .vabs g _ _ _ _ _ => some g
  | .vneg g _ _ _ _ _ => some g
  | .vand g _ _ _ _ _ => some g
  | .vor g _ _ _ _ _ => some g
  | .vxor g _ _ _ _ _ => some g
  | .vshl g _ _ _ _ _ => some g
  | .vshr g _ _ _ _ _ => some g
  | .vsar g _ _ _ _ _ => some g
  | .vcmpEq g _ _ _ _ _ => some g
  | .vcmpNe g _ _ _ _ _ => some g
  | .vcmpLt g _ _ _ _ _ => some g
  | .vcmpLtu g _ _ _ _ _ => some g
  | .vcmpGe g _ _ _ _ _ => some g
  | .vcmpGeu g _ _ _ _ _ => some g
  | .vsel g _ _ _ _ _ => some g
  | .vcvt g _ _ _ _ _ _ => some g
  | .vrot g _ _ _ _ _ _ => some g
  | .virot g _ _ _ _ => some g
  | .vredSum g _ _ _ _ _ _ => some g
  | .vredMax g _ _ _ _ _ => some g
  | .vredMin g _ _ _ _ _ => some g
  | .vtrn g _ _ _ _ => some g
  | .kand g _ _ _ => some g
  | .kor g _ _ _ => some g
  | .knot g _ _ => some g
  | .vaddScalar g _ _ _ _ _ _ => some g
  | .vsubScalar g _ _ _ _ _ _ => some g
  | .vmulScalar g _ _ _ _ _ _ => some g
  | .vfmaScalar g _ _ _ _ _ _ => some g
  | .vminScalar g _ _ _ _ _ => some g
  | .vmaxScalar g _ _ _ _ _ => some g
  | .vandScalar g _ _ _ _ _ => some g
  | .vorScalar g _ _ _ _ _ => some g
  | .vxorScalar g _ _ _ _ _ => some g
  | .vshlScalar g _ _ _ _ _ => some g
  | .vshrScalar g _ _ _ _ _ => some g
  | .vsarScalar g _ _ _ _ _ => some g
  | .vcmpEqScalar g _ _ _ _ _ => some g
  | .vcmpNeScalar g _ _ _ _ _ => some g
  | .vcmpLtScalar g _ _ _ _ _ => some g
  | .vcmpLtuScalar g _ _ _ _ _ => some g
  | .vcmpGeScalar g _ _ _ _ _ => some g
  | .vcmpGeuScalar g _ _ _ _ _ => some g
  | .vbcast g _ _ _ _ _ _ => some g
  | .viota g _ _ _ _ _ => some g
  | .vext g _ _ _ _ => some g
  | .vins g _ _ => some g
  | .vshp g _ => some g
  | .kwin g _ _ _ => some g
  | .fexp2 g _ _ _ _ => some g
  | .flog2 g _ _ _ _ => some g
  | .frcp g _ _ _ _ => some g
  | .frsq g _ _ _ _ => some g
  | .fsigm g _ _ _ _ => some g
  | .ftanh g _ _ _ _ => some g
  | .ferf g _ _ _ _ => some g
  | .ftopk g _ _ _ _ _ _ => some g
  | .fhkey g _ _ _ _ => some g
  | .ld8 g _ _ _ _ => some g
  | .ld16 g _ _ _ _ => some g
  | .ld32 g _ _ _ _ => some g
  | .ld64 g _ _ _ _ => some g
  | .ld8s g _ _ _ _ => some g
  | .ld16s g _ _ _ _ => some g
  | .ld32s g _ _ _ _ => some g
  | .st8 g _ _ _ _ => some g
  | .st16 g _ _ _ _ => some g
  | .st32 g _ _ _ _ => some g
  | .st64 g _ _ _ _ => some g
  | .vld g _ _ _ _ _ _ => some g
  | .vst g _ _ _ _ _ _ => some g
  | .atomAdd g _ _ _ _ _ => some g
  | .atomMin g _ _ _ _ _ => some g
  | .atomMax g _ _ _ _ _ => some g
  | .atomSwap g _ _ _ _ _ => some g
  | .atomCas g _ _ _ _ _ => some g
  | .ratomAdd g _ _ _ _ _ _ => some g
  | .ratomMin g _ _ _ _ _ _ => some g
  | .ratomMax g _ _ _ _ _ _ => some g
  | .ratomSwap g _ _ _ _ _ _ => some g
  | .ratomCas g _ _ _ _ _ _ => some g
  | .tlook g _ _ => some g
  | .tlookR g _ _ _ => some g
  | .tset g _ _ _ => some g
  | .tdel g _ _ => some g
  | .tpin g _ _ => some g
  | .tunpin g _ _ => some g
  | .tmld g _ _ _ _ => some g
  | .tmst g _ _ _ _ => some g
  | .tmset g _ _ _ => some g
  | .tmsetClear g _ => some g
  | .tmadd g _ _ _ => some g
  | .sgset g _ _ _ => some g
  | .fenceScope g _ => some g
  | .fenceX g => some g
  | .semsig g _ _ => some g
  | .semwait g _ => some g
  | .barr g _ _ => some g
  | .tqpush g _ _ _ => some g
  | .tqpop g _ _ _ => some g
  | .fuse g _ => some g
  | .decouple g => some g
  | .rejoin g => some g
  | .taskput g _ _ _ => some g
  | .futrd g _ _ => some g
  | .futfill g _ _ => some g
  | .mlease g _ _ => some g
  | .mfree g _ => some g
  | .mldw g _ _ _ _ _ => some g
  | .mrun g _ _ _ _ _ _ => some g
  | .mdrain g _ _ _ _ _ => some g
  | .mclr g _ _ => some g
  | .massay g _ _ _ _ => some g
  | .copy g _ _ _ => some g
  | .copy2 g _ _ _ _ => some g
  | .gath g _ _ _ => some g
  | .mcast g _ _ _ _ _ => some g
  | .subs g _ _ _ _ => some g
  | .unsub g _ _ => some g
  | .rfree g _ _ _ => some g
  | .hfetch g _ _ _ => some g
  | .prosp g _ _ _ _ => some g
  | .hrebind g _ _ _ => some g
  | .decj g _ _ _ => some g
  | .publish g _ _ => some g
  | _ => none

/-! ### Memory (03 R67, 12 R239 to R248) -/

/-- An access to the scratchpad through a handle: guard, whether it ends the entry region (10 R214), whether it is banned in replay,
handle, offset operand, displacement, bytes. -/
structure AccessForm where
  g : Guard
  ends : Bool
  once : Bool := false
  h : BitVec 8
  o : BitVec 5
  disp : Nat
  n : Nat

/-- The displacement of format ML (02 R37): none, or the access size times a power of two. -/
def disp (n : Nat) (j : BitVec 3) : Nat := if j.toNat = 0 then 0 else n * 2 ^ (j.toNat - 1)

/-- LD.w (03 R67): the access, its destination and whether the value is sign-extended. -/
def loadForm : Instr → Option (AccessForm × BitVec 5 × Bool)
  | .ld8 g d h o j => some (⟨g, false, false, h, o, disp 1 j, 1⟩, d, false)
  | .ld16 g d h o j => some (⟨g, false, false, h, o, disp 2 j, 2⟩, d, false)
  | .ld32 g d h o j => some (⟨g, false, false, h, o, disp 4 j, 4⟩, d, false)
  | .ld64 g d h o j => some (⟨g, false, false, h, o, disp 8 j, 8⟩, d, false)
  | .ld8s g d h o j => some (⟨g, false, false, h, o, disp 1 j, 1⟩, d, true)
  | .ld16s g d h o j => some (⟨g, false, false, h, o, disp 2 j, 2⟩, d, true)
  | .ld32s g d h o j => some (⟨g, false, false, h, o, disp 4 j, 4⟩, d, true)
  | _ => none

/-- ST.w (03 R67): the access and its source. -/
def storeForm : Instr → Option (AccessForm × BitVec 5)
  | .st8 g d h o j => some (⟨g, true, false, h, o, disp 1 j, 1⟩, d)
  | .st16 g d h o j => some (⟨g, true, false, h, o, disp 2 j, 2⟩, d)
  | .st32 g d h o j => some (⟨g, true, false, h, o, disp 4 j, 4⟩, d)
  | .st64 g d h o j => some (⟨g, true, false, h, o, disp 8 j, 8⟩, d)
  | _ => none

/-- The step of an ATOM or RATOM (12 R241) on words of w bits: the new word from the old one, the operand, and CAS's new value. -/
def atomStep (op : AtomOp) (w : Nat) (u : Bool) (old v new : Nat) : Nat :=
  match op with
  | .add => (old + v) % 2 ^ w
  | .min => if u then min old v else if (BitVec.ofNat w old).toInt < (BitVec.ofNat w v).toInt then old else v
  | .max => if u then max old v else if (BitVec.ofNat w old).toInt < (BitVec.ofNat w v).toInt then v else old
  | .swap => v
  | .cas => if old = v then new else old

/-- ATOM.op (12 R241): the access, its data register, the operation and U. -/
def atomForm : Instr → Option (AccessForm × BitVec 5 × AtomOp × Bool)
  | .atomAdd g d h o u w => some (⟨g, true, false, h, o, 0, if w = 1 then 8 else 4⟩, d, .add, u = 1)
  | .atomMin g d h o u w => some (⟨g, true, false, h, o, 0, if w = 1 then 8 else 4⟩, d, .min, u = 1)
  | .atomMax g d h o u w => some (⟨g, true, false, h, o, 0, if w = 1 then 8 else 4⟩, d, .max, u = 1)
  | .atomSwap g d h o u w => some (⟨g, true, false, h, o, 0, if w = 1 then 8 else 4⟩, d, .swap, u = 1)
  | .atomCas g d h o u w => some (⟨g, true, false, h, o, 0, if w = 1 then 8 else 4⟩, d, .cas, u = 1)
  | _ => none

/-- RATOM.op (12 R242): its bundle also needs the fence and replay conditions. -/
def ratomForm : Instr → Option (AccessForm × BitVec 5 × AtomOp × Bool × Bool)
  | .ratomAdd g d h o f u w => some (⟨g, true, true, h, o, 0, if w = 1 then 8 else 4⟩, d, .add, u = 1, f = 1)
  | .ratomMin g d h o f u w => some (⟨g, true, true, h, o, 0, if w = 1 then 8 else 4⟩, d, .min, u = 1, f = 1)
  | .ratomMax g d h o f u w => some (⟨g, true, true, h, o, 0, if w = 1 then 8 else 4⟩, d, .max, u = 1, f = 1)
  | .ratomSwap g d h o f u w => some (⟨g, true, true, h, o, 0, if w = 1 then 8 else 4⟩, d, .swap, u = 1, f = 1)
  | .ratomCas g d h o f u w => some (⟨g, true, true, h, o, 0, if w = 1 then 8 else 4⟩, d, .cas, u = 1, f = 1)
  | _ => none

/-- The accesses of the scalar slots, TMLD and TMST. -/
def accessForm : Instr → Option AccessForm
  | .tmld g _ h o z => some ⟨g, false, false, h, o, 64 * z.toNat, 64⟩
  | .tmst g _ h o z => some ⟨g, false, true, h, o, 64 * z.toNat, 64⟩
  | i => ((loadForm i).map Prod.fst).or (((storeForm i).map Prod.fst).or ((atomForm i).map Prod.fst))

/-- The offset of an access from its offset operand (01 R26, 02 R37). -/
def AccessForm.off (f : AccessForm) (x : Word) : Nat := (x + BitVec.ofNat 64 f.disp).toNat

/-- The handle's entry, as the core uses it. -/
def AccessForm.entry (f : AccessForm) (s : State) : BitVec 256 := s.entry s.me f.h.toNat

/-- The state in which an access takes effect, its offset operand being read in it. -/
def AccessForm.opened (f : AccessForm) (s : State) : State := s.opened f.g f.ends false [f.h.toNat]

/-- n bytes of a number at an address, lowest first (00 R4). -/
def cellsAt (a n v : Nat) : List Host.Cell := (List.range n).map fun k => (a + k, BitVec.ofNat 8 (v / 256 ^ k))

/-- The value of a load (03 R67): the bytes as a little-endian number, zero-extended or sign-extended. -/
def loaded (n : Nat) (signed : Bool) (bs : List Byte) : Word :=
  if signed then (BitVec.ofNat (8 * n) (leNat bs)).signExtend 64 else BitVec.ofNat 64 (leNat bs)

/-- The value that an atomic returns (12 R241): the old word, a 32-bit signed one sign-extended. -/
def atomOld (n : Nat) (u : Bool) (old : Nat) : Word :=
  if n = 8 ∨ u = true then BitVec.ofNat 64 old else (BitVec.ofNat 32 old).signExtend 64

/-- ATOM's bytes put (12 R241): at once, or held in replay with the step that their release makes (04 R95). -/
def atomPut (s : State) (op : AtomOp) (u : Bool) (ws : List Host.Cell) (v new : Nat) : State :=
  s.putHeld ws (.atom ws op.code u v new) fun t => t.putCells ws (ws.length = 8)

/-- The bundle of a lone instruction that consumes poison, from the state o in which it takes effect to the state t that it leaves: a
rollback that it starts squashes it, else the event follows (22 R381, R384, R385). -/
def consumed (o t : State) : State :=
  match o.me.rollbackAt o.latch.iter with
  | none => t.commit
  | some r => (o.setMe { o.me with seq := { o.me.seq with rollback := some r } }).commit

/-- TDEL, TPIN, TUNPIN (12 R244): guard, destination and entry operands, and the status and entry that follow from the entry. -/
def tagForm : Instr → Option (Guard × BitVec 5 × BitVec 5 × (TagEntry → Nat × TagEntry))
  | .tdel g d a => some (g, d, a, fun e => if !e.v then (2, e) else if e.pins ≠ 0 then (1, e) else (0, { e with v := false }))
  | .tpin g d a => some (g, d, a, fun e => if !e.v then (2, e) else if e.pins = 255 then (3, e) else (0, { e with pins := e.pins + 1 }))
  | .tunpin g d a => some (g, d, a, fun e => if !e.v then (2, e) else if e.pins = 0 then (4, e) else (0, { e with pins := e.pins - 1 }))
  | _ => none

/-! ### Vectors (04 R84 to R88, 07 R130 to R161) -/

/-- Element e of a vector register, of w bits (04 R85). -/
def velem (s : State) (r : BitVec 4) (w e : Nat) : Nat := (s.me.vreg r).bits.toNat / 2 ^ (e * w) % 2 ^ w

/-- An element instruction (07 R134 to R139): guard, destination, type, mask, scalar operand codes, the tagged operands, whether their
tag is carried, and element e of its result with its flags. -/
structure VecForm where
  g : Guard
  v : BitVec 4
  t : BitVec 4
  k : BitVec 3
  srcs : List Nat
  regs : List (BitVec 4)
  carry : Bool
  value : State → List Word → Nat → Nat × Flags

/-- Two sources: element e of va, and element e of vb or the scalar. -/
def two (a : BitVec 4) (b : BitVec 4) (t : BitVec 4) (f : Elem → Nat → Nat → Nat × Flags) (s : State) (_ : List Word) (e : Nat) :
    Nat × Flags := f (tyElem t.toNat) (velem s a s.me.ew e) (velem s b s.me.ew e)

/-- A register and a scalar at every position (07 R132). -/
def mixed (a : BitVec 4) (t : BitVec 4) (f : Elem → Nat → Nat → Nat × Flags) (s : State) (xs : List Word) (e : Nat) :
    Nat × Flags := f (tyElem t.toNat) (velem s a s.me.ew e) ((xs.getD 0 0).toNat % 2 ^ s.me.ew)

/-- An arithmetic instruction's element (07 R136, R137), under its rounding and saturation. -/
def arith (o : VOp) (v a : BitVec 4) (t : BitVec 4) (sr sat : Bool) (b : State → List Word → Nat → Nat) (s : State) (xs : List Word)
    (e : Nat) : Nat × Flags :=
  arithElem (tyElem t.toNat) o sat (s.rndFor sr sat e) (velem s a s.me.ew e) (b s xs e) (velem s v s.me.ew e)

/-- The destination's tag counts when it is read or kept in part (06 R128). -/
def kept (k : BitVec 3) (v : BitVec 4) : List (BitVec 4) := if k = 0 then [] else [v]

/-- The table of 07 R136 to R139. -/
def vecForm : Instr → Option VecForm
  | .vadd g v a b t k f => some ⟨g, v, t, k, [], [a, b] ++ kept k v, true,
      arith .add v a t (f.getLsbD 1) (f.getLsbD 0) fun s _ e => velem s b s.me.ew e⟩
  | .vaddScalar g v a x t k f => some ⟨g, v, t, k, [x.toNat], [a] ++ kept k v, true,
      arith .add v a t false (decide (f = 1)) fun s xs _ => (xs.getD 0 0).toNat % 2 ^ s.me.ew⟩
  | .vsub g v a b t k f => some ⟨g, v, t, k, [], [a, b] ++ kept k v, true,
      arith .sub v a t (f.getLsbD 1) (f.getLsbD 0) fun s _ e => velem s b s.me.ew e⟩
  | .vsubScalar g v a x t k f => some ⟨g, v, t, k, [x.toNat], [a] ++ kept k v, true,
      arith .sub v a t false (decide (f = 1)) fun s xs _ => (xs.getD 0 0).toNat % 2 ^ s.me.ew⟩
  | .vmul g v a b t k f => some ⟨g, v, t, k, [], [a, b] ++ kept k v, true,
      arith .mul v a t (f.getLsbD 1) (f.getLsbD 0) fun s _ e => velem s b s.me.ew e⟩
  | .vmulScalar g v a x t k f => some ⟨g, v, t, k, [x.toNat], [a] ++ kept k v, true,
      arith .mul v a t false (decide (f = 1)) fun s xs _ => (xs.getD 0 0).toNat % 2 ^ s.me.ew⟩
  | .vfma g v a b t k f => some ⟨g, v, t, k, [], [a, b] ++ [v], true,
      arith .fma v a t (f.getLsbD 1) (f.getLsbD 0) fun s _ e => velem s b s.me.ew e⟩
  | .vfmaScalar g v a x t k f => some ⟨g, v, t, k, [x.toNat], [a] ++ [v], true,
      arith .fma v a t false (decide (f = 1)) fun s xs _ => (xs.getD 0 0).toNat % 2 ^ s.me.ew⟩
  | .vmin g v a b t k => some ⟨g, v, t, k, [], [a, b] ++ kept k v, false, two a b t fun l x y => minMaxElem l false x y⟩
  | .vminScalar g v a x t k => some ⟨g, v, t, k, [x.toNat], [a] ++ kept k v, false, mixed a t fun l x y => minMaxElem l false x y⟩
  | .vmax g v a b t k => some ⟨g, v, t, k, [], [a, b] ++ kept k v, false, two a b t fun l x y => minMaxElem l true x y⟩
  | .vmaxScalar g v a x t k => some ⟨g, v, t, k, [x.toNat], [a] ++ kept k v, false, mixed a t fun l x y => minMaxElem l true x y⟩
  | .vand g v a b t k => some ⟨g, v, t, k, [], [a, b] ++ kept k v, true, two a b t fun l x y => (VLogic.elem .and l.width x y, 0)⟩
  | .vandScalar g v a x t k =>
    some ⟨g, v, t, k, [x.toNat], [a] ++ kept k v, true, mixed a t fun l x y => (VLogic.elem .and l.width x y, 0)⟩
  | .vor g v a b t k => some ⟨g, v, t, k, [], [a, b] ++ kept k v, true, two a b t fun l x y => (VLogic.elem .or l.width x y, 0)⟩
  | .vorScalar g v a x t k =>
    some ⟨g, v, t, k, [x.toNat], [a] ++ kept k v, true, mixed a t fun l x y => (VLogic.elem .or l.width x y, 0)⟩
  | .vxor g v a b t k => some ⟨g, v, t, k, [], [a, b] ++ kept k v, true, two a b t fun l x y => (VLogic.elem .xor l.width x y, 0)⟩
  | .vxorScalar g v a x t k =>
    some ⟨g, v, t, k, [x.toNat], [a] ++ kept k v, true, mixed a t fun l x y => (VLogic.elem .xor l.width x y, 0)⟩
  | .vshl g v a b t k => some ⟨g, v, t, k, [], [a, b] ++ kept k v, true, two a b t fun l x y => (VLogic.elem .shl l.width x y, 0)⟩
  | .vshlScalar g v a x t k =>
    some ⟨g, v, t, k, [x.toNat], [a] ++ kept k v, true, mixed a t fun l x y => (VLogic.elem .shl l.width x y, 0)⟩
  | .vshr g v a b t k => some ⟨g, v, t, k, [], [a, b] ++ kept k v, true, two a b t fun l x y => (VLogic.elem .shr l.width x y, 0)⟩
  | .vshrScalar g v a x t k =>
    some ⟨g, v, t, k, [x.toNat], [a] ++ kept k v, true, mixed a t fun l x y => (VLogic.elem .shr l.width x y, 0)⟩
  | .vsar g v a b t k => some ⟨g, v, t, k, [], [a, b] ++ kept k v, true, two a b t fun l x y => (VLogic.elem .sar l.width x y, 0)⟩
  | .vsarScalar g v a x t k =>
    some ⟨g, v, t, k, [x.toNat], [a] ++ kept k v, true, mixed a t fun l x y => (VLogic.elem .sar l.width x y, 0)⟩
  | .vabs g v a t k f => some ⟨g, v, t, k, [], [a] ++ kept k v, false, two a a t fun l x _ => absNegElem l false (decide (f = 1)) x⟩
  | .vneg g v a t k f => some ⟨g, v, t, k, [], [a] ++ kept k v, true, two a a t fun l x _ => absNegElem l true (decide (f = 1)) x⟩
  | _ => none

/-- A vector compare (07 R140): guard, destination mask, type, mask, scalar operand codes, tagged operands, element e. -/
structure VCmpForm where
  g : Guard
  d : BitVec 3
  t : BitVec 4
  k : BitVec 3
  srcs : List Nat
  regs : List (BitVec 4)
  value : State → List Word → Nat → Bool × Flags

/-- A compare of two registers. -/
def cmpRegs (o : VCond) (g : Guard) (d : BitVec 3) (a b t : BitVec 4) (k : BitVec 3) : VCmpForm :=
  ⟨g, d, t, k, [], [a, b], fun s _ e => o.elem (tyElem t.toNat) (velem s a s.me.ew e) (velem s b s.me.ew e)⟩

/-- A compare of a register with a scalar. -/
def cmpScal (o : VCond) (g : Guard) (d : BitVec 3) (a : BitVec 4) (x : BitVec 5) (t : BitVec 4) (k : BitVec 3) : VCmpForm :=
  ⟨g, d, t, k, [x.toNat], [a], fun s xs e => o.elem (tyElem t.toNat) (velem s a s.me.ew e) ((xs.getD 0 0).toNat % 2 ^ s.me.ew)⟩

/-- The compares of 07 R140. -/
def vcmpForm : Instr → Option VCmpForm
  | .vcmpEq g d a b t k => some (cmpRegs .eq g d a b t k)
  | .vcmpEqScalar g d a x t k => some (cmpScal .eq g d a x t k)
  | .vcmpNe g d a b t k => some (cmpRegs .ne g d a b t k)
  | .vcmpNeScalar g d a x t k => some (cmpScal .ne g d a x t k)
  | .vcmpLt g d a b t k => some (cmpRegs .lt g d a b t k)
  | .vcmpLtScalar g d a x t k => some (cmpScal .lt g d a x t k)
  | .vcmpLtu g d a b t k => some (cmpRegs .ltu g d a b t k)
  | .vcmpLtuScalar g d a x t k => some (cmpScal .ltu g d a x t k)
  | .vcmpGe g d a b t k => some (cmpRegs .ge g d a b t k)
  | .vcmpGeScalar g d a x t k => some (cmpScal .ge g d a x t k)
  | .vcmpGeu g d a b t k => some (cmpRegs .geu g d a b t k)
  | .vcmpGeuScalar g d a x t k => some (cmpScal .geu g d a x t k)
  | _ => none

/-- A mask operation (07 R151): guard, destination, bit e. -/
def maskForm : Instr → Option (Guard × BitVec 3 × (State → Nat → Bool))
  | .kand g d a b => some (g, d, fun s e => s.me.kbit a e && s.me.kbit b e)
  | .kor g d a b => some (g, d, fun s e => s.me.kbit a e || s.me.kbit b e)
  | .knot g d a => some (g, d, fun s e => !s.me.kbit a e)
  | _ => none

/-- A conversion (07 R142 to R144): guard, destination, source, types, mask, destination tag, whether the type must have VSHAPE's width, and
whether data that no rotation changes are copied as they are. -/
structure ConvForm where
  g : Guard
  v : BitVec 4
  a : BitVec 4
  src : Elem
  dst : Elem
  k : BitVec 3
  tag : State → Tag
  shaped : Bool
  same : Bool

/-- VCVT keeps the source's tag, clears it, or takes the destination's; VROT rotates under a sign mask; VIROT undoes a rotation. -/
def convForm : Instr → Option ConvForm
  | .vcvt g v a t u k f => some ⟨g, v, a, tyElem t.toNat, tyElem u.toNat, k,
      fun s => if f = 0 then (s.me.vreg a).tag else if f = 1 then {} else (s.me.vreg v).tag, false, false⟩
  | .vrot g v a n t k f => some ⟨g, v, a, tyElem t.toNat, tyElem t.toNat, k,
      fun s => ⟨BitVec.ofNat 3 (f.toNat + 1), BitVec.ofNat 16 ((s.me.vec.sg.getD n.toNat 0).toNat / 2 ^ 128)⟩, true, false⟩
  | .virot g v a t k => some ⟨g, v, a, tyElem t.toNat, tyElem t.toNat, k, fun _ => {}, true, true⟩
  | _ => none

/-- The passes of a conversion: those of its wider type (07 R142). -/
def ConvForm.passes (f : ConvForm) (s : State) : Nat := (s.me.elems * max f.src.width f.dst.width + 4095) / 4096

/-- Element e of a conversion that no rotation changes (07 R142 to R144). -/
def ConvForm.plain (f : ConvForm) (s : State) (e : Nat) : Nat × Flags :=
  if f.same then (velem s f.a f.src.width e, 0)
  else f.dst.encode (f.src.decode (velem s f.a f.src.width e)) (s.rndFor false (s.me.sys.fpstat.getLsbD 11) e) (!f.src.isFloat)

/-- Block m of a register's elements rotated, or rotated back, under a tag's block size and a sign mask (06 R119, R122). -/
def ConvForm.block (f : ConvForm) (s : State) (fwd : Bool) (t : Tag) (mask : BitVec 128) (m : Nat) : List Machine.Num × Flags :=
  rotateBlock t.code.toNat mask fwd ((List.range (8 * 2 ^ t.code.toNat)).map fun j =>
    f.src.decode (velem s f.a f.src.width (m * (8 * 2 ^ t.code.toNat) + j)))

/-- Element e of a conversion that rotates. -/
def ConvForm.turned (f : ConvForm) (s : State) (fwd : Bool) (t : Tag) (mask : BitVec 128) (e : Nat) : Nat × Flags :=
  f.dst.encode ((f.block s fwd t mask (e / (8 * 2 ^ t.code.toNat))).1.getD (e % (8 * 2 ^ t.code.toNat)) (.zero false))
    (s.rndFor false (s.me.sys.fpstat.getLsbD 11) e) false

/-- The checks of a conversion but for those of its rotation (07 R131, R142, 06 R117, R128). -/
structure ConvReady (s : State) (f : ConvForm) : Prop where
  ready : s.ready f.g
  shape : f.shaped = true → f.dst.width = s.me.ew
  room : s.me.elems * max f.src.width f.dst.width ≤ 65536
  legal : tagOk (f.tag s).code.toNat (f.tag s).id.toNat = true
  kept : f.k ≠ 0 → (s.me.vreg f.v).tag = f.tag s

/-- A reduction (07 R145): guard, destination, source, type, mask, operation, along columns or down rows, saturation. -/
structure RedForm where
  g : Guard
  v : BitVec 4
  a : BitVec 4
  t : BitVec 4
  k : BitVec 3
  op : VRed
  down : Bool
  sat : Bool

/-- VRED.op. -/
def redForm : Instr → Option RedForm
  | .vredSum g v a t k u x => some ⟨g, v, a, t, k, .sum, decide (x = 1), decide (u = 1)⟩
  | .vredMax g v a t k x => some ⟨g, v, a, t, k, .max, decide (x = 1), false⟩
  | .vredMin g v a t k x => some ⟨g, v, a, t, k, .min, decide (x = 1), false⟩
  | _ => none

/-- The functions of 07 R158 with a latency of their own: guard, operation, destination, source, type, mask. -/
def fnForm : Instr → Option (Guard × FnOp × BitVec 4 × BitVec 4 × BitVec 4 × BitVec 3)
  | .fexp2 g v a t k => some (g, .exp2, v, a, t, k)
  | .flog2 g v a t k => some (g, .log2, v, a, t, k)
  | .frcp g v a t k => some (g, .rcp, v, a, t, k)
  | .frsq g v a t k => some (g, .rsq, v, a, t, k)
  | _ => none

/-- The functions of 07 R158 and R159 whose result comes through a landing slot. -/
def slowForm : Instr → Option (Guard × FnOp × BitVec 4 × BitVec 4 × BitVec 4 × BitVec 3)
  | .fsigm g v a t k => some (g, .sigm, v, a, t, k)
  | .ftanh g v a t k => some (g, .tanh, v, a, t, k)
  | .ferf g v a t k => some (g, .erf, v, a, t, k)
  | _ => none

/-- Element e of a function of a register, with its flags (07 R158, 05 R105: nearest even, FPSTAT.SATD). -/
def fnValue (s : State) (o : FnOp) (a t : BitVec 4) (e : Nat) : Nat × Flags :=
  let x := fnEval o ((tyElem t.toNat).decode (velem s a s.me.ew e))
  let y := (tyElem t.toNat).encode x.1 ⟨0, s.me.sys.fpstat.getLsbD 11, 0⟩
  (y.1, x.2 ||| y.2)

/-- The integer that w bits stand for under a signedness. -/
def asInt (w : Nat) (sg : Bool) (b : Nat) : Int := if sg then (BitVec.ofNat w b).toInt else b

/-- The low w bits of an integer. -/
def lowBits (w : Nat) (x : Int) : Nat := (BitVec.ofInt w x).toNat

/-- The least and the largest integer of a type (07 R136). -/
def tyMin (w : Nat) (sg : Bool) : Int := if sg then -2 ^ (w - 1) else 0
def tyMax (w : Nat) (sg : Bool) : Int := if sg then 2 ^ (w - 1) - 1 else 2 ^ w - 1

/-- An exact integer result in a type: its low bits, or clamped with SAT where the clamp changes it (07 R136, R145). -/
def intResult (w : Nat) (sg sat : Bool) (x : Int) : Nat × Flags :=
  if sat = true ∧ x < tyMin w sg then (lowBits w (tyMin w sg), Fl.sat)
  else if sat = true ∧ tyMax w sg < x then (lowBits w (tyMax w sg), Fl.sat)
  else (lowBits w x, 0)

/-- The rational that a finite value is; 0 for the others. -/
def ratVal : Machine.Num → Rat
  | .fin n m d e => mkRat ((if n then -(m : Int) else m) * 2 ^ e.toNat) (d * 2 ^ (-e).toNat)
  | _ => 0

/-- Neither a NaN nor an infinity. -/
def isFinite (x : Machine.Num) : Prop := x.isNan = false ∧ x.isInf = false

/-- Order of the values that are no NaN, with -0 equal to +0. -/
def lessVal : Machine.Num → Machine.Num → Prop
  | .inf a, .inf b => a = true ∧ b = false
  | .inf a, _ => a = true
  | _, .inf b => b = false
  | x, y => ratVal x < ratVal y

/-- The same with -0 below +0 (07 R138). -/
def belowVal (x y : Machine.Num) : Prop := lessVal x y ∨ (x = .zero true ∧ y = .zero false)

/-- A result is an exact value rounded once (07 R137): `q` is the exact value, `neg` the sign of an exact zero. -/
def roundedOnce (f : FFmt) (r : Rnd) (q : Rat) (neg : Bool) (out : Nat × Flags) : Prop :=
  ∃ z, isFinite z ∧ ratVal z = q ∧ (q = 0 → z = .zero neg) ∧ out = f.encode z r

/-- A NaN result: the first NaN of the operands, quieted, with NV for a signalling one (05 R108). -/
def nanOf (f : FFmt) (r : Rnd) (xs : List Machine.Num) (out : Nat × Flags) : Prop :=
  ∃ x, xs.find? Num.isNan = some x ∧ out = ((f.encode x.quiet r).1, if xs.any Num.isSig then Fl.nv else 0)

/-- The canonical NaN of an invalid operation (05 R108). -/
def invalidOf (f : FFmt) (r : Rnd) (out : Nat × Flags) : Prop := out = ((f.encode .canon r).1, Fl.nv ||| Fl.np)

/-- The sign of an exact zero sum of two values (07 R137). -/
def zeroSum (r : Rnd) (x y : Machine.Num) : Bool :=
  if x = .zero true ∧ y = .zero true then true else if x = .zero false ∧ y = .zero false then false else decide (r.rm = 2)

/-- The sum of two values rounded into a format (07 R137, 05 R108). -/
def sumRule (f : FFmt) (r : Rnd) (x y : Machine.Num) (out : Nat × Flags) : Prop :=
  (isFinite x → isFinite y → roundedOnce f r (ratVal x + ratVal y) (zeroSum r x y) out) ∧
  (∀ n, x = .inf n → y = .inf (!n) → invalidOf f r out) ∧
  (∀ n, ((x = .inf n ∧ (isFinite y ∨ y = .inf n)) ∨ (isFinite x ∧ y = .inf n)) → out = f.encode (.inf n) r)

/-- The product of two values rounded into a format. -/
def productRule (f : FFmt) (r : Rnd) (x y : Machine.Num) (out : Nat × Flags) : Prop :=
  (isFinite x → isFinite y → roundedOnce f r (ratVal x * ratVal y) (xor x.neg? y.neg?) out) ∧
  (((x.isZero = true ∧ y.isInf = true) ∨ (x.isInf = true ∧ y.isZero = true)) → invalidOf f r out) ∧
  (x.isNan = false → y.isNan = false → x.isZero = false → y.isZero = false → (x.isInf = true ∨ y.isInf = true) →
    out = f.encode (.inf (xor x.neg? y.neg?)) r)

/-- The magnitude of a rational. -/
def mag (q : Rat) : Rat := if q < 0 then -q else q

/-- A value that is finite and well formed: its magnitude's numerator and denominator are not 0. -/
def realNum : Machine.Num → Prop
  | .zero _ => True
  | .fin _ m d _ => 0 < m ∧ 0 < d
  | _ => False

/-- The magnitude that a code of a format stands for (05 R99, R100). -/
def codeMag (f : FFmt) (b : Nat) : Rat := mag (ratVal (f.decode b))

/-- encode of a finite value other than zero (05 R105, R106). Within the format's largest value the result keeps the sign, is a neighbour of
the exact value on the side that the mode names, the nearer one under RNE and on a tie the even one, and raises NX where it differs, with UF
below the smallest normal value. From twice the largest value on it overflows: to the largest value with SAT and NX when it saturates, else
to infinity, or a format's NaN, or the largest value, as the mode and the sign say. -/
def EncodeRule : Prop :=
  ∀ (t : Nat) (f : FFmt) (n : Bool) (m d : Nat) (e : Int) (r : Rnd) (v : Rat) (out : Nat × Flags), tyElem t = .flt f → 0 < m → 0 < d →
    v = mag (ratVal (.fin n m d e)) → out = f.encode (.fin n m d e) r → r.rm.toNat ≤ 4 →
    (v ≤ codeMag f f.maxCode →
      isFinite (f.decode out.1) ∧ (codeMag f out.1 ≠ 0 → (f.decode out.1).neg? = n) ∧
      out.2 = (if codeMag f out.1 = v then 0 else if codeMag f out.1 < 2 ^ f.emin then Fl.nx ||| Fl.uf else Fl.nx) ∧
      (∀ c, c ≤ f.maxCode → (codeMag f c ≤ v → codeMag f out.1 ≤ v → codeMag f c ≤ codeMag f out.1) ∧
        (v ≤ codeMag f c → v ≤ codeMag f out.1 → codeMag f out.1 ≤ codeMag f c)) ∧
      (r.rm = 0 → ∀ c, c ≤ f.maxCode → mag (v - codeMag f out.1) ≤ mag (v - codeMag f c) ∧
        (mag (v - codeMag f out.1) = mag (v - codeMag f c) → codeMag f c ≠ codeMag f out.1 → out.1 % 2 = 0)) ∧
      (r.rm = 1 → codeMag f out.1 ≤ v) ∧
      (r.rm = 2 → if n then v ≤ codeMag f out.1 else codeMag f out.1 ≤ v) ∧
      (r.rm = 3 → if n then codeMag f out.1 ≤ v else v ≤ codeMag f out.1)) ∧
    (2 * codeMag f f.maxCode ≤ v →
      out = if r.sat then (f.withSign n f.maxCode, Fl.sat ||| Fl.nx)
        else if r.rm = 0 ∨ r.rm = 4 ∨ (r.rm = 2 ∧ n = true) ∨ (r.rm = 3 ∧ n = false) then
          match f.inf with
          | some c => (f.withSign n c, Fl.of ||| Fl.nx)
          | none => (f.nan, Fl.of ||| Fl.nx ||| Fl.np)
        else (f.withSign n f.maxCode, Fl.of ||| Fl.nx))

/-- encode of an infinity, and of a negative value into an unsigned format (05 R106). -/
def EncodeEdges : Prop :=
  (∀ (t : Nat) (f : FFmt) (n : Bool) (r : Rnd), tyElem t = .flt f →
    f.encode (.inf n) r = if r.sat then (f.withSign n f.maxCode, Fl.sat) else
      match f.inf with
      | some c => (f.withSign n c, 0)
      | none => (f.nan, Fl.nv ||| Fl.np)) ∧
  ∀ (p : Nat) (fin : Bool) (m d : Nat) (e : Int) (r : Rnd), 1 ≤ p → p ≤ 7 → 0 < m → 0 < d →
    (codeMag (.b8 p true fin) 1 ≤ ratVal (.fin false m d e) →
      FFmt.encode (.b8 p true fin) (.fin true m d e) r = if r.sat then (0, Fl.sat) else (0xFF, Fl.nv ||| Fl.np)) ∧
    (r.rm = 0 → 2 * ratVal (.fin false m d e) < codeMag (.b8 p true fin) 1 →
      FFmt.encode (.b8 p true fin) (.fin true m d e) r = (0, Fl.nx ||| Fl.uf))

/-- Narrowing into MXINT8 and BINT4 (05 R107): 0xFF and zeros when a value is a NaN or infinite, 0 and zeros when all are zero, else the
scale of the largest magnitude, and each element the nearest integer within its range. -/
def NarrowRule : Prop :=
  ∀ (code w top : Nat) (mul : Rat) (aux : Nat) (xs : List Machine.Num) (sc : Option Nat) (es : List Nat) (fl : Flags),
    ((code = 0x40 ∧ w = 8 ∧ mul = 64 ∧ top = 127) ∨ (code = 0x42 ∧ w = 4 ∧ mul = 4 ∧ top = 7)) →
    narrowBlock code aux false xs = (sc, es, fl) →
    ((∃ x ∈ xs, x.isNan = true ∨ x.isInf = true) → sc = some 0xFF ∧ es = xs.map fun _ => 0) ∧
    ((∀ x ∈ xs, x.isZero = true) → sc = some 0 ∧ (es = xs.map fun _ => 0) ∧ fl = 0) ∧
    ((∀ x ∈ xs, realNum x) → (∃ x ∈ xs, x.isZero = false) →
      ∃ e : Nat, e ≤ 254 ∧ sc = some e ∧ es.length = xs.length ∧
        (1 ≤ e → ∃ x ∈ xs, (2 : Rat) ^ ((e : Int) - 127) ≤ mag (ratVal x)) ∧
        (e < 254 → ∀ x ∈ xs, mag (ratVal x) < (2 : Rat) ^ ((e : Int) - 126)) ∧
        ∀ i, i < xs.length → ∀ (y : Rat) (q : Int), y = ratVal (xs.getD i (.zero false)) * mul / (2 : Rat) ^ ((e : Int) - 127) →
          q = asInt w true (es.getD i 0) →
          (mag (y - q) ≤ 1 / 2 ∧ -(top : Int) ≤ q ∧ q ≤ top) ∨ ((top : Rat) < y ∧ q = top) ∨ (y < -(top : Rat) ∧ q = -(top : Int)))

/-- The rotation of one block (06 R120, R121): a NaN or an infinity goes to every place; a stage of butterflies is sums and differences; a
block of integers below 2 ^ 30 aligns exactly; and where neither way rounds, the inverse rotation of a rotated block is the block. -/
def RotationRule : Prop :=
  (∀ (code : Nat) (mask : BitVec 128) (fwd : Bool) (xs : List Machine.Num),
    ((∃ x ∈ xs, x.isNan = true) → ∃ x, xs.find? Num.isNan = some x ∧
      rotateBlock code mask fwd xs = (xs.map fun _ => x.quiet, if xs.any Num.isSig then Fl.nv else 0)) ∧
    ((∀ x ∈ xs, x.isNan = false) → (∃ x ∈ xs, x.isInf = true) →
      rotateBlock code mask fwd xs = (xs.map fun _ => .nan false 0x400000 false, Fl.nv ||| Fl.np))) ∧
  (∀ (t : Nat) (q : List Int) (i : Nat), i + 2 ^ t < q.length → i / 2 ^ t % 2 = 0 →
    (butterfly t q).getD i 0 = q.getD i 0 + q.getD (i + 2 ^ t) 0 ∧
    (butterfly t q).getD (i + 2 ^ t) 0 = q.getD i 0 - q.getD (i + 2 ^ t) 0) ∧
  (∀ (code : Nat) (mask : BitVec 128) (fwd : Bool) (zs : List Int), zs.length = 8 * 2 ^ code → (∀ z ∈ zs, z.natAbs < 2 ^ 30) →
    (rotateBlock code mask fwd (zs.map Num.ofInt)).2 = 0) ∧
  ∀ (code : Nat) (mask : BitVec 128) (xs ys zs : List Machine.Num), 1 ≤ code → code ≤ 4 → xs.length = 8 * 2 ^ code →
    (∀ x ∈ xs, realNum x) → rotateBlock code mask true xs = (ys, 0) → rotateBlock code mask false ys = (zs, 0) →
    zs.map ratVal = xs.map ratVal

/-- The element functions (07 R158): the table of the special operands; a NaN is quieted; 1 / x, the powers of two with whole exponents, their
logarithms, and the reciprocal roots of powers of four are exact. -/
def FunctionValues : Prop :=
  ([FnOp.exp2, .log2, .rcp, .rsq, .sigm, .tanh, .erf].map (fun o => fnEval o (.inf false)) =
    [(.inf false, 0), (.inf false, 0), (.zero false, 0), (.zero false, 0), (.ofInt 1, 0), (.ofInt 1, 0), (.ofInt 1, 0)]) ∧
  ([FnOp.exp2, .log2, .rcp, .rsq, .sigm, .tanh, .erf].map (fun o => fnEval o (.inf true)) =
    [(.zero false, 0), (.nan false 0x400000 false, Fl.nv ||| Fl.np), (.zero true, 0), (.nan false 0x400000 false, Fl.nv ||| Fl.np),
     (.zero false, 0), (.ofInt (-1), 0), (.ofInt (-1), 0)]) ∧
  (∀ n, [FnOp.exp2, .log2, .rcp, .rsq, .tanh, .erf].map (fun o => fnEval o (.zero n)) =
      [(.ofInt 1, 0), (.inf true, Fl.dz), (.inf n, Fl.dz), (.inf n, Fl.dz), (.zero n, 0), (.zero n, 0)] ∧
    ratVal (fnEval .sigm (.zero n)).1 = 1 / 2 ∧ (fnEval .sigm (.zero n)).2 = 0) ∧
  (∀ m d e, [FnOp.log2, .rsq].map (fun o => fnEval o (.fin true m d e)) =
    [(.nan false 0x400000 false, Fl.nv ||| Fl.np), (.nan false 0x400000 false, Fl.nv ||| Fl.np)]) ∧
  (∀ o n fr sig, fnEval o (.nan n fr sig) = (.nan n (fr ||| 0x400000) false, if sig then Fl.nv else 0)) ∧
  (∀ (n : Bool) (m d : Nat) (e k : Int) (x : Machine.Num), x = .fin n m d e → 0 < m → 0 < d →
    (ratVal (fnEval .rcp x).1 * ratVal x = 1 ∧ (fnEval .rcp x).2 = 0) ∧
    (ratVal x = k → -2048 < k → k < 2048 → ratVal (fnEval .exp2 x).1 = (2 : Rat) ^ k ∧ (fnEval .exp2 x).2 = 0) ∧
    (ratVal x = (2 : Rat) ^ k → fnEval .log2 x = (.ofInt k, 0)) ∧
    (m < 2 ^ 200 → ratVal x = (4 : Rat) ^ k → ratVal (fnEval .rsq x).1 = (2 : Rat) ^ (-k) ∧ (fnEval .rsq x).2 = 0))

/-- One selected element stands before another (07 R160): the larger value, of equal values the lower column, a number before a NaN. The
order among NaNs, by column, is the model's choice. (DESIGN CHOICE, log 44) -/
def topOrder (t : Nat) (a b : Nat × Nat) : Prop :=
  match tyElem t with
  | .int w sg => asInt w sg b.1 < asInt w sg a.1 ∨ (asInt w sg a.1 = asInt w sg b.1 ∧ a.2 < b.2)
  | .flt f => if (f.decode a.1).isNan then (f.decode b.1).isNan = true ∧ a.2 < b.2
    else (f.decode b.1).isNan = true ∨ lessVal (f.decode b.1) (f.decode a.1) ∨ (¬ lessVal (f.decode a.1) (f.decode b.1) ∧ a.2 < b.2)

/-- FTOPK's order (07 R160): every element of a row once, in order of selection. -/
def SelectionOrder : Prop :=
  ∀ (t n : Nat) (v : Nat → Nat) (l : List (Nat × Nat)), (∀ j, j < n → v j < 2 ^ (tyElem t).width) →
    l = ((List.range n).map fun j => (v j, j)) → (topSort (tyElem t) l).Perm l ∧ (topSort (tyElem t) l).Pairwise (topOrder t)

/-- A result of vector elements under a mask. -/
def under (s : State) (k : BitVec 3) (f : Nat → Nat) : List (Option Nat) :=
  (List.range s.me.elems).map fun e => if s.me.kbit k e then some (f e) else none

/-- The flags of the elements that a mask admits. -/
def flagsUnder (s : State) (k : BitVec 3) (f : Nat → Flags) : List Flags :=
  (List.range s.me.elems).map fun e => if s.me.kbit k e then f e else 0

/-! ### Synchronisation, gangs, tasks and futures (10 R198 to R216, 12 R249 to R261) -/

/-- An instruction of the synchronisation family that makes no access is banned in replay and waits behind a fence (12 R250). -/
structure FlagReady (s : State) (g : Guard) (n : Nat := 0) : Prop where
  ready : s.ready g n
  once : s.me.rpl = false
  fence : s.me.fenced = false

/-- The core's earlier requests to the flag stores, whose order it keeps (12 R253). -/
def flagRequest (s : State) (b : MsgBody) : Prop :=
  match b with
  | .semReq _ w => w.core = s.cur.val ∧ w.cmd = none
  | .signal c .. => c = s.cur.val
  | .tqPush c .. => c = s.cur.val
  | .tqPop c .. => c = s.cur.val
  | _ => False

/-- A message sent, not before the core's earlier flag requests arrive. -/
def sentAfter (s t : State) (b : MsgBody) (within : Nat) : Prop :=
  ∃ m : Msg, t.msgs = s.msgs ++ [m] ∧ m.body = b ∧ s.clock ≤ m.at_ ∧
    (∀ y ∈ s.msgs, flagRequest s y.body → y.at_ ≤ m.at_) ∧
    ((∀ y ∈ s.msgs, flagRequest s y.body → y.at_ ≤ s.clock + within) → m.at_ ≤ s.clock + within)

/-! ### Engine commands (14 R281 to R287, 16 R329 to R350) -/

/-- An engine command at issue: guard, options, queue, opcode, CF bits, result queue, handles used, the conditions of its rules, the sign
mask that it captures, the weight handles that it pins, what it captures, and what it does to the row views. -/
structure CmdForm where
  g : Guard
  e : EngOpt
  queue : State → Nat
  op : Nat
  cf : BitVec 3 := 0
  rq : Option Nat := none
  uses : State → List Nat := fun _ => []
  checks : State → Prop := fun _ => True
  mask : State → Except Trap (Option (BitVec 128)) := fun _ => .ok none
  pins : State → List HInfo := fun _ => []
  cap : State → Option (BitVec 128) → Cap := fun _ _ => {}
  view : State → Core → Core := fun _ k => k

/-- A map's handle, holder and effective format, as the core sees them. -/
def mh (s : State) (m : BitVec 4) : HInfo := s.mapHandle (s.me.tmap m)
def mHold (s : State) (m : BitVec 4) : Fmt := s.holder s.me (mh s m).e
def mFmt (s : State) (m : BitVec 4) : Fmt := effFmt (mHold s m) (s.me.tmap m)

/-- The map rules of 04 R90: no wrapping dimension of size 0; elements of 4 bits follow each other in dimension 0. -/
def MapSound (s : State) (m : BitVec 4) (w : Nat) : Prop :=
  TMap.badWrap (s.me.tmap m) = none ∧ (w = 4 → TMap.stride (s.me.tmap m) 0 = 0)

/-- 06 R123: the map carries its holder's format and tag, unless the holder is RAW. -/
def HolderAgrees (s : State) (m : BitVec 4) : Prop :=
  (mHold s m).code = 0 ∨ (TMap.fmt (s.me.tmap m) = (mHold s m).code ∧ TMap.tag (s.me.tmap m) = (mHold s m).tag)

/-- 06 R119: nothing to transform, or an extent that the block size divides. -/
def BlocksFit (src dst : Tag) (n : Nat) : Prop := src = dst ∨ n % tagB (if src.none? then dst else src).code.toNat = 0

/-- The checks of a copy (16 R333 to R336) from map b to map a. -/
structure CopyFits (s : State) (k : CopyKind) (a b : BitVec 4) (n : List Nat) : Prop where
  dst : TMap.gather (s.me.tmap a) = false
  src : (k.op = 0x48 ∨ k.op = 0x4B → TMap.gather (s.me.tmap b) = false) ∧ (k.op = 0x4A → TMap.gather (s.me.tmap b) = true)
  list : TMap.gather (s.me.tmap b) = true → TMap.stride (s.me.tmap b) 4 % 4 = 0 ∧ TMap.wrap (s.me.tmap b) 1 = false
  maps : MapSound s a (mFmt s a).width ∧ MapSound s b (mFmt s b).width
  counts : copyCounts k (s.me.tmap a) (s.me.tmap b) = .ok n
  legal : mapLegal (mHold s a) (s.me.tmap a) = true ∧ mapLegal (mHold s b) (s.me.tmap b) = true
  move : plainPair (mFmt s a) (mFmt s b) = true ∨ (plainOnly (mFmt s a) = false ∧ plainOnly (mFmt s b) = false)
  holders : HolderAgrees s a ∧ HolderAgrees s b
  tags : (mFmt s a).tag.none? = true ∨ (mFmt s b).tag.none? = true ∨ (mFmt s a).tag = (mFmt s b).tag
  size : volume n ≤ 2 ^ 32

/-- The extent along which a copy transforms its blocks (06 R122, 16 R336): that of destination dimension 0 for a forward transform, of source
dimension 0 for an inverse. -/
def copyExtent (s : State) (k : CopyKind) (a b : BitVec 4) : Nat :=
  if (mFmt s b).tag.none? = true ∧ TMap.wrap (s.me.tmap a) 0 = false then TMap.size (s.me.tmap a) 0 - TMap.org (s.me.tmap a) 0
  else match copyCounts k (s.me.tmap a) (s.me.tmap b) with
    | .ok n => if (mFmt s b).tag.none? && k.t then n.getD 1 0 else n.getD 0 0
    | .error _ => 0

/-- The weight handles among a data handle and the scale handle of its format, if it uses one (15 R312). -/
def weights (scaled : Bool) (f : Fmt) (h : HInfo) : List HInfo :=
  (if scaled = true ∧ f.sh.h ≠ h.h then [h, f.sh] else [h]).filter fun x => decide (Ent.kind x.e = 2)

/-- A copy command. -/
def copyForm (g : Guard) (e : EngOpt) (k : CopyKind) (a b : BitVec 4) (queue : State → Nat) (cf : BitVec 3) (more : State → Prop)
    (x y : State → Word) : CmdForm :=
  { g := g, e := e, queue := queue, op := k.op, cf := cf, uses := fun s => s.mapUses [a, b]
    checks := fun s => more s ∧ ∃ n, CopyFits s k a b n
    mask := fun s => s.captureMask (mFmt s b).tag (mFmt s a).tag (copyExtent s k a b)
    pins := fun s => if k.op = 0x4B then [] else weights (mFmt s b).sideHandle (mFmt s b) (mh s b)
    cap := fun s m => { ma := s.me.tmap a, mb := s.me.tmap b, ha := mh s a, hb := mh s b, fa := mFmt s a, fb := mFmt s b, mask := m,
                        x := x s, y := y s } }

/-- COPY and COPY2 into a LOCAL handle are load commands, others store commands (02 R48). -/
def intoLocal (a : BitVec 4) (s : State) : Nat := if Ent.space (mh s a).e = 1 then 0 else 2

/-- A descriptor's rows (09 R180): at least one, none past row 63, no reserved bit set. -/
def RowsFit (d : Word) (top : Nat) : Prop :=
  d.toNat < 2 ^ top ∧ 1 ≤ descM d ∧ descM d ≤ 64 ∧ descRow0 d + descM d ≤ 64

/-- The plane that a command reads is valid and of the core's context (09 R181, R193). -/
def PlaneReady (s : State) (p : Nat) (pl : PlaneInfo) : Prop := s.planeView s.cur p = (true, pl) ∧ s.me.ctx = some pl.ctx

/-- A ring fit for subscriptions (14 R293, 16 R340). -/
def RingFits (s : State) (a : BitVec 4) : Prop :=
  Ent.space (mh s a).e = 1 ∧ Ent.base (mh s a).e % 16 = 0 ∧ ringSize (mh s a).e % 16 = 0 ∧ 64 ≤ ringSize (mh s a).e ∧
    TMap.fmt (s.me.tmap a) = (mHold s a).code ∧ ((mHold s a).code = 0 ∨ TMap.tag (s.me.tmap a) = (mHold s a).tag)

/-- The MRUN conditions of 09 R188, 08 R168, R174, 06 R127. -/
structure RunFits (s : State) (a b : BitVec 4) (k : BitVec 1) (pl : PlaneInfo) : Prop where
  rows : RowsFit (s.me.mreg b) 14
  gather : TMap.gather (s.me.tmap a) = false
  map : MapSound s a (mFmt s a).width
  holder : HolderAgrees s a
  plane : PlaneReady s (descPlane (s.me.mreg b)) pl
  pair : pairOk (mFmt s a).code pl.fmt = true
  tagLegal : tagOk (mFmt s a).tag.code.toNat (mFmt s a).tag.id.toNat = true
  aligned : pl.layout = 1 → TMap.wrap (s.me.tmap a) 0 = false ∧ TMap.stride (s.me.tmap a) 0 = 1 ∧
    (∀ d, 1 ≤ d → d ≤ 4 → TMap.stride (s.me.tmap a) d % 32 = 0) ∧
    (((List.range 5).map fun d => (TMap.org (s.me.tmap a) d : Int) * TMap.stride (s.me.tmap a) d).foldl (· + ·)
      (TMap.base (s.me.tmap a) : Int)) % 32 = 0
  tag : (mFmt s a).tag = pl.ktag
  views : k = 0 → ∀ n, n < descM (s.me.mreg b) →
    (s.me.sto.acc.getD (descRow0 (s.me.mreg b) + n) {}).tag = (if pl.layout = 1 then {} else pl.ktag) ∧
    ((s.me.sto.acc.getD (descRow0 (s.me.mreg b) + n) {}).kind = .clear ∨
     (s.me.sto.acc.getD (descRow0 (s.me.mreg b) + n) {}).kind = (if pl.layout = 1 then .fp else .int))

/-- The engine commands of the opcode table; `pl` is the plane that MRUN and MASSAY read. -/
def cmdForm (pl : PlaneInfo) : Instr → Option CmdForm
  | .mlease g n e => some { g := g, e := e, queue := fun _ => 1, op := 0x40, cap := fun _ _ => { x := n.setWidth 64 } }
  | .mfree g e => some { g := g, e := e, queue := fun _ => 1, op := 0x41 }
  | .mldw g a l u c e => some
    { g := g, e := e, queue := fun _ => 1, op := 0x42, uses := fun s => s.matUses a
      checks := fun s => let m := s.me.tmap a
        TMap.wrap m 0 = false ∧ TMap.wrap m 1 = false ∧ TMap.gather m = false ∧
        MapSound s a (if isSparse (TMap.fmt m) then 8 else fmtWidth (TMap.fmt m).toNat) ∧
        isWeight (TMap.fmt m) = true ∧ (u = 1 ↔ TMap.fmt m = 0x40) ∧ (isSparse (TMap.fmt m) = false → c = 0) ∧
        (isSparse (mHold s a).code = true → (mHold s a).aux = c) ∧
        tagOk (TMap.tag m).code.toNat (TMap.tag m).id.toNat = true ∧ HolderAgrees s a ∧
        extentOk (TMap.fmt m) c (mapCount m 0) (mapCount m 1) = true
      pins := fun s => weights (isBlockFmt (mFmt s a).code.toNat && decide ((mFmt s a).ssrc = 1)) (mFmt s a) (mh s a)
      cap := fun s _ => let m := s.me.tmap a
        { ma := m, ha := mh s a, fa := mFmt s a, y := l.setWidth 64
          plane := { fmt := TMap.fmt m, ncode := c, layout := u, ktag := TMap.tag m, kext := mapCount m 0, next := mapCount m 1,
                     ctx := s.me.ctx.getD 64 } } }
  | .mrun g a b f h k e => some
    { g := g, e := e, queue := fun _ => 1, op := 0x43, cf := k.setWidth 3 ||| (h.setWidth 3 <<< 1) ||| (f.setWidth 3 <<< 2)
      uses := fun s => s.matUses a, checks := fun s => RunFits s a b k pl
      cap := fun s _ => { ma := s.me.tmap a, ha := mh s a, fa := mFmt s a, x := s.me.mreg b, plane := pl
                          mb := packRows s.me.sto.acc (descRow0 (s.me.mreg b)) (descM (s.me.mreg b)) }
      view := fun s => fun c => c.viewRows (descRow0 (s.me.mreg b)) (descM (s.me.mreg b)) fun r =>
        { r with kind := if pl.layout = 1 then .fp else .int, tag := if pl.layout = 1 then {} else pl.ktag } }
  | .mdrain g a b h k e => some
    { g := g, e := e, queue := fun _ => 1, op := 0x44, cf := k.setWidth 3 ||| (h.setWidth 3 <<< 1)
      uses := fun s => s.mapUses [a] ++ (if k = 1 then [(s.me.mreg b).toNat / 2 ^ 34 % 256] else []) ++
        (if h = 1 then [(s.me.mreg b).toNat / 2 ^ 42 % 256] else [])
      checks := fun s => RowsFit (s.me.mreg b) 50 ∧ 1 ≤ descN (s.me.mreg b) ∧ descCol0 (s.me.mreg b) + descN (s.me.mreg b) ≤ 1024 ∧
        TMap.gather (s.me.tmap a) = false ∧ MapSound s a (mFmt s a).width ∧ (mFmt s a).code ≠ 0 ∧ (mFmt s a).code ≠ 0x48 ∧
        isSparse (mFmt s a).code = false ∧ fmtLegal (mFmt s a).code.toNat (mFmt s a).aux.toNat = true ∧
        mapLegal (mHold s a) (s.me.tmap a) = true ∧ HolderAgrees s a
      mask := fun s => s.captureMask {} (mFmt s a).tag (descN (s.me.mreg b))
      cap := fun s m => let d := s.me.mreg b
        { ma := s.me.tmap a, ha := mh s a, fa := mFmt s a, x := d, mask := m
          hc := if k = 1 then ⟨d.toNat / 2 ^ 34 % 256, s.entry s.me (d.toNat / 2 ^ 34 % 256)⟩ else {}
          hd := if h = 1 then ⟨d.toNat / 2 ^ 42 % 256, s.entry s.me (d.toNat / 2 ^ 42 % 256)⟩ else {}
          mb := packRows s.me.sto.acc (descRow0 d) (descM d) } }
  | .mclr g b e => some
    { g := g, e := e, queue := fun _ => 1, op := 0x45, checks := fun s => RowsFit (s.me.mreg b) 13
      cap := fun s _ => { x := s.me.mreg b }
      view := fun s => fun c => c.viewRows (descRow0 (s.me.mreg b)) (descM (s.me.mreg b)) fun r => { r with kind := .clear, tag := {} } }
  | .massay g a b l e => some
    { g := g, e := e, queue := fun _ => 1, op := 0x46, cf := l.setWidth 3, checks := fun s => PlaneReady s l.toNat pl
      cap := fun s _ => { x := a.setWidth 64, y := s.me.mreg b, plane := pl } }
  | .copy g a b e => some (copyForm g e ⟨0x48, false⟩ a b (intoLocal a) 0 (fun _ => True) (fun _ => 0) (fun _ => 0))
  | .copy2 g a b t e => some (copyForm g e ⟨0x49, decide (t = 1)⟩ a b (intoLocal a) (t.setWidth 3) (fun _ => True) (fun _ => 0) (fun _ => 0))
  | .gath g a b e => some (copyForm g e ⟨0x4A, false⟩ a b (fun _ => 0) 0 (fun _ => True) (fun _ => 0) (fun _ => 0))
  | .mcast g a b f l e => some
      (copyForm g e ⟨0x4B, false⟩ a b (fun _ => 2) (l.setWidth 3 ||| (f.setWidth 3 <<< 2))
        (fun s => Ent.space (mh s a).e = 1 ∧ ∃ n, s.groupRef l.toNat = .ok n)
        (fun s => BitVec.ofNat 64 ((s.me.sys.role >>> (8 * l.toNat)).toNat % 256))
        (fun s => s.me.sys.bankfmt.getD (Ent.bank (mh s a).e) 0))
  | .subs g a b l e => some
    { g := g, e := e, queue := fun _ => 0, op := 0x4C, cf := l.setWidth 3, uses := fun s => s.mapUses [a, b]
      checks := fun s => RingFits s a ∧ TMap.gather (s.me.tmap b) = false ∧ (l = 1 → HolderAgrees s b ∧
          tagOk (TMap.tag (s.me.tmap a)).code.toNat (TMap.tag (s.me.tmap a)).id.toNat = true ∧
          tagOk (TMap.tag (s.me.tmap b)).code.toNat (TMap.tag (s.me.tmap b)).id.toNat = true) ∧ (l = 0 → (∀ d, d < 5 → TMap.wrap (s.me.tmap b) d = false) ∧
        MapSound s b (mFmt s b).width ∧ ringFormat (mFmt s a).code = true ∧ mapLegal (mHold s a) (s.me.tmap a) = true ∧
        mapLegal (mHold s b) (s.me.tmap b) = true ∧ (plainPair (mFmt s a) (mFmt s b) = true ∨ plainOnly (mFmt s b) = false) ∧
        HolderAgrees s b ∧
        ((mFmt s a).tag.none? = true ∨ (mFmt s b).tag.none? = true ∨ (mFmt s a).tag = (mFmt s b).tag))
      mask := fun s => if l = 1 then .ok none else s.captureMask (mFmt s b).tag (mFmt s a).tag (mapCount (s.me.tmap b) 0)
      cap := fun s m => { ma := s.me.tmap a, mb := s.me.tmap b, ha := mh s a, hb := mh s b, fa := mFmt s a, fb := mFmt s b, mask := m } }
  | .unsub g a e => some
    { g := g, e := e, queue := fun _ => 0, op := 0x4D, uses := fun s => [TMap.handle (s.me.tmap a)]
      cap := fun s _ => { ma := s.me.tmap a, ha := mh s a } }
  | .rfree g a b e => some
    { g := g, e := e, queue := fun _ => 2, op := 0x4E, uses := fun s => [TMap.handle (s.me.tmap a)]
      cap := fun s _ => { ma := s.me.tmap a, ha := mh s a, x := s.me.mreg b } }
  | .hfetch g a l e => some
    { g := g, e := e, queue := fun _ => 0, op := 0x50, cf := l.setWidth 3, uses := fun s => [(s.me.mreg a).toNat % 256]
      cap := fun s _ => { ha := ⟨(s.me.mreg a).toNat % 256, s.entry s.me ((s.me.mreg a).toNat % 256)⟩
                          y := if Ent.state (s.entry s.me ((s.me.mreg a).toNat % 256)) = 2 then 1 else 0 } }
  | .prosp g a b c e => some
    { g := g, e := e, queue := fun _ => 2, op := 0x51, cf := c, rq := if c = 7 then none else some c.toNat
      uses := fun s => s.mapUses [a] ++ [(s.me.mreg b).toNat / 2 ^ 38 % 256]
      checks := fun s => (s.me.mreg b).getLsbD 37 = false ∧ (∀ d, d < 5 → TMap.wrap (s.me.tmap a) d = false) ∧
        TMap.gather (s.me.tmap a) = false ∧
        ((0x10 ≤ (mHold s a).code.toNat ∧ (mHold s a).code.toNat ≤ 0x12) ∨ (0x20 ≤ (mHold s a).code.toNat ∧ (mHold s a).code.toNat < 0x40)) ∧
        mapLegal (mHold s a) (s.me.tmap a) = true ∧ (mHold s a).tag.none? = true ∧ HolderAgrees s a ∧
        1 ≤ mapCount (s.me.tmap a) 0 ∧ mapCount (s.me.tmap a) 0 ≤ 1024
      cap := fun s _ => { ma := s.me.tmap a, ha := mh s a, fa := mHold s a, x := s.me.mreg b
                          hc := ⟨(s.me.mreg b).toNat / 2 ^ 38 % 256, s.entry s.me ((s.me.mreg b).toNat / 2 ^ 38 % 256)⟩ } }
  | .hrebind g a b e => some
    { g := g, e := e, queue := fun _ => 2, op := 0x52, uses := fun s => [(s.me.mreg a).toNat % 256]
      cap := fun s _ => { ha := ⟨(s.me.mreg a).toNat % 256, s.entry s.me ((s.me.mreg a).toNat % 256)⟩
                          x := BitVec.ofNat 64 ((s.me.mreg b).toNat % 2 ^ 32) } }
  | .decj g a c e => some
    { g := g, e := e, queue := fun _ => 2, op := 0x54, cf := c, rq := if c = 7 then none else some c.toNat, uses := fun s => s.decjUses a
      checks := fun s => let h := jobHandle (s.me.mreg a)
        (s.me.mreg a).toNat < 2 ^ 40 ∧ jobOffset (s.me.mreg a) % 64 = 0 ∧
        coreFail (s.entry s.me h) (jobOffset (s.me.mreg a)) 64 false = none ∧
        firstPoison s.me.poison (localAddr (s.entry s.me h) (jobOffset (s.me.mreg a))) 64 = none ∧
        ((s.holder s.me (s.entry s.me (jobField (jobDesc s a) 5 1))).code = 0 ∨
          (s.holder s.me (s.entry s.me (jobField (jobDesc s a) 5 1))).tag.none? = true)
      cap := fun s _ => let d := jobDesc s a
        { ma := d, ha := ⟨jobField d 4 1, s.entry s.me (jobField d 4 1)⟩, hb := ⟨jobField d 5 1, s.entry s.me (jobField d 5 1)⟩
          fb := s.holder s.me (s.entry s.me (jobField d 5 1)) } }
  | .publish g c e => some
    { g := g, e := e, queue := fun _ => 2, op := 0x55, cf := c, rq := if c = 7 then none else some c.toNat }
  | _ => none
where
  /-- The descriptor of a decode job (15 R319). -/
  jobDesc (s : State) (a : BitVec 4) : BitVec 512 := BitVec.ofNat 512 (leNat (s.me.bytes
    (localAddr (s.entry s.me (jobHandle (s.me.mreg a))) (jobOffset (s.me.mreg a))) 64))

/-! ### Events -/

/-- The message with number m is b. -/
def waiting (s : State) (m : Nat) (b : MsgBody) : Prop := s.msg m = some b

/-- Only core c of the package has changed, beside the messages and the open choices. -/
def onlyCore (s u : State) (c : Fin 256) : Prop :=
  u = { s with cores := u.cores, msgs := u.msgs, nextMsg := u.nextMsg, free := u.free } ∧ ∀ o, o ≠ c → u.core o = s.core o

/-- The semaphore f of die d. -/
def semOf (s : State) (d : Fin 4) (f : Nat) : Sem := (s.dies[d]).sem f

/-- The token queue q of die d. -/
def tqOf (s : State) (d : Fin 4) (q : Nat) : List Word := (Table.get (s.dies[d]).tqs q).getD []

/-- A landing result on its way with its writes, to arrive by a cycle. -/
def answered (s u : State) (limit core landing : Nat) (ws : List Write) : Prop :=
  ∃ m ∈ u.msgs, m.body = .landed core landing ws ∧ s.clock ≤ m.at_ ∧ m.at_ ≤ max s.clock limit

/-- A wait at a group's barrier, once its arrival has told it the generation (10 R202). -/
def toldGen (n : Nat) (gen : BitVec 32) : RunMode → RunMode
  | .barrier x p none slot => if x = n then .barrier x p (some gen) slot else .barrier x p none slot
  | w => w

/-- How soon a face's search reaches the core with number k, from the one after its last grant (08 R164). -/
def searchRank (last : Option Nat) (k : Nat) : Nat :=
  match last with
  | some l => (k + 3 * (l + 1)) % 4
  | none => k

/-- No command with number n stands in a queue of the core. -/
def gone (k : Core) (n : Nat) : Prop := ∀ q x, x ∈ k.eng.queues.getD q [] → x.id ≠ n

/-- The dies after a command's release increment (14 R284). -/
def released (s : State) (cmd : Cmd) : Vector Die 4 :=
  match cmd.rel with
  | some f => (s.increment f.die f.sem 1).dies
  | none => s.dies

/-- The command n of a queue has started and is due. -/
structure Due (s : State) (c : Fin 256) (q n : Nat) (cmd : Cmd) : Prop where
  found : ((s.core c).eng.queues.getD q []).find? (fun x => decide (x.id = n)) = some cmd
  live : cmd.prog.dropped = false
  started : cmd.prog.start.isSome = true
  due : ∃ t, cmd.prog.due = some t ∧ t ≤ s.clock

/-- Device addresses va + 0 to va + n − 1 translate to the physical addresses f, no two to the same one. -/
def Places (x : Ctx) (va n : Nat) (write : Bool) (f : Nat → Nat) : Prop :=
  (∀ i, i < n → x.translate (va + i) write = .ok (f i)) ∧ ∀ i j, i < n → j < n → f i = f j → i = j

/-- A memory holds the bytes at the places f, and everything else as before. -/
def WrittenAt (old new : Memory) (n : Nat) (f : Nat → Nat) (bs : Nat → Byte) : Prop :=
  (∀ i, i < n → new.read (f i) = bs i) ∧ ∀ a, (∀ i, i < n → f i ≠ a) → new.read a = old.read a

/-- A command of a core with number n, as it now stands, in the queue q. -/
def now (k : Core) (q n : Nat) (p : Cmd → Prop) : Prop := ∀ y ∈ k.eng.queues.getD q [], y.id = n → p y

/-- Only one cluster's power state has changed. -/
def onlyPower (s u : State) (k : Fin 64) (p : Power) : Prop := u = { s with power := u.power } ∧ u.power[k] = p ∧ ∀ o, o ≠ k → u.power[o] = s.power[o]

/-! ### What the engines' commands leave at their completion (08 R171 to R177, 09 R186 to R191, 14 R291 to R297, 16 R337 to R345) -/

/-- Column j of row r of a core's accumulator (08 R174). -/
def accAt (k : Core) (r j : Nat) : Nat := (k.sto.acc.getD r {}).bits.toNat / 2 ^ (32 * j) % 2 ^ 32

/-- A sum over 0 to n − 1. -/
def sumTo (n : Nat) (f : Nat → Int) : Int := ((List.range n).map f).sum

/-- Weight k, j of a plane, and the scale byte of its block b, j (08 R163). -/
def weightAt (p : Plane) (k j : Nat) : Int := (p.w.getD k []).getD j 0
def blockScale (p : Plane) (b j : Nat) : Nat := (p.scale.getD b []).getD j 0

/-- Element k of row r of a consumed A tile, and the scale byte of its block. -/
def tileAt (x : Cmd) (r k : Nat) : Int := ((x.prog.tile.getD r []).getD k (0, 0)).1
def tileScale (x : Cmd) (r b : Nat) : Nat := ((x.prog.tile.getD r []).getD (32 * b) (0, 0)).2

/-- An accumulator element as an MRUN finds it (09 R188): zero under Z, and on a row that was CLEAR. -/
def runOld (s : State) (c : Fin 256) (x : Cmd) (n r j : Nat) : Nat :=
  if (x.cf.getLsbD 0 = true ∧ j < n) ∨ x.rowCode r % 4 = 0 then 0 else accAt (s.core c) (descRow0 x.cap.x + r) j

/-- One k-block added on the BLOCK32 path (08 R173): p is the exact sum of products, lb the logarithm of B. -/
def blockStep (lb ea ew : Nat) (p : Int) (v w : Nat) : Prop :=
  ((ea = 255 ∨ ew = 255 ∨ (FFmt.fp32.decode v).isNan = true) → w = 0x7FC00000) ∧
  (ea ≠ 255 → ew ≠ 255 → isFinite (FFmt.fp32.decode v) → ∃ fl,
    roundedOnce FFmt.fp32 ⟨0, true, 0⟩ (ratVal (FFmt.fp32.decode v) + (p : Rat) * 2 ^ (ea + ew) / 2 ^ (266 + lb)) false (w, fl))

/-- MRUN on its rows that are not committed, without poison (08 R172, R173, 09 R188): on the CHANNEL path each element takes the exact column
sum added once, on the BLOCK32 path the k-blocks in increasing order; columns from NEXT on and every other row stay. -/
def MrunEffect : Prop :=
  ∀ (c : Fin 256) (n : Nat) (s : State) (x : Cmd) (p : Plane), Due s c 1 n x → x.op.toNat = 0x43 → x.prog.tile ≠ [] → x.prog.bad = none →
    p = (s.faces[clusterOf c.val]).planes.getD (descPlane x.cap.x) {} → p.w.length = p.info.kext → p.info.next ≤ 1024 →
    descRow0 x.cap.x + descM x.cap.x ≤ 64 → (∀ r, ((s.core c).sto.acc.getD r {}).poison = 0) →
    ∃ u, exec (.engineCommandComplete c 1 n) s = .next u ∧ gone (u.core c) n ∧
      u.dies = (if x.cf.getLsbD 1 then s.dies else released s x) ∧ (u.core c).sto.spad = (s.core c).sto.spad ∧
      (u.core c).regs.s = (s.core c).regs.s ∧ (∀ o, o ≠ c → u.core o = s.core o) ∧
      (∀ r j, r < 64 → j < 1024 → (r < descRow0 x.cap.x + x.prog.commit ∨ descRow0 x.cap.x + descM x.cap.x ≤ r) →
        accAt (u.core c) r j = accAt (s.core c) r j) ∧
      ∀ r, x.prog.commit ≤ r → r < descM x.cap.x →
        (∀ j, p.info.next ≤ j → j < 1024 → accAt (u.core c) (descRow0 x.cap.x + r) j = runOld s c x p.info.next r j) ∧
        (∀ j, j < p.info.next → p.info.layout = 0 → accAt (u.core c) (descRow0 x.cap.x + r) j =
          (intResult 32 true (x.cf.getLsbD 2) (asInt 32 true (runOld s c x p.info.next r j) +
            sumTo p.info.kext fun k => tileAt x r k * weightAt p k j)).1) ∧
        (∀ j, j < p.info.next → p.info.layout = 1 → ∃ v : Nat → Nat, v 0 = runOld s c x p.info.next r j ∧
          accAt (u.core c) (descRow0 x.cap.x + r) j = v (p.info.kext / 32) ∧
          ∀ b, b < p.info.kext / 32 → blockStep (Nat.log2 (tagB p.info.ktag.code.toNat)) (tileScale x r b) (blockScale p b j)
            (sumTo 32 fun k => tileAt x r (32 * b + k) * weightAt p (32 * b + k) j) (v b) (v (b + 1)))

/-- The package with the page tables of a command's context as they were when the command started, which translate its accesses (11 R236).
(DEDUCED, log 45) -/
def asStarted (s : State) (x : Cmd) : State := s.withPages x.ctx x.prog.pages

/-- The byte at an offset of a handle of the scratchpad or of HBM, as an MLDW reads it. -/
def loadRd (s : State) (c : Fin 256) (x : Cmd) (h : HInfo) : Rd := (asStarted s x).engRd c x.ctx x.cap.epoch weightSpace 4 h false

/-- The place of weight k, j of an MLDW's source (09 R186). -/
def loadPlace (x : Cmd) (k j : Nat) : Loc := TMap.locate x.cap.ma (x.cap.fa.width = 4) 2 [k, j] none

/-- The scale byte of the block that holds weight k, j (05 R102). -/
def loadScale (s : State) (c : Fin 256) (x : Cmd) (k j : Nat) : Except (Reason × Nat) (List Byte × Option Nat) :=
  if x.cap.fa.ssrc = 0 then loadRd s c x x.cap.ha ((loadPlace x k j).off / 32 * 33) 1
  else if x.cap.fa.ssrc = 1 then loadRd s c x x.cap.fa.sh ((loadPlace x k j).off / 32) 1
  else .ok ([0x7F], none)

/-- Byte i of sparse record g of column block b (05 R104). -/
def recordByte (s : State) (c : Fin 256) (x : Cmd) (b g i : Nat) : Except (Reason × Nat) (List Byte × Option Nat) :=
  loadRd s c x x.cap.ha ((TMap.locate x.cap.ma false 2 [0, 0] none).off +
    (b * (x.cap.plane.kext / 12) + g) * recordBytes x.cap.plane.fmt (sparseN x.cap.plane.ncode) + i) 1

/-- MLDW, with no poison among what it may read (08 R163, R171, 09 R186, 05 R104): the plane takes the command's fields; each weight is the
integer that stands at its place, a failing one and one under a failing scale zero; the scales are those of the blocks; a sparse record
gives its column block the weights at its positions and zeros between them. -/
def MldwEffect : Prop :=
  ∀ (c : Fin 256) (n : Nat) (s : State) (x : Cmd), Due s c 1 n x → x.op.toNat = 0x42 → (s.core c).sto.poison = [] → s.hbmPoison = [] → x.prog.struck = [] →
    ∃ (u : State) (p : Plane), exec (.engineCommandComplete c 1 n) s = .next u ∧ gone (u.core c) n ∧ u.dies = released s x ∧
      (u.core c).sto.acc = (s.core c).sto.acc ∧ (u.core c).sto.spad = (s.core c).sto.spad ∧ (u.core c).regs.s = (s.core c).regs.s ∧
      p = (u.faces[clusterOf c.val]).planes.getD (x.cap.y.toNat % 2) {} ∧ p.info = x.cap.plane ∧
      p.valid = !(s.faces[clusterOf c.val]).quarantined ∧
      (u.faces[clusterOf c.val]).planes.getD (1 - x.cap.y.toNat % 2) {} = (s.faces[clusterOf c.val]).planes.getD (1 - x.cap.y.toNat % 2) {} ∧
      (∀ g, g ≠ clusterOf c.val → u.faces[g] = s.faces[g]) ∧
      (isSparse x.cap.plane.fmt = false → x.cap.fa.width = 4 ∨ x.cap.fa.width = 8 →
        (x.cap.plane.layout = 1 → x.cap.fa.code = 0x40) → p.malf = false ∧
        ∀ k j, k < x.cap.plane.kext → j < x.cap.plane.next →
          ((loadPlace x k j).inside = false → weightAt p k j = 0) ∧
          (∀ e, loadRd s c x x.cap.ha (x.cap.fa.phys (loadPlace x k j).off) 1 = .error e → weightAt p k j = 0) ∧
          (∀ b po, (loadPlace x k j).inside = true → loadRd s c x x.cap.ha (x.cap.fa.phys (loadPlace x k j).off) 1 = .ok ([b], po) →
            (x.cap.plane.layout = 1 → ∃ sc, loadScale s c x (k / 32 * 32) j = .ok sc) →
            weightAt p k j = asInt x.cap.fa.width true (b.toNat / 16 ^ (loadPlace x k j).nib % 2 ^ x.cap.fa.width)) ∧
          (x.cap.plane.layout = 1 → k / 32 < x.cap.plane.kext / 32 →
            (∀ b po, loadScale s c x (k / 32 * 32) j = .ok ([b], po) → blockScale p (k / 32) j = b.toNat) ∧
            ∀ e, loadScale s c x (k / 32 * 32) j = .error e → weightAt p k j = 0)) ∧
      (isSparse x.cap.plane.fmt = true → ∀ b g, b < x.cap.plane.next / 128 → g < x.cap.plane.kext / 12 →
        ∀ (bs : Nat → Byte) (z w : Nat), z = sparseN x.cap.plane.ncode → w = (if x.cap.plane.fmt = 0x60 then 8 else 4) →
          (∀ i, i < recordBytes x.cap.plane.fmt z → recordByte s c x b g i = .ok ([bs i], none)) →
          let at_ (m : Nat) : Nat := ((bs 0).toNat + 256 * (bs 1).toNat + 65536 * (bs 2).toNat) / 16 ^ m % 16
          let sound : Prop := (∀ m, m < z → at_ m < 12) ∧ (∀ m, m + 1 < z → at_ m < at_ (m + 1)) ∧
            (∀ m, z ≤ m → m < 6 → at_ m = 0) ∧ ∀ i, 3 ≤ i → i < 16 → bs i = 0
          (¬ sound → p.malf = true ∧ (u.core c).sys.accstat.getLsbD 6 = true ∧ ∀ t j, t < 12 → j < 128 → weightAt p (12 * g + t) (128 * b + j) = 0) ∧
          (sound → ∀ t j, t < 12 → j < 128 →
            (∀ m, m < z → at_ m = t → weightAt p (12 * g + t) (128 * b + j) =
              asInt w true ((bs (16 + (128 * m + j) * w / 8)).toNat / 16 ^ (if w = 4 then j % 2 else 0) % 2 ^ w)) ∧
            ((∀ m, m < z → at_ m ≠ t) → weightAt p (12 * g + t) (128 * b + j) = 0)))

/-- A place behind an entry (11 R220): a byte of a core's scratchpad, of HBM (number 256) or of the host (257). -/
def cellOf (s : State) (c : Fin 256) (ctx : Nat) (e : BitVec 256) (o : Nat) : Option (Nat × Nat) :=
  match Ent.space e with
  | 1 => some (c.val, localAddr e o)
  | 4 => some (Ent.rcore e, bankAddr (Ent.rbank e) (Ent.base e + o))
  | 2 => (Table.get s.ctxs ctx).bind fun x => match x.translate (Ent.base e + o) true with
    | .ok a => some (256, a)
    | .error _ => none
  | 5 => if Ent.window e = 63 then none else (s.window ctx false (Ent.window e)).map fun w => (257, w.base.toNat + Ent.base e + o)
  | _ => none

/-- The byte that stands at a place. -/
def cellAt (s : State) (x : Nat × Nat) : Byte :=
  if x.1 < 256 then (s.core (coreId x.1)).sto.spad.read x.2 else if x.1 = 256 then s.hbm.read x.2 else s.host.read x.2

/-- The n bytes of an element's place, or its nibble, hold a number. -/
def Holds (s u : State) (c : Fin 256) (ctx : Nat) (h : HInfo) (f : Fmt) (n : Nat) (l : Loc) (v : Nat) : Prop :=
  (f.width = 4 → ∀ x, cellOf s c ctx h.e (f.phys l.off) = some x → (cellAt u x).toNat / 16 ^ l.nib % 16 = v % 16) ∧
  (f.width ≠ 4 → ∀ i x, i < n → cellOf s c ctx h.e (f.phys l.off + i) = some x → cellAt u x = BitVec.ofNat 8 (v / 256 ^ i))

/-- An element of n bytes can be written (04 R91): inside its map, aligned, its bytes passing their check. -/
def Writable (f : Fmt) (n : Nat) (rd : Rd) (l : Loc) : Prop :=
  l.inside = true ∧ l.off % f.bytes = 0 ∧ (∃ b, rd (f.phys l.off) f.bytes = .ok b) ∧ ∃ b, rd (f.phys l.off) n = .ok b

/-- A later element leaves an earlier one of n bytes alone. -/
def Apart (f : Fmt) (n : Nat) (l m : Loc) : Prop :=
  (f.width = 4 ∧ l.nib ≠ m.nib) ∨ f.phys l.off + n ≤ f.phys m.off ∨ f.phys m.off + n ≤ f.phys l.off

/-- The scale of a drained row or column (09 R189): 1 without a handle, 0 for bytes that fail. -/
def DrainScale (s : State) (c : Fin 256) (x : Cmd) (on : Bool) (h : HInfo) (i : Nat) (v : Machine.Num) : Prop :=
  (on = false → v = .ofInt 1) ∧
  (on = true → (∀ bs po, s.engRd c x.ctx x.cap.epoch localSpace 4 h false (4 * i) 4 = .ok (bs, po) → v = FFmt.fp32.decode (leNat bs)) ∧
    ∀ e, s.engRd c x.ctx x.cap.epoch localSpace 4 h false (4 * i) 4 = .error e → v = .zero false)

/-- MDRAIN, with no poison in what it may read (08 R175, 09 R189): the accumulator stays; in a destination of an unrotated element format each
element that can be written holds the exact product of the accumulator's element and its scales, rounded once, where no element is a NaN or
an infinity; every byte outside the handles of its destination stays. -/
def MdrainEffect : Prop :=
  ∀ (c : Fin 256) (n : Nat) (s : State) (x : Cmd), s.inv → Due s c 1 n x → x.op.toNat = 0x44 → Ent.space x.cap.ha.e = 1 →
    (s.core c).sto.poison = [] → (∀ r, ((s.core c).sto.acc.getD r {}).poison = 0) → descRow0 x.cap.x + descM x.cap.x ≤ 64 →
    descCol0 x.cap.x + descN x.cap.x ≤ 1024 →
    ∃ u, exec (.engineCommandComplete c 1 n) s = .next u ∧ gone (u.core c) n ∧ u.dies = released s x ∧
      (u.core c).sto.acc = (s.core c).sto.acc ∧ (u.core c).regs.s = (s.core c).regs.s ∧ (∀ o, o ≠ c → u.core o = s.core o) ∧
      (∀ a, (∀ o, o < Ent.len x.cap.ha.e → localAddr x.cap.ha.e o ≠ a) →
        (isBlockFmt x.cap.fa.code.toNat = true → ∀ o, o < Ent.len x.cap.fa.sh.e → localAddr x.cap.fa.sh.e o ≠ a) →
        (u.core c).sto.spad.read a = (s.core c).sto.spad.read a) ∧
      ∀ el, fmtElem x.cap.fa.code.toNat x.cap.fa.aux.toNat = some el → isBlockFmt x.cap.fa.code.toNat = false → x.cap.fa.sideHandle = false →
        x.cap.fa.tag.none? = true →
        let place (r j : Nat) : Loc := TMap.locate x.cap.ma (x.cap.fa.width = 4) 2 [j, r] none
        let ok (r j : Nat) : Prop := Writable x.cap.fa x.cap.fa.bytes (s.engRd c x.ctx x.cap.epoch localSpace 4 x.cap.ha true) (place r j)
        ∀ (r j : Nat) (v rs cs : Machine.Num), x.prog.commit ≤ r → r < descM x.cap.x → j < descN x.cap.x → ok r j →
          (∀ q i, q < descM x.cap.x → i < descN x.cap.x → (r < q ∨ (r = q ∧ j < i)) → ok q i → Apart x.cap.fa x.cap.fa.bytes (place r j) (place q i)) →
          ((x.rowCode r % 4 = 0 → v = .zero false) ∧
            (x.rowCode r % 4 = 1 → isFinite v ∧ ratVal v =
              (asInt 32 true (accAt (s.core c) (descRow0 x.cap.x + r) (descCol0 x.cap.x + j)) : Rat) / tagB (x.rowCode r / 4) ∧ (ratVal v = 0 → v = .zero false)) ∧
            (x.rowCode r % 4 = 2 → v = FFmt.fp32.decode (accAt (s.core c) (descRow0 x.cap.x + r) (descCol0 x.cap.x + j)))) →
          x.rowCode r % 4 ≠ 3 → DrainScale s c x (x.cf.getLsbD 0) x.cap.hc r rs → DrainScale s c x (x.cf.getLsbD 1) x.cap.hd (descCol0 x.cap.x + j) cs →
          isFinite v → isFinite rs → isFinite cs →
          ∃ z, isFinite z ∧ ratVal z = ratVal v * ratVal rs * ratVal cs ∧ (ratVal z = 0 → z = .zero (xor (xor v.neg? rs.neg?) cs.neg?)) ∧
            Holds s u c x.ctx x.cap.ha x.cap.fa x.cap.fa.bytes (place r j)
              (el.encode z ⟨x.cap.rm, x.cap.sat, if x.cap.rm = 4 then srword x.cap.srBase (r * descN x.cap.x + j) else 0⟩ false).1

/-- The known-answer tile of MASSAY (08 R177). -/
def assayTile (w : Nat) (seed : Word) (r k : Nat) : Int :=
  let z := seed ^^^ BitVec.ofNat 64 (r * 2 ^ 32) ^^^ BitVec.ofNat 64 k
  let z := (z ^^^ (z >>> 30)) * 0xBF58476D1CE4E5B9
  let z := (z ^^^ (z >>> 27)) * 0x94D049BB133F11EB
  let z := z ^^^ (z >>> 31)
  asInt w true (z.toNat % 2 ^ w)

/-- The checksum of a plane for a seed (08 R177). -/
def assayCks (p : Plane) (seed : Word) : Word :=
  ((List.range 8).flatMap fun r => (List.range p.info.next).map fun j => (r, j)).foldl (fun cks x =>
    cks.rotateLeft 7 ^^^ BitVec.ofNat 64 (lowBits 32 (sumTo p.info.kext fun k =>
      assayTile (if p.info.fmt = 0x03 ∨ p.info.fmt = 0x51 ∨ p.info.fmt = 0x61 then 4 else 8) seed x.1 k * weightAt p k x.2))) 0

/-- MASSAY (08 R177, 09 R191, 22 R391): a checksum that differs sets ACCSTAT.ASY and raises the face's score by 64, up to 255; nothing else is
written. -/
def MassayEffect : Prop :=
  ∀ (c : Fin 256) (n : Nat) (s : State) (x : Cmd) (p : Plane), Due s c 1 n x → x.op.toNat = 0x46 →
    p = (s.faces[clusterOf c.val]).planes.getD (x.cf.toNat % 2) {} →
    ∃ u, exec (.engineCommandComplete c 1 n) s = .next u ∧ gone (u.core c) n ∧ u.dies = released s x ∧ (u.core c).sto = (s.core c).sto ∧
      (u.core c).regs.s = (s.core c).regs.s ∧ (∀ o, o ≠ c → u.core o = s.core o) ∧
      ((u.core c).sys.accstat = if assayCks p x.cap.x = x.cap.y then (s.core c).sys.accstat else (s.core c).sys.accstat ||| 0x20) ∧
      (u.faces[clusterOf c.val]).planes = (s.faces[clusterOf c.val]).planes ∧
      (u.faces[clusterOf c.val]).suspicion.toNat = if assayCks p x.cap.x = x.cap.y then (s.faces[clusterOf c.val]).suspicion.toNat
        else min 255 ((s.faces[clusterOf c.val]).suspicion.toNat + 64)

/-- The number that a copy's element p writes (14 R291, 16 R337), r being its source as read: the bits unchanged in a plain move, the bytes
unchanged into RAW, else the value encoded in the destination's element format. -/
def CopyValue (x : Cmd) (n : List Nat) (p : Nat) (r : ERead) (v : Nat) : Prop :=
  (plainPair x.cap.fa x.cap.fb = true ∧ v = r.bits) ∨
  (plainPair x.cap.fa x.cap.fb = false ∧ x.cap.fa.code = 0 ∧ v = r.raw) ∨
  (plainPair x.cap.fa x.cap.fb = false ∧ x.cap.fa.code ≠ 0 ∧ x.cap.fb.code ≠ 0 ∧ x.cap.fa.tag = x.cap.fb.tag ∧
    isBlockFmt x.cap.fa.code.toNat = false ∧ x.cap.fa.code ≠ 0x50 ∧ x.cap.fa.code ≠ 0x51 ∧
    ∃ el, fmtElem x.cap.fa.code.toNat x.cap.fa.aux.toNat = some el ∧
      v = (el.encode r.val ⟨x.cap.rm, x.cap.sat, if x.cap.rm = 4 then srword x.cap.srBase (if x.copyKind.t then swapOrder n p else p) else 0⟩
        (x.cap.fb.code.toNat ∈ [0x01, 0x02, 0x03, 0x04, 0x05])).1)

/-- COPY, COPY2, GATH and MCAST (14 R291, R292, 16 R337, R339), from another source than flash, without poison: one that was refused for its
overlap writes nothing. Else at each destination, for MCAST the bank of each member whose BANKFMT agrees, every element that can be written and
that no later one overwrites holds its source as read, moved or converted; every byte that it does not write stays. The copy leaves
its queue and makes its release, a SYSTEM release excepted that waits for the host and the peers (13 R276, R279). Its accesses are translated by the
page tables of its start (11 R236; DEDUCED, log 45). -/
def CopyEffect : Prop :=
  ∀ (c : Fin 256) (q : Fin 3) (n : Nat) (s v : State) (x : Cmd), s.inv → Due s c q.val n x → 0x48 ≤ x.op.toNat → x.op.toNat ≤ 0x4B →
    v = asStarted s x → x.prog.consumed = false → x.prog.struck = [] → flashPages (v.copyReads c x) = [] →
    s.hbmPoison = [] → s.hostPoison = [] → (∀ k, (s.core k).sto.poison = []) →
    ∃ u, exec (.engineCommandComplete c q n) s = .next u ∧ (∀ o, (u.core o).regs.s = (s.core o).regs.s ∧ (u.core o).vec = (s.core o).vec) ∧
      ((x.rel = none ∨ x.scope ≠ 4) → gone (u.core c) n ∧ u.dies = released s x) ∧
      (x.prog.outcome = 1 → ∀ y, cellAt u y = cellAt s y) ∧
      (x.prog.outcome ≠ 1 →
        (∀ y, (∀ d ∈ v.copyDests c x, ∀ b ∈ v.copyWrites c x d, cellOf v c x.ctx (if b.1 then d.2 else d.1).e b.2 ≠ some y) →
          cellAt u y = cellAt s y) ∧
        ∀ (ns : List Nat) (d : HInfo × HInfo), copyCounts x.copyKind x.cap.ma x.cap.mb = .ok ns → d ∈ v.copyDests c x →
          (x.op.toNat = 0x4B →
            ((s.core (coreId (if Ent.space d.1.e = 4 then Ent.rcore d.1.e else c.val))).sys.bankfmt.getD (Ent.bank x.cap.ha.e) 0) = x.cap.y) →
          (isBlockFmt x.cap.fa.code.toNat = true → x.cap.fa.ssrc ≠ 1) →
          (∀ o o' y, o < Ent.len d.1.e → o' < Ent.len d.1.e → cellOf v c x.ctx d.1.e o = some y → cellOf v c x.ctx d.1.e o' = some y → o = o') →
          let places := (v.copyTiles c x).2
          let size := if x.cap.fa.code = 0 then x.cap.fb.bytes else x.cap.fa.bytes
          let ok (l : Loc) : Prop := Writable x.cap.fa size (v.copyRd c x d.1 true) l
          ∀ (p i1 j1 z : Nat) (src dst : Loc), places[p]? = some (i1, src, j1, dst) → ok dst →
            (∀ k i j src' l, p < k → places[k]? = some (i, src', j, l) → ok l → Apart x.cap.fa size dst l) →
            CopyValue x ns p (readElem x.cap.fb x.cap.fb.width (!plainPair x.cap.fa x.cap.fb) (v.copyRd c x x.cap.hb false)
              (v.copyRd c x x.cap.fb.sh false) i1 src) z →
            Holds v u c x.ctx d.1 x.cap.fa size dst z)

/-- SUBS, UNSUB and RFREE at their completion (14 R293, R295, R297, 16 R340, R344, R345), on a ring that takes bytes: SUBS zeroes the control
block, sets RSTAT to 1 and makes the subscription live; UNSUB sets RSTAT to 3 and ends it, waits for a packet in flight, and does nothing without
one; RFREE adds to FREETOT, or is refused with a violation and the suspension. -/
def RingEffects : Prop :=
  (∀ (c : Fin 256) (n : Nat) (s : State) (x : Cmd), s.inv → Due s c 0 n x → x.op.toNat = 0x4C → Ent.space x.cap.ha.e = 1 → ringShut x.cap.ha = none →
    ∃ (u : State) (y : Sub), exec (.engineCommandComplete c 0 n) s = .next u ∧ gone (u.core c) n ∧ u.dies = s.dies ∧
      (u.core c).eng.subs = (s.core c).eng.subs ++ [y] ∧ y.ring = x.cap.ha ∧ y.wrtot = 0 ∧ y.freetot = 0 ∧ y.next = 0 ∧
      y.suspended = false ∧ y.endReq = false ∧ y.list = x.cf.getLsbD 0 ∧ y.cmd.id = n ∧
      WrittenAt (s.core c).sto.spad (u.core c).sto.spad 64 (localAddr x.cap.ha.e) (fun i => if i = 20 then 1 else 0)) ∧
  (∀ (c : Fin 256) (n : Nat) (s : State) (x : Cmd), s.inv → Due s c 0 n x → x.op.toNat = 0x4D →
    ((s.core c).subOf x.cap.ha.h = none → ∃ u, exec (.engineCommandComplete c 0 n) s = .next u ∧ gone (u.core c) n ∧ u.dies = released s x ∧
      (u.core c).sto = (s.core c).sto ∧ (u.core c).eng.subs = (s.core c).eng.subs) ∧
    (∀ y, (s.core c).subOf x.cap.ha.h = some y → Ent.space y.ring.e = 1 → ringShut y.ring = none →
      (s.inFlight c y = false → ∃ u, exec (.engineCommandComplete c 0 n) s = .next u ∧ gone (u.core c) n ∧ u.dies = released s x ∧
        (u.core c).eng.subs = (s.core c).eng.subs.filter (fun z => decide (z.id ≠ y.id)) ∧
        WrittenAt (s.core c).sto.spad (u.core c).sto.spad 1 (fun _ => localAddr y.ring.e 20) (fun _ => 3)) ∧
      (s.inFlight c y = true → ∃ u, exec (.engineCommandComplete c 0 n) s = .next u ∧ u.dies = s.dies ∧ (u.core c).sto = (s.core c).sto ∧
        (now (u.core c) 0 n fun z => z.prog.due = none) ∧
        (u.core c).eng.subs = (s.core c).eng.subs.map fun z => if z.id = y.id then { z with endReq := true } else z))) ∧
  (∀ (c : Fin 256) (n : Nat) (s : State) (x : Cmd) (y : Sub), s.inv → Due s c 2 n x → x.op.toNat = 0x4E → (s.core c).subOf x.cap.ha.h = some y →
    Ent.space y.ring.e = 1 → ringShut y.ring = none →
    (x.cap.x.toNat % 16 = 0 → y.freetot.toNat + x.cap.x.toNat ≤ y.wrtot.toNat →
      ∃ u, exec (.engineCommandComplete c 2 n) s = .next u ∧ gone (u.core c) n ∧ u.dies = released s x ∧
        (u.core c).eng.subs = (s.core c).eng.subs.map (fun z => if z.id = y.id then { z with freetot := y.freetot + x.cap.x } else z) ∧
        WrittenAt (s.core c).sto.spad (u.core c).sto.spad 8 (fun i => localAddr y.ring.e (8 + i))
          (fun i => BitVec.ofNat 8 ((y.freetot + x.cap.x).toNat / 256 ^ i))) ∧
    ((x.cap.x.toNat % 16 ≠ 0 ∨ y.wrtot.toNat < y.freetot.toNat + x.cap.x.toNat) →
      ∃ u, exec (.engineCommandComplete c 2 n) s = .next u ∧ gone (u.core c) n ∧ (u.core c).sys.viol = true ∧
        (u.core c).eng.subs = (s.core c).eng.subs.map (fun z => if z.id = y.id then { z with suspended := true } else z) ∧
        (u.core c).sto.spad.read (localAddr y.ring.e 20) = 2 ∧ (u.core c).sto.spad.read (localAddr y.ring.e 21) = 2 ∧
        ∀ i, i < 4 → (u.core c).sto.spad.read (localAddr y.ring.e (24 + i)) = BitVec.ofNat 8 (x.cap.x.toNat / 256 ^ i))) ∧
  (∀ (c : Fin 256) (n : Nat) (s : State) (x : Cmd), Due s c 2 n x → x.op.toNat = 0x4E → (s.core c).subOf x.cap.ha.h = none →
    ∃ u, exec (.engineCommandComplete c 2 n) s = .next u ∧ gone (u.core c) n ∧ u.dies = released s x ∧ (u.core c).sto = (s.core c).sto ∧
      (u.core c).eng.subs = (s.core c).eng.subs)

/-- Byte i of a packet in its ring (14 R294), placed at data offset p of a ring of m bytes: header, payload, padding. -/
def packetByte (k : Packet) (stream m p i : Nat) : Byte :=
  if i < 3 then BitVec.ofNat 8 (k.payload.length / 256 ^ i)
  else if i = 3 then BitVec.ofNat 8 ((if m < p + (16 + 16 * ((k.payload.length + 15) / 16)) then 1 else 0) + (if k.fin then 2 else 0) +
    if k.bad = [] then 0 else 4)
  else if i < 8 then BitVec.ofNat 8 (k.seq / 256 ^ (i - 4))
  else if i < 10 then BitVec.ofNat 8 (stream / 256 ^ (i - 8))
  else if i < 16 then 0
  else k.payload.getD (i - 16) 0

/-- HFETCH at its completion (16 R346): without WAIT it ends once its request has been taken or needs nothing; with WAIT it waits until the
object stands in a slot, or its handle is retired, which is a violation. -/
def FetchEffect : Prop :=
  ∀ (c : Fin 256) (n : Nat) (s : State) (x : Cmd), Due s c 0 n x → x.op.toNat = 0x50 →
    ((x.prog.outcome = 2 ∨ x.prog.outcome = 3 ∨ (x.cf.getLsbD 0 = false ∧ x.prog.outcome = 1) ∨
        (x.cf.getLsbD 0 = true ∧ Ent.state (s.nowEntry x x.cap.ha.h) = 2)) →
      ∃ u, exec (.engineCommandComplete c 0 n) s = .next u ∧ gone (u.core c) n ∧ u.dies = released s x ∧ (u.core c).sto = (s.core c).sto) ∧
    (x.prog.outcome ≠ 2 → x.prog.outcome ≠ 3 → x.cf.getLsbD 0 = true → Ent.state (s.nowEntry x x.cap.ha.h) = 4 →
      ∃ u, exec (.engineCommandComplete c 0 n) s = .next u ∧ gone (u.core c) n ∧ (u.core c).sys.viol = true) ∧
    (x.prog.outcome ≠ 2 → x.prog.outcome ≠ 3 →
      (if x.cf.getLsbD 0 then Ent.state (s.nowEntry x x.cap.ha.h) ≠ 2 ∧ Ent.state (s.nowEntry x x.cap.ha.h) ≠ 4 else x.prog.outcome ≠ 1) →
      exec (.engineCommandComplete c 0 n) s = .next s)

/-- The bind record b is the next of its die and can be carried out on core c in this cycle (10 R217). -/
structure Binds (s : State) (c : Fin 256) (b : Bind) : Prop where
  head : s.bindHead (dieOf c.val) = some b
  core : b.core = c.val
  time : b.at_ ≤ s.clock

/-- A host-queue entry e of kind k waits in queue q, which context ctx owns, in a state as every step keeps it. -/
structure Entry (s : State) (q : Fin 1024) (k : EntryKind) (e : List Byte) (ctx : Nat) (x : Ctx) : Prop where
  inv : s.inv
  pending : (s.queue q.val).pending = true
  kind : s.entryKind q.val = k
  entry : (s.queue q.val).entry = e
  owner : s.owner q.val = some (ctx, x)
  room : s.queueWaits q.val = false
  ready : s.entryStalled q.val = false

/-- The entry is taken from its queue (24 R410). -/
def taken (s u : State) (q : Fin 1024) : Prop :=
  (u.queue q.val).pending = false ∧ (u.queue q.val).cidx = (s.queue q.val).cidx + 1

/-- The entry is taken and its completion, with a status and DATA0, waits for the context's ring (24 R413). -/
def completed (s u : State) (q : Fin 1024) (e : List Byte) (ctx : Nat) (x : Ctx) (status : Nat) (d0 : Word) : Prop :=
  taken s u q ∧ ∃ y, Table.get u.ctxs ctx = some y ∧ y.hold = x.hold ++ [entryDone q.val e status (hdr e 4 1) d0 0]

/-- The state after the entry that a queue gives is taken (24 R410). -/
def popped (s : State) (q : Fin 1024) : State := s.onQueue q.val fun h => { h with pending := false, cidx := h.cidx + 1 }

/-- The event that takes an entry of a kind from a queue answers o. -/
def entryRuns (q : Fin 1024) (s : State) (o : Host.Outcome State Fault Refusal) : EntryKind → Prop
  | .launch => exec (.launch q) s = o
  | .post => exec (.post q) s = o
  | .install => exec (.install q) s = o
  | .uninstall => exec (.uninstall q) s = o
  | .release => exec (.release q) s = o
  | .attest => exec (.attest q) s = o
  | .contextCreate => exec (.contextCreate q) s = o
  | .contextDestroy => exec (.contextDestroy q) s = o
  | .window => exec (.window q) s = o
  | .kill => exec (.kill q) s = o
  | .map => exec (.map q) s = o
  | .unmap => exec (.unmap q) s = o
  | .xferToDevice => exec (.xferToDevice q) s = o
  | .xferToHost => exec (.xferToHost q) s = o
  | .badkind => exec (.badkindEntry q) s = o

/-- The guard p0, which is true (01 R20). -/
def always : Guard := ⟨0, 0⟩

/-- An engine command without options (02 R38). -/
def noOpts : EngOpt := ⟨0, 0, 0, 0, 0, 0, 0, 0, 0⟩

end Sys2Proof.Spec

open Sys2Proof Sys2Proof.Machine Sys2Proof.Spec

/-- 03 R60 to R63, R65, R66, R78: a scalar operation whose operands can be read and whose destination has room issues, with the
table's result on its way to the destination. -/
def Obligations.ScalarResult : Prop :=
  ∀ (i : Instr) (f : ScalarForm) (s s' t : State) (xs : List Word), scalarForm i = some f → s.ready f.g →
    (s.opened f.g false false []).readAll f.srcs = .ok (xs, s') → s'.writeS f.d f.l (f.value s xs) = .ok t →
    exec i s = .next t.commit

/-- 03 R64, R65: a compare or predicate operation issues, with its value on its way to the predicate. -/
def Obligations.PredicateResult : Prop :=
  ∀ (i : Instr) (f : PredForm) (s s' : State) (xs : List Word), predForm i = some f → s.ready f.g →
    (s.opened f.g false false []).readAll f.srcs = .ok (xs, s') →
    exec i s = .next (s'.writeP f.d 1 (f.value s xs)).commit

/-- 03 R68: the two bundles after a transfer issue next, and the bundle fetched after them is the target. -/
def Obligations.DelayBundles : Prop :=
  ∀ (k : Core) (t : BitVec 13), k.seq.pc.toNat + 2 < 8192 →
    (k.advance (.transfer t)).seq.pc.toNat = k.seq.pc.toNat + 1 ∧
    (k.advance (.transfer t)).natural.seq.pc.toNat = k.seq.pc.toNat + 2 ∧
    (k.advance (.transfer t)).natural.natural.seq.pc = t ∧ (k.advance (.transfer t)).natural.natural.seq.transfer = none ∧
    (k.advance (.transfer t)).natural.natural.seq.loops = k.seq.loops

/-- 03 R70: a loop instruction in its place, LOOPR with no replay level live, with its end in range, its count below 2^32, a free level and an end that nests, skips
its body for a count of zero and else pushes a level. -/
def Obligations.LoopIssues : Prop :=
  ∀ (i : Instr) (f : LoopForm) (s s' : State) (xs : List Word), loopForm i = some f → s.ready f.g →
    (s.me.inDelay || s.me.rpl) = false → (f.stages ≠ 0 → ∀ l ∈ s.me.seq.loops, l.stages = 0) → s.me.seq.pc.toNat + 1 + f.len ≤ 8191 →
    (s.opened f.g false false []).readAll f.srcs = .ok (xs, s') → (f.count xs).toNat ≤ 0xFFFFFFFF → s.me.ldepth ≠ 6 →
    (∀ l r, s.me.seq.loops = l :: r → s.me.seq.pc.toNat + 1 + f.len ≤ l.fin.toNat) →
    exec i s = .next (s'.ctl (if f.count xs = 0 then .skip (s.me.seq.pc.toNat + f.len + 2)
      else .push { start := s.me.seq.pc + 1, fin := BitVec.ofNat 13 (s.me.seq.pc.toNat + 1 + f.len),
                   count := (f.count xs).setWidth 32, stages := f.stages })).commit

/-- 01 R8: the loop-end action outside replay: at the end of the innermost level its index counts on and,
below the count, fetch goes to its start; else the level is popped and the next enclosing level's own end check applies to the same
bundle; away from every end, fetch is sequential. -/
def Obligations.LoopEndAction : Prop :=
  ∀ (k : Core) (l : Loop) (r : List Loop), k.seq.loops = l :: r → k.seq.transfer = none → k.seq.rollback = none →
    (∀ x ∈ l :: r, x.stages = 0) → k.seq.pc.toNat < 8191 →
    (l.fin = k.seq.pc → l.index.toNat + 1 < l.count.toNat →
      k.natural.seq.pc = l.start ∧ k.natural.seq.loops = { l with index := l.index + 1 } :: r) ∧
    (l.fin = k.seq.pc → l.count.toNat ≤ l.index.toNat + 1 →
      k.natural.seq.pc = ({ k with seq := { k.seq with loops := r } } : Core).natural.seq.pc ∧
      k.natural.seq.loops = ({ k with seq := { k.seq with loops := r } } : Core).natural.seq.loops) ∧
    (l.fin ≠ k.seq.pc → k.natural.seq.pc.toNat = k.seq.pc.toNat + 1 ∧ k.natural.seq.loops = l :: r)

/-- 03 R71, R72, R73, R66, R77, R79, R80, 02 R45: the other instructions of the scalar slots that neither trap nor wait, each with the
conditions of its rule. A WAITC with a bound of 0 orders the completed writes of the core's engines before later bundles (13 R267, R272); that
the commands that the class of the bound does not count are ordered with them is the model's choice (DEDUCED, log 4). A SLEEP on queue 7 reads a promise: one that has passed
wakes it in the next cycle (14 R288). -/
def Obligations.SequencerIssues : Prop :=
  (∀ s : State, s.ready ⟨0, 0⟩ → exec .nop s = .next (s.opened ⟨0, 0⟩ false false []).commit) ∧
  (∀ (g : Guard) (a : BitVec 5) (s : State), s.ready g →
    exec (.qclr g a) s = .next { s.opened g false false [] with
      latch := { (s.opened g false false []).latch with qclr := [a.toNat - 24] } }.commit) ∧
  (∀ (g : Guard) (d a : BitVec 5) (s t : State) (v : Word) (e : QEntry) (r : List QEntry), s.ready g →
    s.me.regs.q.getD (a.toNat - 24) [] = e :: r → e.val = some v → (s.opened g false false []).writeS d.toNat 1 v = .ok t →
    exec (.qpeek g d a) s = .next t.commit) ∧
  (∀ (g : Guard) (n : BitVec 3) (s : State), s.ready g → (s.me.inDelay || s.me.rpl) = false → n.toNat + 1 ≤ s.me.ldepth →
    exec (.lbrk g n) s = .next ((s.opened g false false []).ctl (.lbrk (n.toNat + 1))).commit) ∧
  (∀ (g : Guard) (d : BitVec 5) (n : BitVec 3) (s t : State) (l : Loop), s.ready g → s.me.seq.loops.reverse[n.toNat]? = some l →
    (s.opened g false false []).writeS d.toNat 1 (l.index.setWidth 64) = .ok t → exec (.lidx g d n) s = .next t.commit) ∧
  (∀ (g : Guard) (d : BitVec 5) (n : BitVec 3) (s t : State) (l : Loop), s.ready g → s.me.seq.loops[n.toNat]? = some l →
    (s.opened g false false []).writeS d.toNat 1 (l.index.setWidth 64) = .ok t → exec (.lidxIn g d n) s = .next t.commit) ∧
  (∀ (g : Guard) (d : BitVec 5) (e : BitVec 6) (s s' : State) (v : Word), s.ready g → s.me.rpl = false →
    (s.opened g false false []).readS d.toNat = .ok (v, s') → deltaOk v = true →
    exec (.dtld g d e) s = .next (s'.addPend 1 (.delta e.toNat v)).commit) ∧
  (∀ (g : Guard) (s : State), s.ready g → s.me.inDelay = false →
    exec (.halt g) s = .next ((s.opened g true false []).ctl (.halt 0 0)).commit) ∧
  (∀ (g : Guard) (a : BitVec 5) (s s' : State) (v : Word), s.ready g → s.me.inDelay = false → s.me.sys.mode = true →
    (s.opened g true false []).readS a.toNat = .ok (v, s') →
    exec (.haltAbort g a) s = .next (s'.ctl (.halt 1 (v &&& 0xFFFF))).commit) ∧
  (∀ (g : Guard) (a : BitVec 5) (s s' : State) (v : Word), s.ready g → a.toNat ≠ 31 →
    (s.opened g false false []).readS a.toNat = .ok (v, s') → exec (.sleep g a) s = .next (s'.ctl (.sleep v none)).commit) ∧
  (∀ (g : Guard) (s s' : State) (v : Word) (p : Option Nat), s.ready g → (s.opened g false false []).popQ 7 = .ok ((v, p), s') →
    exec (.sleep g 31) s = .next (s'.ctl (.sleep (if p.isSome = true ∧ s.past v = true then s.cycle + 1 else v) p)).commit) ∧
  (∀ (g : Guard) (l st c t : BitVec 4) (s : State), s.ready g →
    (∀ p ∈ [(0, l), (1, st), (2, c), (3, t)], p.2 = 15 ∨ s.me.eng.counter p.1 ≤ p.2.toNat) →
    exec (.waitc g l st c t) s = .next (if l = 0 ∨ st = 0 ∨ c = 0 ∨ t = 0
      then (s.opened g false false []).setMe (s.opened g false false []).me.seesEngines else s.opened g false false []).commit)

/-- 03 R81 to R83: SEGMARK starts a copy of a segment into the half that its own bundle is not in; ISYNC writes the segment status
once no copy is in progress; BSWAP transfers into the other half when its segment's checksum held. -/
def Obligations.SegmentsIssue : Prop :=
  (∀ (g : Guard) (d : BitVec 5) (s t : State), s.ready g → s.me.sto.seg.copy = none →
    (s.opened g false false []).writeS d.toNat 1 s.me.sto.seg.status = .ok t → exec (.isync g d) s = .next t.commit) ∧
  (∀ (g : Guard) (a : BitVec 5) (s s' : State) (v : Word), s.ready g → s.me.rpl = false → s.me.sto.seg.copy = none →
    (s.opened g true false []).readS a.toNat = .ok (v, s') → v.toNat < hdr (s.image s.me) 0x13 1 →
    (segEntry (s.image s.me) v.toNat).2.2.1 ≠ halfOf s.me.seq.pc.toNat →
    ∃ u, exec (.segmark g a) s = .next u ∧ u.me.sto.seg.status = v &&& 0xFF ∧
      u.me.sto.seg.copy = some (v.toNat, (segEntry (s.image s.me) v.toNat).2.2.1,
        s.later s.cur.val (400 + (32 * (segEntry (s.image s.me) v.toNat).2.1 + 255) / 256))) ∧
  (∀ (g : Guard) (a : BitVec 5) (s s' : State) (v : Word), s.ready g → banTransfer s.me = false → s.me.sto.seg.copy = none →
    (s.opened g false true []).readS a.toNat = .ok (v, s') → v.toNat ≤ 8191 → halfOf v.toNat ≠ halfOf s.me.seq.pc.toNat →
    (if halfOf v.toNat = 0 then s.me.sto.seg.crcErr.1 else s.me.sto.seg.crcErr.2) = false →
    exec (.bswap g a) s = .next (s'.ctl (.transfer (v.setWidth 13))).commit)

/-- 03 R74, 01 R21, R22: SYSR writes the register to its destination in a mode that may read it; a writing form in a mode that may
write the register, with a value that the register accepts, changes its RW bits and clears W1C bits for the next bundle. -/
def Obligations.SystemAccess : Prop :=
  (∀ (g : Guard) (d : BitVec 5) (r : BitVec 10) (x : SysReg) (s t : State), s.ready g → sysOf r = some x →
    (s.me.sys.mode || x.userRead) = true → (s.opened g false false []).writeS d.toNat 1 (s.sysRead s.cur x) = .ok t →
    exec (.sysr g d r) s = .next t.commit) ∧
  (∀ (i : Instr) (f : SysForm) (x : SysReg) (s s' : State) (v : Word), sysForm i = some f → s.ready f.g → sysOf f.r = some x →
    x.writable s.me.sys.mode = true → (s.opened f.g true false []).readS f.src = .ok (v, s') →
    sysRefuses s'.me x (f.new (s'.sysRead s.cur x) v) = false →
    exec i s = .next (s'.addPend 1 (.sys x (f.new (s'.sysRead s.cur x) v &&& x.rw) (x.rw ||| (f.clears v &&& x.w1c)))).commit)

/-- 01 R21: in user mode a SYSR of a register that user mode may not read, a writing form on one that it may not write, TRAP.SYS, ERET
and HALT.ABORT raise the privilege trap at issue and have no other effect. -/
def Obligations.UserModeDenied : Prop :=
  ∀ s : State, s.latch.phase = .solo → s.me.sys.mode = false → (s.me.inDelay || s.me.atEnd) = false →
    (∀ (g : Guard) (d : BitVec 5) (r : BitVec 10) (x : SysReg), sysOf r = some x → x.userRead = false →
      exec (.sysr g d r) s = .next ((s.begin false false []).trapAtIssue { cause := .privilege } s.latch.slot)) ∧
    (∀ (i : Instr) (f : SysForm) (x : SysReg), sysForm i = some f → sysOf f.r = some x → x.writable false = false →
      exec i s = .next ((s.begin false false []).trapAtIssue { cause := .privilege } s.latch.slot)) ∧
    (∀ (g : Guard) (n : BitVec 15), exec (.trapSys g n) s = .next ((s.begin false false []).trapAtIssue { cause := .privilege } s.latch.slot)) ∧
    (∀ g : Guard, exec (.eret g) s = .next ((s.begin false false []).trapAtIssue { cause := .privilege } s.latch.slot)) ∧
    ∀ (g : Guard) (a : BitVec 5),
      exec (.haltAbort g a) s = .next ((s.begin false false []).trapAtIssue { cause := .privilege } s.latch.slot)

/-- 01 R17, R18, 03 R59: scalar operands. Code 0 reads zero, codes 1 to 23 their registers, codes 24 to 31 pop the head of their
queue; an empty queue, or one whose head has not landed, raises queue-underflow with the code as TVAL.
01 R18, 03 R59: scalar results. Code 0 discards, codes 1 to 23 write their register after L cycles, codes 24 to 31 reserve an
entry of their queue at issue; a fill count that would pass 4 raises queue-overflow. -/
def Obligations.ScalarOperands : Prop :=
  (∀ (s : State), s.readS 0 = .ok (0, s) ∧ (∀ r, 0 < r → r < 24 → s.readS r = .ok (s.me.regs.s.getD r 0, s)) ∧
     ∀ q, q < 8 →
       (∀ e r v, s.me.regs.q.getD q [] = e :: r → e.val = some v →
         ∃ t, s.readS (24 + q) = .ok (v, t) ∧ t.me.regs.q.getD q [] = r ∧ (∀ p, p ≠ q → t.me.regs.q.getD p [] = s.me.regs.q.getD p [])) ∧
       ((∀ e r, s.me.regs.q.getD q [] = e :: r → e.val = none) →
         s.readS (24 + q) = .error { cause := .queueUnderflow, tval := BitVec.ofNat 64 (24 + q) })) ∧
  (∀ (s : State) (l : Nat) (v : Word), s.writeS 0 l v = .ok s ∧
     (∀ r, 0 < r → r < 24 → s.writeS r l v = .ok (s.addPend l (.scalar r v))) ∧
     ∀ q, q < 8 →
       ((s.me.regs.q.getD q []).length < 4 → ∃ t, s.writeS (24 + q) l v = .ok t ∧
         t.me.regs.q.getD q [] = s.me.regs.q.getD q [] ++ [{ id := s.me.regs.nextQ }] ∧
         t.me.seq.pend = s.me.seq.pend ++ [⟨s.me.seq.rn + l - 1, s.latch.slot, .push q s.me.regs.nextQ v none⟩]) ∧
       (4 ≤ (s.me.regs.q.getD q []).length →
         s.writeS (24 + q) l v = .error { cause := .queueOverflow, tval := BitVec.ofNat 64 (24 + q) }))

/-- 03 R68: a transfer issues when its target is a bundle number: the target waits for its delay bundles, the link P + 3 is on its
way.
03 R68, 02 R33: a target outside bundles 0 to 8,191 raises the fetch-range trap at issue, with the target as TVAL. -/
def Obligations.TransferIssues : Prop :=
  (∀ (i : Instr) (f : BranchForm) (s s' t : State) (xs : List Word), branchForm i = some f → s.ready f.g → banTransfer s.me = false →
     (s.opened f.g false true []).readAll f.srcs = .ok (xs, s') → 0 ≤ f.target s xs → f.target s xs ≤ 8191 →
     (match f.link with
       | none => t = s'.ctl (.transfer (BitVec.ofInt 13 (f.target s xs)))
       | some d => (s'.ctl (.transfer (BitVec.ofInt 13 (f.target s xs)))).writeS d 1 (BitVec.ofNat 64 (s.me.seq.pc.toNat + 3)) = .ok t) →
     exec i s = .next t.commit) ∧
  (∀ (i : Instr) (f : BranchForm) (s s' : State) (xs : List Word), branchForm i = some f → s.ready f.g → banTransfer s.me = false →
     (s.opened f.g false true []).readAll f.srcs = .ok (xs, s') → (f.target s xs < 0 ∨ 8191 < f.target s xs) →
     exec i s = .next ((s.begin false false []).trapAtIssue
       { cause := .fetchRange, tval := BitVec.ofInt 64 (f.target s xs) } s.latch.slot))

/-- 01 R13, R17, R18, 03 R59: the frame of a scalar operation. On a core with nothing in flight a result of latency 1 stands in its
register when the bundle has issued, a slower one leaves it as it was; every other register, predicate, memory, table and core, and
every queue that no operand names, is unchanged.
03 R64, R65, 01 R19: the frame of a compare or predicate operation: p0 keeps reading true, another destination holds the value when
the bundle has issued, and nothing else changes. -/
def Obligations.RegisterFrame : Prop :=
  (∀ (i : Instr) (f : ScalarForm) (s s' t : State) (xs : List Word), scalarForm i = some f → s.ready f.g → Calm s.me →
     (s.opened f.g false false []).readAll f.srcs = .ok (xs, s') → s'.writeS f.d f.l (f.value s xs) = .ok t →
     ∃ u, exec i s = .next u ∧ onlyMe s u ∧ sameButRegs s.me u.me ∧
       (0 < f.d → f.d < 24 → f.l = 1 → u.me.sreg f.d = f.value s xs) ∧
       (∀ r, r < 24 → (r ≠ f.d ∨ f.l ≠ 1) → u.me.sreg r = s.me.sreg r) ∧ u.me.regs.p = s.me.regs.p ∧
       (∀ q, q < 8 → 24 + q ∉ f.srcs → 24 + q ≠ f.d → u.me.regs.q.getD q [] = s.me.regs.q.getD q []) ∧
       (∀ a, u.me.sto.spad.read a = s.me.sto.spad.read a)) ∧
  (∀ (i : Instr) (f : PredForm) (s s' : State) (xs : List Word), predForm i = some f → s.ready f.g → Calm s.me →
     (s.opened f.g false false []).readAll f.srcs = .ok (xs, s') →
     ∃ u, exec i s = .next u ∧ onlyMe s u ∧ sameButRegs s.me u.me ∧
       (0 < f.d → u.me.pred f.d = f.value s xs) ∧ (∀ n, n < 8 → n ≠ f.d → u.me.pred n = s.me.pred n) ∧ u.me.pred 0 = true ∧
       (∀ r, u.me.sreg r = s.me.sreg r) ∧
       (∀ q, q < 8 → 24 + q ∉ f.srcs → u.me.regs.q.getD q [] = s.me.regs.q.getD q []) ∧
       (∀ a, u.me.sto.spad.read a = s.me.sto.spad.read a))

/-- 01 R20, 02 R43: a guarded-off instruction, and one that a rollback squashes, has no effect of its own: in a bundle with others its
pass over the waits and its pass over the effects change nothing. Alone, it completes: its bundle issues with no operand read, no access
and no trap but those of steps 1 and 3, which apply whatever the guard (a place in a delay bundle, at a loop's end or in replay where its
rule forbids it, a form that user mode denies). On a core with nothing in flight, outside loops and in system mode, the bundle after it
is next and nothing else changes. -/
def Obligations.GuardedOff : Prop :=
  ∀ (i : Instr) (g : Guard) (s : State), guardField i = some g → s.me.runs g = false →
    (s.latch.phase = .apply → exec i s = .next s) ∧
    (s.latch.phase = .probe → (∀ w ∈ s.me.seq.wait, w.slot ≠ s.latch.slot) → exec i s = .next s) ∧
    (s.latch.phase = .solo → (s.me.inDelay && s.me.atEnd) = false → (∀ w ∈ s.me.seq.wait, w.slot ≠ s.latch.slot) →
      s.me.releasing = false → s.me.overrun = none →
      ((s.me.inDelay || s.me.atEnd || s.me.seq.loops.any fun l => decide (l.stages ≠ 0)) = true ∧
        exec i s = .next ((s.begin false false []).trapAtIssue { cause := .illegalInstruction } s.latch.slot)) ∨
      (s.me.sys.mode = false ∧ exec i s = .next ((s.begin false false []).trapAtIssue { cause := .privilege } s.latch.slot)) ∨
      ∃ ends delay, exec i s = .next ((s.begin ends delay []).inPhase .apply).commit) ∧
    (s.latch.phase = .solo → Calm s.me → s.me.releasing = false → s.me.overrun = none → s.me.sys.mode = true →
      ∃ u, exec i s = .next u ∧ onlyMe s u ∧ u.me = { s.me with seq := u.me.seq } ∧ u.me.seq.mode = s.me.seq.mode ∧
        u.me.seq.pc.toNat = s.me.seq.pc.toNat + 1 ∧ u.me.seq.pend = [] ∧ u.me.seq.landings = [] ∧ u.me.seq.loops = [] ∧
        u.me.seq.transfer = none ∧ u.me.seq.delta = s.me.seq.delta ∧ u.me.seq.events = s.me.seq.events)

/-- 21 R369: trap entry. A core with a pending write waits; a settled one enters. A fatal cause, disabled traps or a live handler halt
it, with FATAL set; a live handler makes an ordinary cause a double trap. Else EPC, CAUSE and TVAL record the trap, the loop levels move
to the snapshot, the mode becomes system and fetch goes to the handler. A first-NaN trap sets NP and clears NTE (05 R114). Nothing else of
the core changes: every other system register and every other part of the sequencer is as it was. -/
def Obligations.TrapEntry : Prop :=
  (∀ (s : State) (c : Fin 256) (r : TrapReq), (s.core c).settled = false →
    s.takeTrap c r = s.onCore c fun k => { k with seq := { k.seq with
      mode := .trapping r, iterCycles := if k.rpl = true then k.seq.iterCycles else k.seq.iterCycles + 1 } }) ∧
  (∀ (s : State) (c : Fin 256) (r : TrapReq), (s.core c).settled = true →
    s.takeTrap c r = if ((s.core c).enter r).isHalted then
      (s.setCore c ((s.core c).enter r)).endRecord c 2 ((s.core c).enter r).sys.cause else s.setCore c ((s.core c).enter r)) ∧
  ∀ (k : Core) (r : TrapReq), k.ldepth ≤ 6 →
    (∀ halts : Bool, halts = (r.trap.cause.fatal || !k.sys.tvec.getLsbD 0 || k.live) →
      (k.enter r) = { k with
        sys := { k.sys with
          cause := (k.enter r).sys.cause, tval := (k.enter r).sys.tval, epc := (k.enter r).sys.epc
          mode := if halts then k.sys.mode else true
          pmode := if halts then k.sys.pmode else k.sys.mode
          fpstat := if r.trap.cause = .firstNan then (k.sys.fpstat &&& ~~~0x8000) ||| 0x40 else k.sys.fpstat }
        seq := if halts then { k.seq with mode := .halted } else { k.seq with
          mode := .running, pc := (k.enter r).seq.pc, loops := [], rplOff := false, transfer := none, delayLeft := 0, rollback := none, passCycles := 0
          passOpen := false, iterCycles := 0
          snap := ⟨k.seq.loops, k.seq.passCycles, k.seq.passOpen, k.seq.iterCycles, k.seq.rollback⟩ } } ∧
      (k.enter r).sys.cause.toNat / 2 ^ 8 % 8 = r.slot.toNat ∧
      (k.enter r).sys.cause.getLsbD 11 = r.eng ∧ (k.enter r).sys.cause.toNat / 2 ^ 12 % 4 = r.queue.toNat ∧
      (k.enter r).sys.cause.getLsbD 14 = halts ∧ (k.enter r).sys.cause.toNat / 2 ^ 16 % 16 = r.trap.sub.toNat ∧
      (k.enter r).sys.cause.toNat / 2 ^ 20 % 2 ^ 20 = r.commit.toNat ∧ (k.enter r).sys.cause.toNat / 2 ^ 40 % 2 ^ 20 = r.spec.toNat ∧
      (halts = true → (k.enter r).isHalted = true ∧ epcField (k.enter r).sys.epc 0 13 = k.seq.pc.toNat ∧
        (k.enter r).sys.mode = k.sys.mode ∧
        (if k.live && !r.trap.cause.fatal then (k.enter r).sys.cause.toNat % 256 = 7 ∧ (k.enter r).sys.tval.toNat = r.trap.cause.code
         else (k.enter r).sys.cause.toNat % 256 = r.trap.cause.code ∧ (k.enter r).sys.tval = r.trap.tval)) ∧
      (halts = false → (k.enter r).sys.cause.toNat % 256 = r.trap.cause.code ∧ (k.enter r).sys.tval = r.trap.tval ∧
        epcField (k.enter r).sys.epc 0 13 = k.seq.pc.toNat ∧ epcField (k.enter r).sys.epc 13 3 = k.ldepth ∧
        epcField (k.enter r).sys.epc 16 1 = (if k.rpl then 1 else 0) ∧ epcField (k.enter r).sys.epc 19 4 = k.regs.p.toNat / 16 ∧
        epcField (k.enter r).sys.epc 23 1 = 1 ∧ epcField (k.enter r).sys.epc 24 1 = (if k.seq.transfer.isSome then 1 else 0) ∧
        (∀ x, k.seq.transfer = some x → epcField (k.enter r).sys.epc 25 1 = (if x.left = 2 then 1 else 0) ∧
          epcField (k.enter r).sys.epc 26 13 = x.target.toNat) ∧
        (k.enter r).sys.pmode = k.sys.mode ∧ (k.enter r).sys.mode = true ∧ (k.enter r).seq.mode = .running ∧
        (k.enter r).seq.pc.toNat = k.sys.tvec.toNat / 2 % 8192 ∧ (k.enter r).seq.loops = [] ∧ (k.enter r).seq.transfer = none ∧
        (k.enter r).seq.rollback = none))

/-- 02 R44, 21 R368: a trap at issue on a core with nothing in flight and traps enabled: nothing of the bundle takes effect, the handler
is entered, and EPC names the trapping bundle. -/
def Obligations.TrapAtIssue : Prop :=
  ∀ (s : State) (t : Trap) (slot : Nat), Calm s.me → s.me.sys.tvec.getLsbD 0 = true → s.me.live = false →
    t.cause.fatal = false →
    onlyMe s ((s.begin false false []).trapAtIssue t slot) ∧
    ((s.begin false false []).trapAtIssue t slot).me.regs = s.me.regs ∧ ((s.begin false false []).trapAtIssue t slot).me.vec = s.me.vec ∧
    ((s.begin false false []).trapAtIssue t slot).me.sto = s.me.sto ∧ ((s.begin false false []).trapAtIssue t slot).me.eng = s.me.eng ∧
    epcField ((s.begin false false []).trapAtIssue t slot).me.sys.epc 0 13 = s.me.seq.pc.toNat ∧
    ((s.begin false false []).trapAtIssue t slot).me.sys.cause.toNat % 256 = t.cause.code ∧
    ((s.begin false false []).trapAtIssue t slot).me.sys.tval = t.tval ∧
    ((s.begin false false []).trapAtIssue t slot).me.seq.pc.toNat = s.me.sys.tvec.toNat / 2 % 8192

/-- 03 R75: TRAP n, in either mode, enters the handler after its bundle: TVAL is n, CODE is 5, EPC names the next bundle, the mode is
system. TRAP.SYS n, in system mode, ends issue after its bundle; once its pending writes have completed the core is held for the Winder,
whose context takes a SERVICE event with n and the core. -/
def Obligations.TrapInstructions : Prop :=
  (∀ (g : Guard) (n : BitVec 15) (s : State), s.ready g → Calm s.me → s.me.seq.mode = .running → s.me.sys.tvec.getLsbD 0 = true → s.me.live = false →
    ∃ u, exec (.trap g n) s = .next u ∧ u.me.sys.tval = n.setWidth 64 ∧ u.me.sys.cause.toNat % 256 = 5 ∧
      epcField u.me.sys.epc 0 13 = s.me.seq.pc.toNat + 1 ∧ u.me.sys.mode = true ∧ u.me.sys.pmode = s.me.sys.mode ∧
      u.me.seq.pc.toNat = s.me.sys.tvec.toNat / 2 % 8192 ∧ u.me.regs = s.me.regs ∧ u.me.vec = s.me.vec ∧ u.me.sto = s.me.sto ∧
      u.me.eng = s.me.eng ∧ onlyMe s u) ∧
  (∀ (g : Guard) (n : BitVec 15) (s : State), s.ready g → Calm s.me → s.me.sys.mode = true →
    ∃ u, exec (.trapSys g n) s = .next u ∧ onlyMe s u ∧ u.me.seq.mode = .serving n ∧ u.me.seq.next = [] ∧
      u.me.seq.pc.toNat = s.me.seq.pc.toNat + 1 ∧ u.me.regs = s.me.regs ∧ u.me.sto = s.me.sto ∧ u.me.eng = s.me.eng) ∧
  (∀ (n : BitVec 15) (s : State), s.me.seq.mode = .serving n → s.me.settled = true →
    s.idleCycle.me.seq.mode = .held n ∧ s.idleCycle.me.regs = s.me.regs ∧
      s.idleCycle.ctxs = (match s.me.run with
        | some r => (s.hold r.ctx ⟨0, 32, 0, BitVec.ofNat 8 s.cur.val, BitVec.ofNat 8 r.launch, n.setWidth 64, 0, none, false⟩).ctxs
        | none => s.ctxs))

/-- 03 R76, 21 R370: ERET in system mode, with a handler live and no write pending, restores what entry saved: the mode from PMODE, PC
and the loop levels from EPC and the snapshot, p4 to p7, a pending transfer; LIVE ends. 21 R371, R372: it empties every fault slot: the
command that CAUSE names with DROP set completes as dropped, at the head of its queue; another restarts behind what has started and what
the handler issued, and ahead of what was held. -/
def Obligations.TrapReturn : Prop :=
  ∀ (g : Guard) (s : State), s.ready g → s.me.inDelay = false → s.me.atEnd = false → s.me.sys.mode = true → s.me.settled = true →
    s.me.live = true →
    ∃ u, exec (.eret g) s = .next u ∧ u.me.sys.mode = s.me.sys.pmode ∧ u.me.live = false ∧
      u.me.seq.pc.toNat = epcField s.me.sys.epc 0 13 ∧ u.me.regs.p.toNat / 16 = epcField s.me.sys.epc 19 4 ∧
      u.me.regs.p.toNat % 16 = s.me.regs.p.toNat % 16 ∧
      u.me.seq.loops = s.me.seq.snap.loops.drop (s.me.seq.snap.loops.length - epcField s.me.sys.epc 13 3) ∧
      (epcField s.me.sys.epc 16 1 = 0 → u.me.rpl = false) ∧
      u.me.seq.passCycles = s.me.seq.snap.passCycles ∧ u.me.seq.iterCycles = s.me.seq.snap.iterCycles ∧
      ((∃ l ∈ u.me.seq.loops, l.stages ≠ 0) → u.me.seq.rollback = s.me.seq.snap.rollback) ∧
      u.me.seq.transfer = (if epcField s.me.sys.epc 24 1 = 1 then
        some ⟨BitVec.ofNat 13 (epcField s.me.sys.epc 26 13), 1 + epcField s.me.sys.epc 25 1⟩ else none) ∧
      u.me.regs.s = s.me.regs.s ∧ u.me.vec = s.me.vec ∧
      ∀ (q : Nat) (cmd : Cmd), q < 3 → s.me.eng.fault.getD q none = some cmd → u.me.eng.fault.getD q none = none ∧
        u.me.eng.queues.getD q [] =
          (if s.me.sys.cause.getLsbD 15 = true ∧ s.me.sys.cause.getLsbD 11 = true ∧ s.me.sys.cause.toNat / 2 ^ 12 % 4 = q then
            { cmd with prog := { cmd.prog with start := some 0, due := some 0, dropped := true } } ::
              (s.me.eng.queues.getD q []).map fun x => { x with prog := { x.prog with waiting := false } }
          else
            (((s.me.eng.queues.getD q []).filter fun x => x.prog.start.isSome || x.prog.waiting).map
                fun x => { x with prog := { x.prog with waiting := false } }) ++
              { cmd with prog := { cmd.prog with
                  start := none, due := none, acq := if cmd.prog.begun then cmd.prog.acq else .idle } } ::
              (s.me.eng.queues.getD q []).filter fun x => !(x.prog.start.isSome || x.prog.waiting))

/-- 03 R67, 01 R25 to R28, 22 R380, R384: a load whose access is allowed takes its bytes to the destination at L = 4; after a violation,
which is logged, it takes zero; on poison it consumes the poison and writes nothing. -/
def Obligations.LoadIssues : Prop :=
  ∀ (i : Instr) (f : AccessForm) (d : BitVec 5) (sg : Bool) (s s' : State) (x : Word), loadForm i = some (f, d, sg) → s.ready f.g →
    s.cached [f.h.toNat] → (f.opened s).readS f.o.toNat = .ok (x, s') → f.off x % f.n = 0 →
    (∀ t, coreFail (f.entry s) (f.off x) f.n false = none → firstPoison s.me.poison (localAddr (f.entry s) (f.off x)) f.n = none →
      s'.writeS d.toNat 4 (loaded f.n sg (s.me.bytes (localAddr (f.entry s) (f.off x)) f.n)) = .ok t → exec i s = .next t.commit) ∧
    (∀ t r b, coreFail (f.entry s) (f.off x) f.n false = some (r, b) →
      (s'.violate s.memUnit f.h.toNat (f.off x) b r).writeS d.toNat 4 0 = .ok t → exec i s = .next t.commit) ∧
    (∀ k, coreFail (f.entry s) (f.off x) f.n false = none →
      firstPoison s.me.poison (localAddr (f.entry s) (f.off x)) f.n = some k →
      exec i s = .next (consumed (f.opened s) (s'.consume (f.off x + k) f.h.toNat)))

/-- 03 R67, 04 R95, 11 R230: a store whose access is allowed writes the low bytes of its source in its issue cycle, or holds them in
replay; after a violation, which is logged, it writes nothing. -/
def Obligations.StoreIssues : Prop :=
  ∀ (i : Instr) (f : AccessForm) (d : BitVec 5) (s s1 s' : State) (x v : Word), storeForm i = some (f, d) → s.ready f.g →
    s.cached [f.h.toNat] → (f.opened s).readS f.o.toNat = .ok (x, s1) → f.off x % f.n = 0 → s1.readS d.toNat = .ok (v, s') →
    (coreFail (f.entry s) (f.off x) f.n true = none →
      exec i s = .next (s'.putOwn (cellsAt (localAddr (f.entry s) (f.off x)) f.n v.toNat)).commit) ∧
    ∀ r b, coreFail (f.entry s) (f.off x) f.n true = some (r, b) →
      exec i s = .next (s'.violate s.memUnit f.h.toNat (f.off x) b r).commit

/-- 01 R27: an access of the scalar slots whose offset is no multiple of its size raises the misaligned-access trap at issue, with the
handle and the offset as TVAL, and has no other effect.
04 R91: an element of a VLD or VST whose offset is no multiple of its size is a violation of the reason MISALIGN, whose TVAL names the first
failing element: the instruction goes on, VLD delivers zero for the element and VST writes nothing to it. -/
def Obligations.MisalignedAccess : Prop :=
  (∀ (i : Instr) (f : AccessForm) (s s' : State) (x : Word), accessForm i = some f → s.ready f.g → s.cached [f.h.toNat] →
    (f.once = true → s.me.rpl = false) → (f.opened s).readS f.o.toNat = .ok (x, s') → f.off x % f.n ≠ 0 →
    exec i s = .next ((s.begin f.ends false []).trapAtIssue
      { cause := .misalignedAccess, tval := violTval f.h.toNat (f.off x) } s.latch.slot)) ∧
  (∀ (g : Guard) (v m : BitVec 4) (x : BitVec 5) (k : BitVec 3) (c t : BitVec 1) (s s' : State) (z : Word) (map : BitVec 512)
    (e : BitVec 256) (f : Fmt) (w : Nat) (places : List (Nat × Nat × Loc)) (out : List (Nat × ERead)) (p : Nat × ERead) (n r : Nat) (l : Loc)
    (y : Nat → Nat × Flags), s.ready g →
    s.cached (s.tileUses m (decide (c = 1))) →
    (s.opened g false false (s.tileUses m (decide (c = 1)))).readS x.toNat = .ok (z, s') →
    s'.tileChecks m (decide (c = 1)) (fun _ => .ok ()) = .ok (map, e, f, w) → (k ≠ 0 → (s.me.vreg v).tag = f.tag) →
    places = s.me.tile map w z (decide (t = 1)) →
    out = (places.map fun q =>
      (q.1, readElem f w (decide (c = 1)) (s.me.localRd e false) (s.me.localRd f.sh.e false) q.2.1 q.2.2)) →
    (∀ q ∈ out, q.2.poison = none) →
    (places.zip out).find? (fun q => q.2.2.bad.isSome || q.2.2.sbad.isSome) = some ((n, r, l), p) →
    l.inside = true → l.off % max 1 (w / 8) ≠ 0 →
    (∀ n, y n = match out.find? fun q => q.1 = n with
      | some q => if q.2.bad.isSome then (0, 0) else if c = 1 then FFmt.fp32.encode q.2.val .rne else (q.2.bits, 0)
      | none => (0, 0)) →
    ∃ vs : List Viol, vs.head? = some ⟨⟨TMap.handle map, e⟩, l.off, l.off, f.phys l.off, .misalign⟩ ∧
      ⟨s.me.seq.rn, s.latch.slot, .viol (violTval (TMap.handle map) l.off)⟩ ∈ (s'.violateTile vs).me.seq.pend ∧
      exec (.vld g v m x k c t) s = .next (((((s'.violateTile vs).occupy s.me.passes).writeVec v (4 + s.me.passes) s.me.ew
        ((List.range s.me.elems).map fun n => if s.me.kbit k n then some (y n).1 else none) f.tag).raise (4 + s.me.passes)
        (orFlags ((List.range s.me.elems).map fun n => if s.me.kbit k n then (y n).2 else 0)) none)).commit) ∧
  ∀ (g : Guard) (v m : BitVec 4) (x : BitVec 5) (k : BitVec 3) (c t : BitVec 1) (s s' : State) (z : Word) (map : BitVec 512)
    (e : BitVec 256) (f : Fmt) (w : Nat) (places good : List (Nat × Nat × Loc)) (p : Nat × Nat × Loc) (ws : List EWrite)
    (ps : List Put) (fls : List Flags) (sbs : List (Option (Bool × Nat))) (cells : List Host.Cell), s.ready g →
    s.cached (s.tileUses m (decide (c = 1))) →
    (s.opened g true false (s.tileUses m (decide (c = 1)))).readS x.toNat = .ok (z, s') →
    s'.tileChecks m (decide (c = 1)) (fun _ => .ok ()) = .ok (map, e, f, w) → (s.me.vreg v).tag = f.tag →
    places = ((s.me.tile map w z (decide (t = 1))).filter fun q => s.me.kbit k q.1) →
    good = (places.filter fun q => (readElem f w false (s.me.localRd e true) (s.me.localRd e true) q.2.1 q.2.2).bad.isNone) →
    places.find? (fun q => (readElem f w false (s.me.localRd e true) (s.me.localRd e true) q.2.1 q.2.2).bad.isSome) = some p →
    p.2.2.inside = true → p.2.2.off % max 1 (w / 8) ≠ 0 →
    ws = ((List.range s.me.elems).filterMap fun n => (good.find? fun q => q.1 = n).map fun q =>
        ({ loc := q.2.2, i1 := q.2.1, bits := (elemsOf (s.me.vreg v).bits s.me.ew s.me.elems).getD n 0,
           val := FFmt.fp32.decode ((elemsOf (s.me.vreg v).bits s.me.ew s.me.elems).getD n 0), idx := n } : EWrite)) →
    (c = 1 → narrow f (s.rndFor false (s.me.sys.fpstat.getLsbD 11)) (s.me.localRd f.sh.e false) (fun n => Config.freeNat (s.free + n)) ws =
      (ps, fls, sbs) ∧ (∀ b ∈ sbs, b = none) ∧ chanPoison f (s.me.localRd f.sh.e false) (good.map fun q => q.2.1) = none) →
    (c = 0 → ps = (ws.map fun y => y.put f w y.bits) ∧ fls = []) →
    (∀ q ∈ ps, putFail (s.me.localRd e true) (s.me.localRd f.sh.e true) q = none) →
    cells = putCells (fun side o => if side then localAddr f.sh.e o else localAddr e o) s.me.byte ps [] →
    ∃ (vs : List Viol) (np : Option NpInfo) (u : State),
      vs.head? = some ⟨⟨TMap.handle map, e⟩, p.2.2.off, p.2.2.off, f.phys p.2.2.off, .misalign⟩ ∧
      u = ({ s'.occupy s.me.passes with free := s'.free + s.me.elems } : State).violateTile vs ∧
      ⟨s.me.seq.rn, s.latch.slot, .viol (violTval (TMap.handle map) p.2.2.off)⟩ ∈ u.me.seq.pend ∧
      exec (.vst g v m x k c t) s = .next ((((u.choose 6).2).putOwn cells).raise 1 (orFlags fls) np).commit

/-- 12 R240, R241: ATOM reads a word, writes the word that its step gives, in the issue cycle, and returns the old word at L = 4; after a
violation it returns zero, on poison it writes nothing. -/
def Obligations.AtomicIssues : Prop :=
  ∀ (i : Instr) (f : AccessForm) (d : BitVec 5) (op : AtomOp) (u : Bool) (s s' : State) (x : Word),
    atomForm i = some (f, d, op, u) → s.ready f.g → s.cached [f.h.toNat] → (f.opened s).readS f.o.toNat = .ok (x, s') →
    f.off x % f.n = 0 →
    (∀ t old, coreFail (f.entry s) (f.off x) f.n true = none →
      firstPoison s.me.poison (localAddr (f.entry s) (f.off x)) f.n = none →
      old = leNat (s.me.bytes (localAddr (f.entry s) (f.off x)) f.n) →
      (atomPut s' op u (cellsAt (localAddr (f.entry s) (f.off x)) f.n
        (atomStep op (8 * f.n) u old ((s.me.sreg d.toNat).toNat % 2 ^ (8 * f.n)) ((s.me.sreg (d.toNat + 1)).toNat % 2 ^ (8 * f.n))))
          ((s.me.sreg d.toNat).toNat % 2 ^ (8 * f.n)) ((s.me.sreg (d.toNat + 1)).toNat % 2 ^ (8 * f.n))).writeS
          d.toNat 4 (atomOld f.n u old) = .ok t → exec i s = .next t.commit) ∧
    (∀ t r b, coreFail (f.entry s) (f.off x) f.n true = some (r, b) →
      (s'.violate s.memUnit f.h.toNat (f.off x) b r).writeS d.toNat 4 0 = .ok t → exec i s = .next t.commit) ∧
    (∀ k, coreFail (f.entry s) (f.off x) f.n true = none →
      firstPoison s.me.poison (localAddr (f.entry s) (f.off x)) f.n = some k →
      exec i s = .next (consumed (f.opened s) (s'.consume (f.off x + k) f.h.toNat)))

/-- 12 R239, R242, 14 R289: RATOM on a REMOTE handle that allows it issues outside replay when no fence holds it: a landing slot and a
remote effect are taken, and its step is on its way to the bank's owner, behind the core's earlier steps on the same bank. After a
violation the result zero is on its way. -/
def Obligations.RemoteAtomicIssues : Prop :=
  ∀ (i : Instr) (f : AccessForm) (d : BitVec 5) (op : AtomOp) (u far : Bool) (s s' : State) (x : Word),
    ratomForm i = some (f, d, op, u, far) → s.ready f.g 1 → s.me.rpl = false → s.me.fenced = false → s.cached [f.h.toNat] →
    (f.opened s).readS f.o.toNat = .ok (x, s') → f.off x % f.n = 0 →
    (remoteFail (f.entry s) (f.off x) f.n = none →
      ∃ (t : State) (m : Msg), exec i s = .next t.commit ∧ t.me.eng.remote = s.me.eng.remote ++ [s.me.eng.nextRemote] ∧
        t.me.seq.landings = s.me.seq.landings ++
          [⟨s.me.seq.nextLanding, s.me.seq.rn + (if far then 1200 else 256) - 1, s.latch.slot, s.me.seq.pc, none, none⟩] ∧
        t.msgs = s.msgs ++ [m] ∧ s.clock ≤ m.at_ ∧
        (∀ y ∈ s.msgs, (match y.body with
          | .ratom c _ _ _ e' .. => c = s.cur.val ∧ Ent.rcore e' = Ent.rcore (f.entry s) ∧ Ent.rbank e' = Ent.rbank (f.entry s)
          | _ => False) → y.at_ ≤ m.at_) ∧
        m.body = .ratom s.cur.val s.me.seq.nextLanding (s.me.ctx.getD 64) f.h.toNat (f.entry s) (BitVec.ofNat 64 (f.off x)) op.code
          (decide (f.n = 8)) u (BitVec.ofNat 64 ((s.me.sreg d.toNat).toNat % 2 ^ (8 * f.n)))
          (BitVec.ofNat 64 ((s.me.sreg (d.toNat + 1)).toNat % 2 ^ (8 * f.n))) d.toNat s.me.eng.nextRemote s.me.seq.pc s.latch.slot
          (s.clock + (if dieOf (Ent.rcore (f.entry s)) = dieOf s.cur then 256 else 1200) - 1)) ∧
    ∀ r b, remoteFail (f.entry s) (f.off x) f.n = some (r, b) →
      ∃ t : State, exec i s = .next t.commit ∧
        t.me.seq.pend = s.me.seq.pend ++ [⟨s.me.seq.rn, s.latch.slot, .viol (violTval f.h.toNat (f.off x))⟩] ∧
        (∃ k, t.msgs = s.msgs ++ [⟨k, s.clock + 1, .landed s.cur.val s.me.seq.nextLanding [.scalar d.toNat 0]⟩]) ∧
        t.me.eng.remote = s.me.eng.remote

/-- 12 R247, R248: TMLD loads a tensor map at L = 4, zero after a violation; on poison it writes nothing, and an image with a reserved bit
raises the reserved-field trap with the offset as TVAL; TMST stores one; TMSET sets a field from the low bits of its
operand, TMADD adds to it modulo its width, TMSET CLEAR clears the map, all at L = 1. -/
def Obligations.TensorMapIssues : Prop :=
  (∀ (i : Instr) (f : AccessForm) (g : Guard) (m z : BitVec 4) (h : BitVec 8) (o : BitVec 5) (s s' : State) (x : Word),
    i = .tmld g m h o z → accessForm i = some f → s.ready g → s.cached [h.toNat] → (f.opened s).readS o.toNat = .ok (x, s') →
    f.off x % 64 = 0 →
    (coreFail (f.entry s) (f.off x) 64 false = none → firstPoison s.me.poison (localAddr (f.entry s) (f.off x)) 64 = none →
      TMap.reserved (BitVec.ofNat 512 (leNat (s.me.bytes (localAddr (f.entry s) (f.off x)) 64))) = false →
      exec i s = .next (s'.addPend 4 (.tmap m.toNat (BitVec.allOnes 512)
        (BitVec.ofNat 512 (leNat (s.me.bytes (localAddr (f.entry s) (f.off x)) 64))))).commit) ∧
    (∀ k, coreFail (f.entry s) (f.off x) 64 false = none → firstPoison s.me.poison (localAddr (f.entry s) (f.off x)) 64 = some k →
      exec i s = .next (consumed (f.opened s) (s'.consume (f.off x + k) h.toNat))) ∧
    (coreFail (f.entry s) (f.off x) 64 false = none → firstPoison s.me.poison (localAddr (f.entry s) (f.off x)) 64 = none →
      TMap.reserved (BitVec.ofNat 512 (leNat (s.me.bytes (localAddr (f.entry s) (f.off x)) 64))) = true →
      exec i s = .next ((s.begin f.ends false []).trapAtIssue
        { cause := .reservedField, tval := BitVec.ofNat 64 (f.off x) } s.latch.slot)) ∧
    ∀ r b, coreFail (f.entry s) (f.off x) 64 false = some (r, b) →
      exec i s = .next ((s'.violate s.memUnit h.toNat (f.off x) b r).addPend 4 (.tmap m.toNat (BitVec.allOnes 512) 0)).commit) ∧
  (∀ (i : Instr) (f : AccessForm) (g : Guard) (m z : BitVec 4) (h : BitVec 8) (o : BitVec 5) (s s' : State) (x : Word),
    i = .tmst g m h o z → accessForm i = some f → s.ready g → s.me.rpl = false → s.cached [h.toNat] →
    (f.opened s).readS o.toNat = .ok (x, s') → f.off x % 64 = 0 →
    (coreFail (f.entry s) (f.off x) 64 true = none →
      exec i s = .next (s'.putOwn (cellsAt (localAddr (f.entry s) (f.off x)) 64 (s.me.vec.tm.getD m.toNat 0).toNat)).commit) ∧
    ∀ r b, coreFail (f.entry s) (f.off x) 64 true = some (r, b) →
      exec i s = .next (s'.violate s.memUnit h.toNat (f.off x) b r).commit) ∧
  (∀ (g : Guard) (m : BitVec 4) (a : BitVec 5) (x : BitVec 6) (s s' : State) (v : Word), s.ready g →
    (s.opened g false false []).readS a.toNat = .ok (v, s') →
    ((x = 32 → v.toNat / 2 ^ 41 % 128 = 0) →
      exec (.tmset g m a x) s = .next (s'.writeTm m.toNat (tmField x.toNat).1 (tmField x.toNat).2 v.toNat).commit) ∧
    exec (.tmadd g m a x) s = .next (s'.writeTm m.toNat (tmField x.toNat).1 (tmField x.toNat).2
      ((s.me.vec.tm.getD m.toNat 0).toNat / 2 ^ (tmField x.toNat).1 + v.toNat)).commit) ∧
  (∀ (g : Guard) (m : BitVec 4) (s : State), s.ready g →
    exec (.tmsetClear g m) s = .next ((s.opened g false false []).writeTm m.toNat 0 512 0).commit)

/-- 07 R153, R154, 04 R89 to R91: VLD of a tile whose checks pass and whose elements lie inside, in clean bytes, loads every masked
element at L = 4 + P, with the tag of the data. -/
def Obligations.VectorLoad : Prop :=
  ∀ (g : Guard) (v m : BitVec 4) (x : BitVec 5) (k : BitVec 3) (c t : BitVec 1) (s s' : State) (z : Word) (map : BitVec 512)
    (e : BitVec 256) (f : Fmt) (w : Nat) (out : List (Nat × ERead)) (y : Nat → Nat × Flags), s.ready g →
    s.cached (s.tileUses m (decide (c = 1))) →
    (s.opened g false false (s.tileUses m (decide (c = 1)))).readS x.toNat = .ok (z, s') →
    s'.tileChecks m (decide (c = 1)) (fun _ => .ok ()) = .ok (map, e, f, w) → (k ≠ 0 → (s.me.vreg v).tag = f.tag) →
    out = ((s.me.tile map w z (decide (t = 1))).map fun p =>
      (p.1, readElem f w (decide (c = 1)) (s.me.localRd e false) (s.me.localRd f.sh.e false) p.2.1 p.2.2)) →
    (∀ p ∈ out, p.2.bad = none ∧ p.2.sbad = none ∧ p.2.poison = none) →
    (∀ n, y n = match out.find? fun p => p.1 = n with
      | some p => if c = 1 then FFmt.fp32.encode p.2.val .rne else (p.2.bits, 0)
      | none => (0, 0)) →
    exec (.vld g v m x k c t) s = .next ((((s'.occupy s.me.passes).writeVec v (4 + s.me.passes) s.me.ew
      ((List.range s.me.elems).map fun n => if s.me.kbit k n then some (y n).1 else none) f.tag).raise (4 + s.me.passes)
      (orFlags ((List.range s.me.elems).map fun n => if s.me.kbit k n then (y n).2 else 0)) none)).commit

/-- 07 R153, R155, 05 R102, R103: VST of a tile whose checks pass, whose places and scales all lie inside and whose channel factors are
clean stores the masked elements, narrowed when it converts, in the issue cycle; every byte that it does not store to is unchanged on a core with nothing in
flight. -/
def Obligations.VectorStore : Prop :=
  ∀ (g : Guard) (v m : BitVec 4) (x : BitVec 5) (k : BitVec 3) (c t : BitVec 1) (s s' : State) (z : Word) (map : BitVec 512)
    (e : BitVec 256) (f : Fmt) (w : Nat) (ws : List EWrite) (ps : List Put) (fls : List Flags) (sbs : List (Option (Bool × Nat))) (cells : List Host.Cell), s.ready g →
    s.cached (s.tileUses m (decide (c = 1))) →
    (s.opened g true false (s.tileUses m (decide (c = 1)))).readS x.toNat = .ok (z, s') →
    s'.tileChecks m (decide (c = 1)) (fun _ => .ok ()) = .ok (map, e, f, w) → (s.me.vreg v).tag = f.tag →
    (∀ p ∈ s.me.tile map w z (decide (t = 1)),
      (readElem f w false (s.me.localRd e true) (s.me.localRd e true) p.2.1 p.2.2).bad = none) →
    ws = ((List.range s.me.elems).filterMap fun n =>
      (((s.me.tile map w z (decide (t = 1))).filter fun p => s.me.kbit k p.1).find? fun p => p.1 = n).map fun p =>
        ({ loc := p.2.2, i1 := p.2.1, bits := (elemsOf (s.me.vreg v).bits s.me.ew s.me.elems).getD n 0,
           val := FFmt.fp32.decode ((elemsOf (s.me.vreg v).bits s.me.ew s.me.elems).getD n 0), idx := n } : EWrite)) →
    (c = 1 → narrow f (s.rndFor false (s.me.sys.fpstat.getLsbD 11)) (s.me.localRd f.sh.e false) (fun n => Config.freeNat (s.free + n)) ws =
      (ps, fls, sbs) ∧ (∀ b ∈ sbs, b = none) ∧ chanPoison f (s.me.localRd f.sh.e false)
        (((s.me.tile map w z (decide (t = 1))).filter fun p => s.me.kbit k p.1).map fun p => p.2.1) = none) → (c = 0 → ps = (ws.map fun y => y.put f w y.bits) ∧ fls = []) →
    (∀ p ∈ ps, putFail (s.me.localRd e true) (s.me.localRd f.sh.e true) p = none) →
    cells = putCells (fun side o => if side then localAddr f.sh.e o else localAddr e o) s.me.byte ps [] →
    (∃ np, exec (.vst g v m x k c t) s = .next ((((({ s'.occupy s.me.passes with free := s'.free + s.me.elems } : State).choose 6).2).putOwn
      cells).raise 1 (orFlags fls) np).commit) ∧
    (Calm s.me → s.inv → ∀ u, exec (.vst g v m x k c t) s = .next u →
      (∀ a, (∀ p ∈ cells, p.1 ≠ a) → u.me.sto.spad.read a = s.me.sto.spad.read a) ∧ u.me.regs.s = s.me.regs.s ∧
      u.me.regs.p = s.me.regs.p ∧ u.me.vec = s.me.vec ∧ u.me.sto.imem = s.me.sto.imem ∧ u.me.sto.acc = s.me.sto.acc ∧
      ∀ o, o ≠ s.cur → u.core o = s.core o)

/-- 11 R232, R233, 12 R244: TLOOK returns the slot and the payload of the lowest valid entry with its key, or all ones; outside replay
TSET, TDEL, TPIN and TUNPIN return their status, and a status other than 0 leaves the table unchanged.
12 R245, 14 R289: TLOOK.R of a core of the package sends its probe to that core's table, with a landing slot taken for the result;
a core number above 255 raises the reserved-field trap. The spec gives L = 1,200 alone: the cycle within L by which the probe reads the
table is the model's choice. (DEDUCED, log 5) -/
def Obligations.TagTableIssues : Prop :=
  ((∀ (g : Guard) (d a : BitVec 5) (s s' t : State) (k v : Word), s.ready g → (s.opened g false false []).readS a.toNat = .ok (k, s') →
     (∀ n, n < 64 → (s.me.sto.tags.getD n {}).v = true → (s.me.sto.tags.getD n {}).key = k →
       (∀ m, m < n → ¬ ((s.me.sto.tags.getD m {}).v = true ∧ (s.me.sto.tags.getD m {}).key = k)) →
       v = BitVec.ofNat 64 (n + (s.me.sto.tags.getD n {}).payload.toNat * 64)) →
     ((∀ n, n < 64 → ¬ ((s.me.sto.tags.getD n {}).v = true ∧ (s.me.sto.tags.getD n {}).key = k)) → v = BitVec.allOnes 64) →
     s'.writeS d.toNat 4 v = .ok t → exec (.tlook g d a) s = .next t.commit) ∧
   (∀ (g : Guard) (d a b : BitVec 5) (s s1 s' t : State) (k x : Word), s.ready g → s.me.rpl = false →
     (s.opened g true false []).readS a.toNat = .ok (k, s1) → s1.readS b.toNat = .ok (x, s') →
     (if x.toNat / 64 % 2 ^ 26 ≠ 0 then s'.writeS d.toNat 4 5
      else if (s.me.sto.tags.getD (x.toNat % 64) {}).v = true ∧ (s.me.sto.tags.getD (x.toNat % 64) {}).pins ≠ 0 then s'.writeS d.toNat 4 1
      else (s'.setTag (x.toNat % 64) ⟨true, 0, BitVec.ofNat 32 (x.toNat / 2 ^ 32), k⟩).writeS d.toNat 4 0) = .ok t →
     exec (.tset g d a b) s = .next t.commit) ∧
   (∀ (i : Instr) (g : Guard) (d a : BitVec 5) (f : TagEntry → Nat × TagEntry) (s s' t : State) (x : Word),
     tagForm i = some (g, d, a, f) → s.ready g → s.me.rpl = false → (s.opened g true false []).readS a.toNat = .ok (x, s') →
     (if 63 < x.toNat then s'.writeS d.toNat 4 5
      else (s'.setTag x.toNat (f (s.me.sto.tags.getD x.toNat {})).2).writeS d.toNat 4
        (BitVec.ofNat 64 (f (s.me.sto.tags.getD x.toNat {})).1)) = .ok t →
     exec i s = .next t.commit)) ∧
  (∀ (g : Guard) (d a b : BitVec 5) (s s1 s' : State) (k c : Word), s.ready g 1 →
     (s.opened g false false []).readS a.toNat = .ok (k, s1) → s1.readS b.toNat = .ok (c, s') →
     (c.toNat ≤ 255 → d.toNat < 24 →
       ∃ (t : State) (n : Nat), exec (.tlookR g d a b) s = .next t.commit ∧
         t.me.seq.landings = s.me.seq.landings ++ [⟨s.me.seq.nextLanding, s.me.seq.rn + 1199, s.latch.slot, s.me.seq.pc, none, none⟩] ∧
         n ≤ 1197 ∧ t.msgs = s.msgs ++
           [⟨s.nextMsg, s.clock + n, .probe s.cur.val s.me.seq.nextLanding (s.me.ctx.getD 64) c.toNat k d.toNat 0 (s.clock + 1199)⟩]) ∧
     (c.toNat ≤ 255 → 24 ≤ d.toNat → (s'.me.regs.q.getD (d.toNat - 24) []).length < 4 →
       ∃ (t : State) (n : Nat), exec (.tlookR g d a b) s = .next t.commit ∧
         t.me.regs.q.getD (d.toNat - 24) [] = s'.me.regs.q.getD (d.toNat - 24) [] ++ [{ id := s.me.regs.nextQ }] ∧
         n ≤ 1197 ∧ t.msgs = s.msgs ++
           [⟨s.nextMsg, s.clock + n,
             .probe s.cur.val s.me.seq.nextLanding (s.me.ctx.getD 64) c.toNat k d.toNat s.me.regs.nextQ (s.clock + 1199)⟩]) ∧
     (255 < c.toNat → exec (.tlookR g d a b) s =
       .next ((s.begin false false []).trapAtIssue { cause := .reservedField, tval := c } s.latch.slot)))

/-- 03 R67: the frame of a store. On a core with nothing in flight the bytes at its address hold the source when the bundle has
issued; every other byte of the scratchpad, the instruction memory, every register other than a popped queue, and every other core is
unchanged.
03 R67: the frame of a load that is allowed: its destination apart, which is pending, it changes no register but a popped queue,
no byte of memory and no other core. -/
def Obligations.AccessFrame : Prop :=
  (∀ (i : Instr) (f : AccessForm) (d : BitVec 5) (s s1 s' : State) (x v : Word), storeForm i = some (f, d) → s.ready f.g → Calm s.me → s.inv →
     s.cached [f.h.toNat] → (f.opened s).readS f.o.toNat = .ok (x, s1) → f.off x % f.n = 0 → s1.readS d.toNat = .ok (v, s') →
     coreFail (f.entry s) (f.off x) f.n true = none →
     ∃ u, exec i s = .next u ∧ onlyMe s u ∧
       (∀ k, k < f.n → u.me.sto.spad.read (localAddr (f.entry s) (f.off x) + k) = BitVec.ofNat 8 (v.toNat / 256 ^ k)) ∧
       (∀ a, (a < localAddr (f.entry s) (f.off x) ∨ localAddr (f.entry s) (f.off x) + f.n ≤ a) →
         u.me.sto.spad.read a = s.me.sto.spad.read a) ∧
       u.me.sto.imem = s.me.sto.imem ∧ u.me.sto.acc = s.me.sto.acc ∧ u.me.sto.tags = s.me.sto.tags ∧ u.me.regs.s = s.me.regs.s ∧
       u.me.regs.p = s.me.regs.p ∧ u.me.vec = s.me.vec ∧ u.me.sys = s.me.sys ∧
       u.me.eng = { s.me.eng with held := u.me.eng.held } ∧ (s.me.eng.held = [] → u.me.eng.held = []) ∧
       u.me.seq.pc.toNat = s.me.seq.pc.toNat + 1 ∧
       (∀ q, q < 8 → 24 + q ≠ f.o.toNat → 24 + q ≠ d.toNat → u.me.regs.q.getD q [] = s.me.regs.q.getD q [])) ∧
  (∀ (i : Instr) (f : AccessForm) (d : BitVec 5) (sg : Bool) (s s' t : State) (x : Word), loadForm i = some (f, d, sg) → s.ready f.g →
     Calm s.me → s.cached [f.h.toNat] → (f.opened s).readS f.o.toNat = .ok (x, s') → f.off x % f.n = 0 →
     coreFail (f.entry s) (f.off x) f.n false = none → firstPoison s.me.poison (localAddr (f.entry s) (f.off x)) f.n = none →
     s'.writeS d.toNat 4 (loaded f.n sg (s.me.bytes (localAddr (f.entry s) (f.off x)) f.n)) = .ok t →
     ∃ u, exec i s = .next u ∧ onlyMe s u ∧ u.me.regs.s = s.me.regs.s ∧ u.me.regs.p = s.me.regs.p ∧ u.me.vec = s.me.vec ∧
       u.me.sys = s.me.sys ∧ u.me.eng = s.me.eng ∧ u.me.sto.spad = s.me.sto.spad ∧ u.me.sto.imem = s.me.sto.imem ∧
       u.me.sto.acc = s.me.sto.acc ∧ u.me.sto.tags = s.me.sto.tags ∧ u.me.seq.pc.toNat = s.me.seq.pc.toNat + 1 ∧
       (∀ q, q < 8 → 24 + q ≠ f.o.toNat → 24 + q ≠ d.toNat → u.me.regs.q.getD q [] = s.me.regs.q.getD q []) ∧
       (0 < d.toNat → d.toNat < 24 → u.me.seq.pend = [⟨s.me.seq.rn + 3, s.latch.slot,
         .scalar d.toNat (loaded f.n sg (s.me.bytes (localAddr (f.entry s) (f.off x)) f.n))⟩]))

/-- 07 R132 to R139, 06 R128: an element instruction whose type has VSHAPE's width, whose unit is free and whose tags agree issues; every
masked element of its result is on its way at L = 2 + P, with its flags and its tag.
07 R136 to R139: what the element operations compute. On integers the exact result, wrapped or clamped; the smaller or larger by the type's
signedness; |a| and -a; bitwise logic and shifts of the patterns. On floats the exact result rounded once, with its zero's sign; invalid
operations and NaNs by 05 R108; VMIN and VMAX with -0 below +0; VABS and VNEG on the sign bit. -/
def Obligations.VectorResult : Prop :=
  (∀ (i : Instr) (f : VecForm) (s s' : State) (xs : List Word) (tag : Tag), vecForm i = some f → s.ready f.g →
    (tyElem f.t.toNat).width = s.me.ew → (s.opened f.g false false []).readAll f.srcs = .ok (xs, s') →
    (∀ r ∈ f.regs, (s.me.vreg r).tag = tag) → (f.carry = false → tag = {}) →
    exec i s = .next (((s'.occupy s.me.passes).writeVec f.v (2 + s.me.passes) s.me.ew (under s f.k fun e => (f.value s xs e).1) tag).raiseVec
      (2 + s.me.passes) (flagsUnder s f.k fun e => (f.value s xs e).2) s.me.cols).commit) ∧
  (∀ (w : Nat) (sg sat : Bool) (r : Rnd) (a b c : Nat), 0 < w → a < 2 ^ w → b < 2 ^ w → c < 2 ^ w →
    arithElem (.int w sg) .add sat r a b c = intResult w sg sat (asInt w sg a + asInt w sg b) ∧
    arithElem (.int w sg) .sub sat r a b c = intResult w sg sat (asInt w sg a - asInt w sg b) ∧
    arithElem (.int w sg) .mul sat r a b c = intResult w sg sat (asInt w sg a * asInt w sg b) ∧
    arithElem (.int w sg) .fma sat r a b c = intResult w sg sat (asInt w sg a * asInt w sg b + asInt w sg c) ∧
    minMaxElem (.int w sg) false a b = (if asInt w sg a ≤ asInt w sg b then a else b, 0) ∧
    minMaxElem (.int w sg) true a b = (if asInt w sg a ≤ asInt w sg b then b else a, 0) ∧
    absNegElem (.int w sg) false sat a = intResult w sg sat (asInt w sg a).natAbs ∧
    absNegElem (.int w sg) true sat a = intResult w sg sat (-asInt w sg a) ∧
    VLogic.elem .and w a b = (BitVec.ofNat w a &&& BitVec.ofNat w b).toNat ∧
    VLogic.elem .or w a b = (BitVec.ofNat w a ||| BitVec.ofNat w b).toNat ∧
    VLogic.elem .xor w a b = (BitVec.ofNat w a ^^^ BitVec.ofNat w b).toNat ∧
    VLogic.elem .shl w a b = (BitVec.ofNat w a <<< b).toNat ∧ VLogic.elem .shr w a b = (BitVec.ofNat w a >>> b).toNat ∧
    VLogic.elem .sar w a b = ((BitVec.ofNat w a).sshiftRight b).toNat) ∧
  ∀ (t : Nat) (f : FFmt) (sat : Bool) (r : Rnd) (a b c : Nat) (x y z : Machine.Num), tyElem t = .flt f → a < 2 ^ f.w → b < 2 ^ f.w →
    c < 2 ^ f.w → x = f.decode a → y = f.decode b → z = f.decode c →
    (x.isNan = false → y.isNan = false →
      sumRule f r x y (arithElem (.flt f) .add sat r a b c) ∧ sumRule f r x y.negate (arithElem (.flt f) .sub sat r a b c) ∧
      productRule f r x y (arithElem (.flt f) .mul sat r a b c) ∧
      (isFinite x → isFinite y → z.isNan = false →
        (isFinite z → roundedOnce f r (ratVal x * ratVal y + ratVal z)
          (zeroSum r (if ratVal x * ratVal y = 0 then .zero (xor x.neg? y.neg?) else x) z) (arithElem (.flt f) .fma sat r a b c)) ∧
        (∀ n, z = .inf n → arithElem (.flt f) .fma sat r a b c = f.encode (.inf n) r)) ∧
      (minMaxElem (.flt f) false a b = (a, 0) ∧ ¬ belowVal y x ∨ minMaxElem (.flt f) false a b = (b, 0) ∧ belowVal y x) ∧
      (minMaxElem (.flt f) true a b = (a, 0) ∧ ¬ belowVal x y ∨ minMaxElem (.flt f) true a b = (b, 0) ∧ belowVal x y)) ∧
    ((x.isNan = true ∨ y.isNan = true) →
      nanOf f r [x, y] (arithElem (.flt f) .add sat r a b c) ∧ nanOf f r [x, y] (arithElem (.flt f) .sub sat r a b c) ∧
      nanOf f r [x, y] (arithElem (.flt f) .mul sat r a b c) ∧ nanOf f r [x, y, z] (arithElem (.flt f) .fma sat r a b c) ∧
      nanOf f .rne [x, y] (minMaxElem (.flt f) false a b) ∧ nanOf f .rne [x, y] (minMaxElem (.flt f) true a b)) ∧
    (f.ieee = true → absNegElem (.flt f) false sat a = ((BitVec.ofNat f.w a &&& BitVec.ofNat f.w (2 ^ (f.w - 1) - 1)).toNat, 0) ∧
      absNegElem (.flt f) true sat a = ((BitVec.ofNat f.w a ^^^ BitVec.ofNat f.w (2 ^ (f.w - 1))).toNat, 0)) ∧
    (f.ieee = false → absNegElem (.flt f) false sat a = (if a = 0 ∨ a = 0x80 then a else (BitVec.ofNat 8 a &&& 0x7F).toNat, 0) ∧
      absNegElem (.flt f) true sat a = (if a = 0 ∨ a = 0x80 then a else (BitVec.ofNat 8 a ^^^ 0x80).toNat, 0))

/-- 07 R140, R151, R152: compares, mask operations and KWIN issue with their mask bits on the way; what each condition of a compare
says of two elements, on integers by the type's signedness, on floats with -0 equal to +0, and the flag of a NaN operand. -/
def Obligations.MaskResult : Prop :=
  (∀ (i : Instr) (f : VCmpForm) (s s' : State) (xs : List Word), vcmpForm i = some f → s.ready f.g →
    (tyElem f.t.toNat).width = s.me.ew → (s.opened f.g false false []).readAll f.srcs = .ok (xs, s') →
    (∀ r ∈ f.regs, (s.me.vreg r).tag = {}) →
    exec i s = .next (((s'.occupy s.me.passes).writeK f.d (2 + s.me.passes)
      ((List.range s.me.elems).map fun e => if s.me.kbit f.k e then some (f.value s xs e).1 else none)).raiseVec (2 + s.me.passes)
      (flagsUnder s f.k fun e => (f.value s xs e).2) s.me.cols).commit) ∧
  (∀ (i : Instr) (g : Guard) (d : BitVec 3) (f : State → Nat → Bool) (s : State), maskForm i = some (g, d, f) → s.ready g →
    exec i s = .next (((s.opened g false false []).occupy 1).writeK d 2 ((List.range s.me.elems).map fun e => some (f s e))).commit) ∧
  (∀ (g : Guard) (d : BitVec 3) (x : BitVec 5) (k : BitVec 3) (s s' : State) (z : Word), s.ready g →
    (s.opened g false false []).readS x.toNat = .ok (z, s') →
    exec (.kwin g d x k) s = .next ((s'.occupy 1).writeK d 2 ((List.range s.me.elems).map fun e =>
      if s.me.kbit k e then some (decide
        ((BitVec.ofNat 24 z.toNat).toInt + (BitVec.ofNat 16 (z.toNat / 2 ^ 48)).toInt * (e / s.me.cols : Nat) ≤ (e % s.me.cols : Nat) ∧
         ((e % s.me.cols : Nat) : Int) < (BitVec.ofNat 24 (z.toNat / 2 ^ 24)).toInt +
           (BitVec.ofNat 16 (z.toNat / 2 ^ 48)).toInt * (e / s.me.cols : Nat))) else none)).commit) ∧
  (∀ (w : Nat) (sg : Bool) (a b : Nat), 0 < w → a < 2 ^ w → b < 2 ^ w →
    VCond.elem .eq (.int w sg) a b = (decide (a = b), 0) ∧ VCond.elem .ne (.int w sg) a b = (decide (a ≠ b), 0) ∧
    VCond.elem .lt (.int w sg) a b = (decide (asInt w sg a < asInt w sg b), 0) ∧
    VCond.elem .ge (.int w sg) a b = (decide (asInt w sg b ≤ asInt w sg a), 0) ∧
    VCond.elem .ltu (.int w sg) a b = (decide (a < b), 0) ∧ VCond.elem .geu (.int w sg) a b = (decide (b ≤ a), 0)) ∧
  ∀ (t : Nat) (f : FFmt) (a b : Nat) (x y : Machine.Num) (nv : Flags), tyElem t = .flt f → a < 2 ^ f.w → b < 2 ^ f.w →
    x = f.decode a → y = f.decode b → nv = (if x.isSig || y.isSig then Fl.nv else 0) →
    (x.isNan = false → y.isNan = false →
      ((VCond.elem .eq (.flt f) a b).1 = true ↔ ¬ lessVal x y ∧ ¬ lessVal y x) ∧
      ((VCond.elem .ne (.flt f) a b).1 = true ↔ lessVal x y ∨ lessVal y x) ∧
      ((VCond.elem .lt (.flt f) a b).1 = true ↔ lessVal x y) ∧ ((VCond.elem .ltu (.flt f) a b).1 = true ↔ lessVal x y) ∧
      ((VCond.elem .ge (.flt f) a b).1 = true ↔ ¬ lessVal x y) ∧ ((VCond.elem .geu (.flt f) a b).1 = true ↔ ¬ lessVal x y) ∧
      ∀ o : VCond, (o.elem (.flt f) a b).2 = 0) ∧
    ((x.isNan = true ∨ y.isNan = true) →
      VCond.elem .eq (.flt f) a b = (false, nv) ∧ VCond.elem .ne (.flt f) a b = (true, nv) ∧
      VCond.elem .lt (.flt f) a b = (false, Fl.nv) ∧ VCond.elem .ltu (.flt f) a b = (true, nv) ∧
      VCond.elem .ge (.flt f) a b = (false, Fl.nv) ∧ VCond.elem .geu (.flt f) a b = (true, nv))

/-- 07 R141, R146 to R150: the layout instructions. VSEL selects by its mask; VTRN transposes up to 64 columns; VBCAST repeats a row, a
column or a scalar; VIOTA counts up; VEXT and VINS move one element; VSHP sets a legal shape. -/
def Obligations.VectorLayout : Prop :=
  (∀ (g : Guard) (v a b t : BitVec 4) (k : BitVec 3) (s : State), s.ready g → (tyElem t.toNat).width = s.me.ew →
    (s.me.vreg b).tag = (s.me.vreg a).tag →
    exec (.vsel g v a b t k) s = .next (((s.opened g false false []).occupy s.me.passes).writeVec v (2 + s.me.passes) s.me.ew
      ((List.range s.me.elems).map fun e => some (if s.me.kbit k e then velem s a s.me.ew e else velem s b s.me.ew e))
      (s.me.vreg a).tag).commit) ∧
  (∀ (g : Guard) (v a t : BitVec 4) (k : BitVec 3) (s : State), s.ready g → (tyElem t.toNat).width = s.me.ew →
    s.me.cols ≤ 64 → (∀ r ∈ [a] ++ kept k v, (s.me.vreg r).tag = {}) →
    exec (.vtrn g v a t k) s = .next (((s.opened g false false []).occupy s.me.passes).writeVec v (4 + s.me.passes) s.me.ew
      (under s k fun e => velem s a s.me.ew (e % s.me.rows * s.me.cols + e / s.me.rows)) {}).commit) ∧
  (∀ (g : Guard) (v a : BitVec 4) (x : BitVec 5) (t : BitVec 4) (k : BitVec 3) (f : BitVec 1) (s s' : State) (z : Word) (tag : Tag),
    s.ready g → (tyElem t.toNat).width = s.me.ew → (s.opened g false false []).readS x.toNat = .ok (z, s') →
    (∀ r ∈ (if f = 1 then [] else [a]) ++ kept k v, (s.me.vreg r).tag = tag) → (f = 1 → k = 0 → tag = {}) →
    (f = 0 → z.toNat % 65536 < if z.getLsbD 16 then s.me.cols else s.me.rows) →
    exec (.vbcast g v a x t k f) s = .next ((s'.occupy s.me.passes).writeVec v (2 + s.me.passes) s.me.ew
      (under s k fun e => if f = 1 then z.toNat % 2 ^ s.me.ew
        else if z.getLsbD 16 then velem s a s.me.ew (e / s.me.cols * s.me.cols + z.toNat % 65536)
        else velem s a s.me.ew (z.toNat % 65536 * s.me.cols + e % s.me.cols)) tag).commit) ∧
  (∀ (g : Guard) (v : BitVec 4) (x : BitVec 5) (t : BitVec 4) (k : BitVec 3) (f : BitVec 1) (s s' : State) (z : Word), s.ready g →
    (tyElem t.toNat).width = s.me.ew → (s.opened g false false []).readS x.toNat = .ok (z, s') →
    exec (.viota g v x t k f) s = .next ((s'.occupy s.me.passes).writeVec v (2 + s.me.passes) s.me.ew
      (under s k fun e => (z.toNat + if f = 1 then e % s.me.cols else e) % 2 ^ s.me.ew) {}).commit) ∧
  (∀ (g : Guard) (q : BitVec 3) (a : BitVec 4) (x : BitVec 5) (f : BitVec 1) (s s' t : State) (z : Word), s.ready g →
    (s.opened g false false []).readS x.toNat = .ok (z, s') → z.toNat < s.me.elems →
    (s'.occupy 1).pushQ q 3 (if f = 1 then (BitVec.ofNat s.me.ew (velem s a s.me.ew z.toNat)).signExtend 64
      else BitVec.ofNat 64 (velem s a s.me.ew z.toNat)) = .ok t → exec (.vext g q a x f) s = .next t.commit) ∧
  (∀ (g : Guard) (v : BitVec 4) (x : BitVec 5) (s s' : State) (z : Word), s.ready g →
    (s.opened g false false []).readS x.toNat = .ok (z, s') → z.toNat / 2 ^ 32 % 16384 < s.me.elems →
    exec (.vins g v x) s = .next ((s'.occupy 1).writeVec v 3 s.me.ew
      (List.replicate (z.toNat / 2 ^ 32 % 16384) none ++ [some (z.toNat % 2 ^ s.me.ew)]) (s.me.vreg v).tag).commit) ∧
  (∀ (g : Guard) (x : BitVec 5) (s s' : State) (z : Word), s.ready g →
    (s.opened g false false []).readS x.toNat = .ok (z, s') → shapeOk z = true →
    exec (.vshp g x) s = .next ((s'.occupy 1).addPend 1 (.vshape z)).commit)

/-- 07 R142 to R144, 06 R120 to R124: a conversion (VCVT, VROT, VIROT) whose checks pass issues. Between equal tags every masked element
is decoded in the source type and encoded in the destination type, or by VIROT left as it is; from no rotation, and to none, every block is
rotated under its sign mask, its flags whatever the mask. What encode of a float, the narrowing of a block and a rotation compute is stated
of the numbers themselves (`EncodeRule`, `EncodeEdges`, `NarrowRule`, `RotationRule`: 05 R105 to R107, 06 R120, R121). That a rotated integer is narrowed by the rows of 05 R106 for a floating source
is the model's reading. (DEDUCED, log 18) -/
def Obligations.ConversionResult : Prop :=
  (∀ (i : Instr) (f : ConvForm) (s : State), convForm i = some f → ConvReady s f → (s.me.vreg f.a).tag = f.tag s →
    exec i s = .next ((((s.opened f.g false false []).occupy (f.passes s)).writeVec f.v (2 + f.passes s) f.dst.width
      (under s f.k fun e => (f.plain s e).1) (f.tag s)).raiseVec (2 + f.passes s) (flagsUnder s f.k fun e => (f.plain s e).2)
      s.me.cols).commit) ∧
  (∀ (i : Instr) (f : ConvForm) (s : State) (fwd : Bool) (t : Tag) (mask : BitVec 128), convForm i = some f → ConvReady s f →
    (s.me.vreg f.a).tag ≠ f.tag s → (if fwd then (s.me.vreg f.a).tag = {} ∧ t = f.tag s else f.tag s = {} ∧ t = (s.me.vreg f.a).tag) →
    1 ≤ t.code.toNat → t.code.toNat ≤ 4 → s.me.cols % (8 * 2 ^ t.code.toNat) = 0 → s.me.findMask t.id = .ok mask →
    exec i s = .next ((((s.opened f.g false false []).occupy (f.passes s)).writeVec f.v
      (2 + f.passes s + (8 * 2 ^ t.code.toNat).log2) f.dst.width (under s f.k fun e => (f.turned s fwd t mask e).1) (f.tag s)).raiseVec
      (2 + f.passes s + (8 * 2 ^ t.code.toNat).log2) ((List.range s.me.elems).map fun e =>
        (if s.me.kbit f.k e then (f.turned s fwd t mask e).2 else 0) ||| (f.block s fwd t mask (e / (8 * 2 ^ t.code.toNat))).2)
      s.me.cols).commit) ∧
  EncodeRule ∧ EncodeEdges ∧ NarrowRule ∧ RotationRule

/-- 07 R145: a reduction writes the masked elements of its first column, or row, at L = 5 + P: the reduction of their row, or column.
SUM is the exact sum, wrapped or clamped on integers and rounded once on floats; MAX and MIN are an element that no other exceeds, or is
below; a NaN among floats is the result, quieted. -/
def Obligations.ReductionResult : Prop :=
  (∀ (i : Instr) (f : RedForm) (s : State) (el : Elem) (tag : Tag) (r : Nat → Nat × Flags), redForm i = some f → s.ready f.g →
    el = tyElem f.t.toNat → el.width = s.me.ew → (s.me.vreg f.a).tag = tag → (s.me.vreg f.v).tag = tag →
    ((f.op ≠ .sum ∨ f.down = false) → tag = {}) →
    (∀ e, r e = f.op.elem el f.sat (s.rndFor false (if el.isFloat then s.me.sys.fpstat.getLsbD 11 else f.sat) e)
      (if f.down then (List.range s.me.rows).map fun j => velem s f.a s.me.ew (j * s.me.cols + e % s.me.cols)
       else (List.range s.me.cols).map fun j => velem s f.a s.me.ew (e / s.me.cols * s.me.cols + j))) →
    exec i s = .next ((((s.opened f.g false false []).occupy s.me.passes).writeVec f.v (5 + s.me.passes) s.me.ew
      ((List.range s.me.elems).map fun e =>
        if (if f.down then e / s.me.cols else e % s.me.cols) = 0 ∧ s.me.kbit f.k e = true then some (r e).1 else none) tag).raiseVec
      (5 + s.me.passes) ((List.range s.me.elems).map fun e =>
        if (if f.down then e / s.me.cols else e % s.me.cols) = 0 ∧ s.me.kbit f.k e = true then (r e).2 else 0) s.me.cols).commit) ∧
  (∀ (w : Nat) (sg sat : Bool) (r : Rnd) (l : List Nat), 0 < w → l ≠ [] → (∀ a ∈ l, a < 2 ^ w) →
    VRed.elem .sum (.int w sg) sat r l = intResult w sg sat ((l.map (asInt w sg)).sum) ∧
    (∃ a ∈ l, VRed.elem .max (.int w sg) sat r l = (a, 0) ∧ ∀ b ∈ l, asInt w sg b ≤ asInt w sg a) ∧
    ∃ a ∈ l, VRed.elem .min (.int w sg) sat r l = (a, 0) ∧ ∀ b ∈ l, asInt w sg a ≤ asInt w sg b) ∧
  ∀ (t : Nat) (f : FFmt) (sat : Bool) (r : Rnd) (l : List Nat) (xs : List Machine.Num), tyElem t = .flt f → l ≠ [] →
    (∀ a ∈ l, a < 2 ^ f.w) → xs = l.map f.decode →
    ((∀ x ∈ xs, isFinite x) →
      roundedOnce f r ((xs.map ratVal).foldr (fun p q => p + q) 0)
        (if ∀ x ∈ xs, x = .zero true then true else if ∀ x ∈ xs, x = .zero false then false else decide (r.rm = 2))
        (VRed.elem .sum (.flt f) sat r l)) ∧
    ((∀ x ∈ xs, x.isNan = false) →
      (.inf true ∈ xs → .inf false ∈ xs → invalidOf f r (VRed.elem .sum (.flt f) sat r l)) ∧
      (∀ n, .inf n ∈ xs → .inf (!n) ∉ xs → VRed.elem .sum (.flt f) sat r l = f.encode (.inf n) r) ∧
      (∃ a ∈ l, VRed.elem .max (.flt f) sat r l = (a, 0) ∧ ∀ b ∈ l, ¬ belowVal (f.decode a) (f.decode b)) ∧
      ∃ a ∈ l, VRed.elem .min (.flt f) sat r l = (a, 0) ∧ ∀ b ∈ l, ¬ belowVal (f.decode b) (f.decode a)) ∧
    ((∃ x ∈ xs, x.isNan = true) → nanOf f r xs (VRed.elem .sum (.flt f) sat r l) ∧
      nanOf f .rne xs (VRed.elem .max (.flt f) sat r l) ∧ nanOf f .rne xs (VRed.elem .min (.flt f) sat r l))

/-- 07 R157 to R161: the special-function unit. The functions of fixed latency write at L = 6 + F; the others take a landing slot whose
result stands ready at L = 12 + F, or comes four cycles of its die a slow pass after that; FTOPK writes each row's largest, FHKEY pushes a key. Of the function values
the special operands' and the exact ones are stated as numbers (`FunctionValues`), of FTOPK the order of selection (`SelectionOrder`). That
SATD holds for the infinite results of R158's table too, and the order among NaNs, are the model's choices. (DESIGN CHOICE, log 44) -/
def Obligations.FunctionResult : Prop :=
  (∀ (i : Instr) (g : Guard) (o : FnOp) (v a t : BitVec 4) (k : BitVec 3) (s : State), fnForm i = some (g, o, v, a, t, k) → s.ready g →
    (tyElem t.toNat).width = s.me.ew → (∀ r ∈ [a] ++ kept k v, (s.me.vreg r).tag = {}) →
    exec i s = .next ((((s.opened g false false []).occupy s.me.fnPasses).writeVec v (6 + s.me.fnPasses) s.me.ew
      (under s k fun e => (fnValue s o a t e).1) {}).raise (6 + s.me.fnPasses) (orFlags (flagsUnder s k fun e => (fnValue s o a t e).2))
      (firstNp (flagsUnder s k fun e => (fnValue s o a t e).2) s.me.cols 3 s.me.seq.pc s.latch.slot)).commit) ∧
  (∀ (i : Instr) (g : Guard) (o : FnOp) (v a t : BitVec 4) (k : BitVec 3) (s : State) (x : Nat) (fl : Flags) (ws : List Write),
    slowForm i = some (g, o, v, a, t, k) → s.ready g 1 → (tyElem t.toNat).width = s.me.ew →
    (∀ r ∈ [a] ++ kept k v, (s.me.vreg r).tag = {}) → (∀ l ∈ s.me.seq.landings, l.id < s.me.seq.nextLanding) →
    x = slowPasses s.me.ew ((List.range s.me.elems).map fun e => (tyElem t.toNat).decode (velem s a s.me.ew e)) →
    fl = orFlags (flagsUnder s k fun e => (fnValue s o a t e).2) →
    ws = [.vec v.toNat (BitVec.ofNat 65536 (packVals s.me.ew (under s k fun e => (fnValue s o a t e).1)).1)
        (BitVec.ofNat 65536 (packVals s.me.ew (under s k fun e => (fnValue s o a t e).1)).2) {}] ++
      (if fl = 0 then [] else
        [.flags fl (firstNp (flagsUnder s k fun e => (fnValue s o a t e).2) s.me.cols 3 s.me.seq.pc s.latch.slot)]) →
    ∃ u : State, exec i s = .next u.commit ∧
      u.me.seq.landings = s.me.seq.landings ++ [⟨s.me.seq.nextLanding, s.me.seq.rn + 12 + s.me.fnPasses - 1, s.latch.slot, s.me.seq.pc,
        if x = 0 then some ws else none, if x = 0 then none else some (4 * x, ws)⟩] ∧ u.msgs = s.msgs) ∧
  (∀ (s : State) (l : Landing) (n : Nat) (ws : List Write), l ∈ s.me.seq.landings → l.due ≤ s.me.seq.rn → l.arrived = none →
    l.late = some (n, ws) → (∀ y ∈ s.me.seq.landings, y.id = l.id → y = l) →
    ∃ k, (⟨k, s.clock + (n * 5 + (5 - (s.dies[dieOf s.cur]).step.toNat) - 1) / (5 - (s.dies[dieOf s.cur]).step.toNat),
        .landed s.cur.val l.id ws⟩ : Msg) ∈ s.callLate.msgs ∧
      ∀ y ∈ s.callLate.me.seq.landings, y.id = l.id → y = { l with late := none }) ∧
  (∀ (g : Guard) (v a : BitVec 4) (y : BitVec 5) (t : BitVec 4) (k : BitVec 3) (l : BitVec 1) (s s' : State) (z : Word) (el : Elem),
    s.ready g → el = tyElem t.toNat → el.width = s.me.ew → (s.opened g false false []).readS y.toNat = .ok (z, s') →
    (s.me.vreg a).tag = {} → (s.me.vreg v).tag = {} → 1 ≤ z.toNat → z.toNat ≤ min s.me.cols 256 → (l = 0 → s.me.cols ≤ 2 ^ s.me.ew) →
    exec (.ftopk g v a y t k l) s = .next ((s'.occupy (2 * s.me.fnPasses)).writeVec v (8 + 2 * s.me.fnPasses) s.me.ew
      ((List.range s.me.elems).map fun e => if e % s.me.cols < z.toNat ∧ s.me.kbit k e = true then
        let p := (topSort el ((List.range s.me.cols).map fun j => (velem s a s.me.ew (e / s.me.cols * s.me.cols + j), j))).getD
          (e % s.me.cols) (0, 0)
        some (if l = 1 then p.1 else p.2) else none) {}).commit) ∧
  (∀ (g : Guard) (q : BitVec 3) (a : BitVec 4) (y : BitVec 5) (r : BitVec 6) (s s' t : State) (z : Word), s.ready g →
    (s.opened g false false []).readS y.toNat = .ok (z, s') → (s.me.vreg a).tag = {} → r.toNat < s.me.rows →
    16 ≤ s.me.cols →
    (s'.occupy 1).pushQ q 4 ((List.range 16).foldl (fun (h : Word) n =>
      h ^^^ (BitVec.ofNat 64 (velem s a s.me.ew (r.toNat * s.me.cols + n))).rotateLeft (4 * n)) (z.rotateLeft 13)) = .ok t →
    exec (.fhkey g q a y r) s = .next t.commit) ∧
  FunctionValues ∧ SelectionOrder

/-- 04 R85, R87: what lands in a vector register: each written element takes its value, every other bit stays, the tag is the new one;
in a mask register likewise, and k0 is never written. -/
def Obligations.VectorLanding : Prop :=
  (∀ (k : Core) (s : State) (r : BitVec 4) (l w : Nat) (vals : List (Option Nat)) (tag : Tag) (p : Pend), 0 < w → vals.length * w ≤ 65536 →
    (s.writeVec r l w vals tag).me.seq.pend = s.me.seq.pend ++ [p] →
    (∀ e, e < vals.length → ((k.land p.w).vreg r).bits.toNat / 2 ^ (e * w) % 2 ^ w =
      match vals.getD e none with
      | some x => x % 2 ^ w
      | none => (k.vreg r).bits.toNat / 2 ^ (e * w) % 2 ^ w) ∧
    ((k.land p.w).vreg r).bits.toNat / 2 ^ (vals.length * w) = (k.vreg r).bits.toNat / 2 ^ (vals.length * w) ∧
    ((k.land p.w).vreg r).tag = tag ∧ (∀ q, q ≠ r → (k.land p.w).vreg q = k.vreg q)) ∧
  (∀ (k : Core) (s : State) (r : BitVec 3) (l : Nat) (vals : List (Option Bool)) (p : Pend), vals.length ≤ 16384 →
    (s.writeK r l vals).me.seq.pend = s.me.seq.pend ++ [p] →
    (∀ e, e < 16384 → r ≠ 0 → (k.land p.w).kbit r e = match vals.getD e none with | some b => b | none => k.kbit r e) ∧
    (∀ q, q ≠ r → (k.land p.w).kbit q = k.kbit q) ∧ (∀ e, (k.land p.w).kbit 0 e = true))

/-- 04 R86, 07 R134: the frame of an element instruction on a core with nothing in flight: when its bundle has issued every register,
queue, byte of memory and other core is as before, its result being pending; its unit is taken for P cycles. -/
def Obligations.VectorFrame : Prop :=
  ∀ (i : Instr) (f : VecForm) (s s' : State) (xs : List Word) (tag : Tag), vecForm i = some f → s.ready f.g → Calm s.me →
    (tyElem f.t.toNat).width = s.me.ew → (s.opened f.g false false []).readAll f.srcs = .ok (xs, s') →
    (∀ r ∈ f.regs, (s.me.vreg r).tag = tag) → (f.carry = false → tag = {}) →
    ∃ u, exec i s = .next u ∧ onlyMe s u ∧ u.me.regs.s = s.me.regs.s ∧ u.me.regs.p = s.me.regs.p ∧ u.me.vec = s.me.vec ∧
      u.me.sys = s.me.sys ∧ u.me.sto = s.me.sto ∧ u.me.eng = s.me.eng ∧ u.me.seq.pc.toNat = s.me.seq.pc.toNat + 1 ∧
      (∀ q, q < 8 → 24 + q ∉ f.srcs → u.me.regs.q.getD q [] = s.me.regs.q.getD q []) ∧
      u.me.seq.unitBusy.getD s.latch.slot 0 = s.me.seq.rn + s.me.passes

/-- 10 R200 to R205, 12 R255, R257: BARR sends the core's arrival and the core waits at its barrier; FUSE of a mask that names the core
and another, and REJOIN of a decoupled member, wait for the gang; DECOUPLE of a fused member writes 2 to GSTATE of its ROLE at the end of
the cycle, and before any core issues again every member of its gang has GSTATE 2 and keeps GMASK; outside their states DECOUPLE and REJOIN do nothing, and a wrong FUSE raises the gang trap. -/
def Obligations.GroupIssues : Prop :=
  (∀ (g : Guard) (d : BitVec 3) (x : BitVec 2) (s : State) (n : Nat), FlagReady s g → s.groupRef x.toNat = .ok n →
    (∀ e, Table.get s.groups n = some e → e.arrived.getLsbD s.cur.val = false) →
    ∃ (t : State) (k : Nat), exec (.barr g d x) s = .next t.commit ∧ t.latch.modes = [.barrier n d.toNat none s.latch.slot] ∧ k < 150 ∧
      t.msgs = s.msgs ++ [⟨s.nextMsg, s.clock + 1 + k, .arrive s.cur.val n⟩] ∧ t.groups = s.groups) ∧
  (∀ (g : Guard) (m : BitVec 4) (s : State), s.ready g → s.me.rpl = false →
    (m.getLsbD (s.cur.val % 4) = true → m.toNat ≠ 2 ^ (s.cur.val % 4) → s.me.gstate = 0 →
      exec (.fuse g m) s = .next ({ s.opened g true false [] with
        latch := { (s.opened g true false []).latch with modes := [.fusing m s.clock s.latch.slot] } } : State).commit) ∧
    ((m.getLsbD (s.cur.val % 4) = false ∨ m.toNat = 2 ^ (s.cur.val % 4) ∨ s.me.gstate ≠ 0) →
      exec (.fuse g m) s = .next ((s.begin true false []).trapAtIssue { cause := .gang } s.latch.slot))) ∧
  (∀ (g : Guard) (s : State), s.ready g → s.me.rpl = false →
    (s.me.gstate = 1 → exec (.decouple g) s = .next
      ((s.opened g true false []).addPend 1 (.sys .role (2#64 <<< 36) (3#64 <<< 36))).commit) ∧
    (s.me.gstate ≠ 1 → exec (.decouple g) s = .next (s.opened g true false []).commit) ∧
    (s.me.gstate = 2 → exec (.rejoin g) s = .next ({ s.opened g true false [] with
        latch := { (s.opened g true false []).latch with modes := [.rejoining s.clock s.latch.slot] } } : State).commit) ∧
    (s.me.gstate ≠ 2 → exec (.rejoin g) s = .next (s.opened g true false []).commit)) ∧
  (∀ k : Core, k.gstate = 1 → (k.land (.sys .role (2#64 <<< 36) (3#64 <<< 36))).gstate = 2 ∧
    (k.land (.sys .role (2#64 <<< 36) (3#64 <<< 36))).gmask = k.gmask) ∧
  (∀ (s : State) (c x : Fin 256), (s.core c).gstate = 1 → x ∈ (s.core c).gang c → (s.core x).gmask = (s.core c).gmask →
    (s.core x).gstate = 2 → ((s.plan 9).1.core c).gstate = 2 ∧ ((s.plan 9).1.core c).gmask = (s.core c).gmask)

/-- 10 R212 to R216, 12 R259 to R261: TASKPUT of a valid record puts it into the die's task store when there is room and says so through a
landing slot; after a violation it answers false and puts nothing, on poison it has no effect of its own, and a record that is not valid
raises the task-record trap; FUTRD in the entry region reads a full future or staged weight, after which the core's reads follow what its engines
have written (13 R267, R274), and parks the record on one that is not; FUTFILL sends its
value once its remote effects have completed and no fence holds it, waits, and issues when the home accepts it, or raises the future trap
with the home's reason and the handle. -/
def Obligations.TaskIssues : Prop :=
  (∀ (g : Guard) (d : BitVec 3) (a b : BitVec 5) (s s1 s' : State) (x off : Word) (run : RunRec) (r : BitVec 512), FlagReady s g 1 →
    s.cached [(s.me.peekS a.toNat).toNat % 256] →
    (s.opened g true false [(s.me.peekS a.toNat).toNat % 256]).readS a.toNat = .ok (x, s1) → s1.readS b.toNat = .ok (off, s') →
    off.toNat % 64 = 0 → coreFail (s.entry s.me (x.toNat % 256)) off.toNat 64 false = none →
    firstPoison s.me.poison (localAddr (s.entry s.me (x.toNat % 256)) off.toNat) 64 = none → s.me.run = some run →
    r = BitVec.ofNat 512 (leNat (s.me.bytes (localAddr (s.entry s.me (x.toNat % 256)) off.toNat) 64)) →
    (recValid (hdr (s.image s.me) 6 2) (fun h => Ent.kind (s.launchEntry run.launch h)) r = true →
      ∃ t : State, exec (.taskput g d a b) s = .next t.commit ∧
        t.me.seq.landings = s.me.seq.landings ++ [⟨s.me.seq.nextLanding, s.me.seq.rn + 63, s.latch.slot, s.me.seq.pc, none, none⟩] ∧
        t.dies = (s.putTask (dieOf s.cur) run.launch r).2.dies ∧
        (∃ n, ⟨n, s.clock + 1, .landed s.cur.val s.me.seq.nextLanding [.pred d.toNat (s.putTask (dieOf s.cur) run.launch r).1]⟩ ∈ t.msgs)) ∧
    (recValid (hdr (s.image s.me) 6 2) (fun h => Ent.kind (s.launchEntry run.launch h)) r = false →
      exec (.taskput g d a b) s = .next ((s.begin true false []).trapAtIssue { cause := .taskRecord, tval := off } s.latch.slot))) ∧
  (∀ (g : Guard) (d : BitVec 3) (a b : BitVec 5) (s s1 s' : State) (x off : Word), FlagReady s g 1 →
    s.cached [(s.me.peekS a.toNat).toNat % 256] →
    (s.opened g true false [(s.me.peekS a.toNat).toNat % 256]).readS a.toNat = .ok (x, s1) → s1.readS b.toNat = .ok (off, s') →
    off.toNat % 64 = 0 →
    (∀ r k, coreFail (s.entry s.me (x.toNat % 256)) off.toNat 64 false = some (r, k) →
      ∃ t : State, exec (.taskput g d a b) s = .next t.commit ∧
        t.me.seq.landings = s.me.seq.landings ++ [⟨s.me.seq.nextLanding, s.me.seq.rn + 63, s.latch.slot, s.me.seq.pc, none, none⟩] ∧
        t.me.seq.pend = s.me.seq.pend ++ [⟨s.me.seq.rn, s.latch.slot, .viol (violTval (x.toNat % 256) off.toNat)⟩] ∧
        t.dies = s.dies ∧
        (∃ n, ⟨n, s.clock + 1, .landed s.cur.val s.me.seq.nextLanding [.pred d.toNat false]⟩ ∈ t.msgs)) ∧
    (∀ k, coreFail (s.entry s.me (x.toNat % 256)) off.toNat 64 false = none →
      firstPoison s.me.poison (localAddr (s.entry s.me (x.toNat % 256)) off.toNat) 64 = some k →
      exec (.taskput g d a b) s = .next (consumed (s.opened g true false [(s.me.peekS a.toNat).toNat % 256])
        (s'.consume (off.toNat + k) (x.toNat % 256))))) ∧
  (∀ (g : Guard) (d a : BitVec 5) (s s' : State) (x : Word) (e : BitVec 256), s.ready g → s.me.rpl = false →
    s.cached [(s.me.peekS a.toNat).toNat % 256] →
    (s.opened g false false [(s.me.peekS a.toNat).toNat % 256]).readS a.toNat = .ok (x, s') → e = s.entry s.me (x.toNat % 256) →
    s.me.seq.entryRegion = true → Ent.space e ≠ 0 → Ent.state e ≠ 4 → (Ent.kind e = 1 ∨ Ent.kind e = 2) →
    (∀ t, Ent.state e = 2 →
      (s'.setMe s'.me.seesEngines).writeS d.toNat 2 (BitVec.ofNat 64 (if Ent.kind e = 1 then Ent.auxw e else Ent.base e)) = .ok t →
      exec (.futrd g d a) s = .next t.commit) ∧
    (Ent.state e ≠ 2 → ¬ (Ent.kind e = 1 ∧ Ent.state e = 3) →
      exec (.futrd g d a) s = .next (((s.begin false false []).squashRecord [x.toNat % 256]).verdict .issued))) ∧
  (∀ (g : Guard) (a b : BitVec 5) (s s1 s' : State) (x v : Word), s.ready g → s.me.rpl = false →
    s.cached [(s.me.peekS a.toNat).toNat % 256] →
    (s.opened g true false [(s.me.peekS a.toNat).toNat % 256]).readS a.toNat = .ok (x, s1) → s1.readS b.toNat = .ok (v, s') →
    (∀ h w, SlotWait.futSent s.latch.slot h w ∉ s.me.seq.wait) →
    ((∀ r, SlotWait.futAnswer s.latch.slot r ∈ s.me.seq.wait → r = none) → SlotWait.futAnswer s.latch.slot none ∈ s.me.seq.wait →
      exec (.futfill g a b) s = .next s'.commit) ∧
    (∀ r : BitVec 4, (∀ y, SlotWait.futAnswer s.latch.slot y ∈ s.me.seq.wait → y = some r) →
      SlotWait.futAnswer s.latch.slot (some r) ∈ s.me.seq.wait →
      exec (.futfill g a b) s = .next ((s.begin true false []).trapAtIssue
        { cause := .future, sub := r, tval := BitVec.ofNat 64 (x.toNat % 256 + r.toNat * 256) } s.latch.slot)) ∧
    ((∀ r, SlotWait.futAnswer s.latch.slot r ∉ s.me.seq.wait) → s.me.eng.remote = [] → s.me.fenced = false →
      exec (.futfill g a b) s = .next (((s.begin true false []).sendReqs
        [.futSent s.latch.slot (x.toNat % 256) (BitVec.ofNat 32 v.toNat)]).waitCycle false)))

/-- 12 R249: SGSET from a table in LOCAL memory, or once the bytes of a table in HBM have arrived, loads its sign register for the next
bundle when the entry holds the mask of the identifier; before that its bundle waits for the bytes.
12 R250, R251, 04 R95: FENCE and FENCE.X. Outside replay FENCE makes every later engine command and remote effect wait for the
earlier ones, at SYSTEM scope also for the answers to their writes, and FENCE.X publishes the core's earlier stores to its engines; in
replay, outside a handler, both are held until the pass retires. -/
def Obligations.SignAndFenceIssues : Prop :=
  (∀ (g : Guard) (d : BitVec 3) (a b : BitVec 5) (s s1 s' : State) (x y : Word) (e : BitVec 256), s.ready g →
     s.cached [(s.me.peekS b.toNat).toNat % 256] → (∀ n r, SlotWait.sgSent s.latch.slot n r ∉ s.me.seq.wait) →
     (s.opened g false false [(s.me.peekS b.toNat).toNat % 256]).readS a.toNat = .ok (x, s1) → s1.readS b.toNat = .ok (y, s') →
     e = s.entry s.me (y.toNat % 256) →
     (∀ bs, (Ent.space e = 2 → SlotWait.sgArrived s.latch.slot ∈ s.me.seq.wait) → Ent.kind e = 3 → Ent.state e = 2 → x.toNat % 65536 ≠ 0 →
       32 * (x.toNat % 65536) + 32 ≤ Ent.len e → s'.signBytes e (x.toNat % 65536) = .ok (bs, none) → (leNat bs) / 2 ^ 144 % 2 = 1 →
       (leNat bs) / 2 ^ 128 % 65536 = x.toNat % 65536 →
       exec (.sgset g d a b) s = .next (s'.addPend 1 (.sign d.toNat (BitVec.ofNat 144 (leNat bs)))).commit) ∧
     (Ent.space e = 2 → SlotWait.sgArrived s.latch.slot ∉ s.me.seq.wait →
       ∃ n, s.later s.cur.val 401 ≤ n ∧ ((∀ k : Fin 12, (s.hbmStacks[k]).steps = []) → n = s.later s.cur.val 401) ∧
         exec (.sgset g d a b) s = .next (((s.begin false false []).sendReqs [.sgSent s.latch.slot n (s.signRows e (x.toNat % 65536))]).waitCycle true))) ∧
  (∀ (g : Guard) (x : BitVec 3) (s : State), s.ready g →
     (s.me.holds = false →
       exec (.fenceScope g x) s = .next ((s.opened g false false []).setMe { s.me with eng := { s.me.eng with
         fenceAt := s.me.eng.nextRemote, fenceSys := if x = 4 then s.me.eng.nextRemote else s.me.eng.fenceSys } }).commit ∧
       exec (.fenceX g) s = .next ((s.opened g false false []).setMe { s.me with sto := { s.me.sto with fenceX := s.me.sto.storeSeq } }).commit) ∧
     (s.me.holds = true →
       exec (.fenceScope g x) s = .next ((s.opened g false false []).setMe
         { s.me with eng := { s.me.eng with held := s.me.eng.held ++ [⟨s.me.iterOf g, .fence (decide (x = 4))⟩] } }).commit ∧
       exec (.fenceX g) s = .next ((s.opened g false false []).setMe
         { s.me with eng := { s.me.eng with held := s.me.eng.held ++ [⟨s.me.iterOf g, .fenceX⟩] } }).commit))

/-- 10 R206 to R208, 12 R253, R254: SEMSIG sends its increment as a remote effect. SEMWAIT sends a request and its bundle waits before
issue; it issues once the request is granted; an overflowed flag, which the granted bundle checks again, raises the flag-overflow trap. A number outside the window raises the
sync-index trap, of TQPUSH and TQPOP too.
12 R239, R256: TQPUSH and TQPOP take a landing slot and a remote effect and send their request to the queue's die, in the order of
the core's flag requests; that their way to the store takes no longer than SEMSIG's is the model's choice. (DEDUCED, log 5) -/
def Obligations.FlagStoreIssues : Prop :=
  ((∀ (g : Guard) (a : BitVec 5) (n : BitVec 6) (s s' : State) (x : Word) (f : FlagRef), FlagReady s g →
     (s.opened g true false []).readS a.toNat = .ok (x, s') →
     (s.flagRef x = .ok f → ∃ t : State, exec (.semsig g a n) s = .next t.commit ∧
       t.me.eng.remote = s.me.eng.remote ++ [s.me.eng.nextRemote] ∧
       sentAfter s t (.signal s.cur.val s.me.eng.nextRemote f.die f.sem (n.toNat + 1)) (if f.die = (dieOf s.cur).val then 20 else 240)) ∧
     (s.me.sys.syncwin.toNat % 256 ≤ x.toNat → exec (.semsig g a n) s =
       .next ((s.begin true false []).trapAtIssue { cause := .syncIndex, tval := x } s.latch.slot))) ∧
   (∀ (g : Guard) (a : BitVec 5) (s s' : State) (x : Word) (f : FlagRef), s.ready g → s.me.rpl = false →
     (s.opened g true false []).readS a.toNat = .ok (x, s') → s.flagRef x = .ok f →
     (∀ d m t, SlotWait.semGranted s.latch.slot d m t ∈ s.me.seq.wait → t ≤ s.clock) →
     (∀ d m n, SlotWait.semSent s.latch.slot d m n ∉ s.me.seq.wait) →
     ((∃ d m t, SlotWait.semGranted s.latch.slot d m t ∈ s.me.seq.wait) →
       ((Table.get (s.dies.getD f.die Die.reset).sems f.sem).getD {}).ovf = false →
       exec (.semwait g a) s = .next ({ s'.setMe s'.me.seesEngines with latch := { s'.latch with spent := [s.latch.slot] } } : State).commit) ∧
     ((∀ d m t, SlotWait.semGranted s.latch.slot d m t ∉ s.me.seq.wait) →
       ((Table.get (s.dies.getD f.die Die.reset).sems f.sem).getD {}).ovf = false →
       exec (.semwait g a) s = .next (((s.begin true false []).sendReqs [.semSent s.latch.slot f.die f.sem 0]).waitCycle true)) ∧
     (((Table.get (s.dies.getD f.die Die.reset).sems f.sem).getD {}).ovf = true →
       exec (.semwait g a) s = .next ((s.begin true false []).trapAtIssue
         { cause := .flagOverflow, tval := BitVec.ofNat 64 f.rel } s.latch.slot)))) ∧
  ((∀ (g : Guard) (a : BitVec 5) (s s' : State) (x : Word), s.ready g → s.me.rpl = false →
     (s.opened g true false []).readS a.toNat = .ok (x, s') →
     (∀ d m t, SlotWait.semGranted s.latch.slot d m t ∈ s.me.seq.wait → t ≤ s.clock) →
     (∀ d m n, SlotWait.semSent s.latch.slot d m n ∉ s.me.seq.wait) → s.me.sys.syncwin.toNat % 256 ≤ x.toNat →
     exec (.semwait g a) s = .next ((s.begin true false []).trapAtIssue { cause := .syncIndex, tval := x } s.latch.slot)) ∧
   (∀ (g : Guard) (d : BitVec 3) (a b : BitVec 5) (s s1 s' : State) (x v : Word), FlagReady s g 1 →
     (s.opened g true false []).readS a.toNat = .ok (x, s1) → s1.readS b.toNat = .ok (v, s') →
     s.me.sys.syncwin.toNat / 2 ^ 20 % 256 ≤ x.toNat →
     exec (.tqpush g d a b) s = .next ((s.begin true false []).trapAtIssue { cause := .syncIndex, tval := x } s.latch.slot)) ∧
   (∀ (g : Guard) (d a : BitVec 5) (k : BitVec 3) (s s' : State) (x : Word), FlagReady s g 1 →
     (s.opened g true false []).readS a.toNat = .ok (x, s') → s.me.sys.syncwin.toNat / 2 ^ 20 % 256 ≤ x.toNat →
     exec (.tqpop g d a k) s = .next ((s.begin true false []).trapAtIssue { cause := .syncIndex, tval := x } s.latch.slot))) ∧
  ((∀ (g : Guard) (d : BitVec 3) (a b : BitVec 5) (s s1 s' : State) (x v : Word) (die q l : Nat), FlagReady s g 1 →
     (s.opened g true false []).readS a.toNat = .ok (x, s1) → s1.readS b.toNat = .ok (v, s') → s.tqRef x = .ok (die, q) →
     l = (if die = (dieOf s.cur).val then 64 else 512) →
     ∃ t : State, exec (.tqpush g d a b) s = .next t.commit ∧ t.me.eng.remote = s.me.eng.remote ++ [s.me.eng.nextRemote] ∧
       t.me.seq.landings = s.me.seq.landings ++ [⟨s.me.seq.nextLanding, s.me.seq.rn + l - 1, s.latch.slot, s.me.seq.pc, none, none⟩] ∧
       sentAfter s t (.tqPush s.cur.val s.me.seq.nextLanding d.toNat die q s.latch.slot (s.clock + l - 1) s.me.eng.nextRemote v)
         (if die = (dieOf s.cur).val then 20 else 240)) ∧
   (∀ (g : Guard) (d a : BitVec 5) (k : BitVec 3) (s s' : State) (x : Word) (die q l : Nat), FlagReady s g 1 →
     (s.opened g true false []).readS a.toNat = .ok (x, s') → s.tqRef x = .ok (die, q) →
     l = (if die = (dieOf s.cur).val then 64 else 512) →
     ∃ t : State, exec (.tqpop g d a k) s = .next t.commit ∧ t.me.eng.remote = s.me.eng.remote ++ [s.me.eng.nextRemote] ∧
       t.me.seq.landings = s.me.seq.landings ++ [⟨s.me.seq.nextLanding, s.me.seq.rn + l - 1, s.latch.slot, s.me.seq.pc, none, none⟩] ∧
       sentAfter s t (.tqPop s.cur.val s.me.seq.nextLanding k.toNat d.toNat die q s.latch.slot (s.clock + l - 1) s.me.eng.nextRemote)
         (if die = (dieOf s.cur).val then 20 else 240)))

/-- 14 R281, R283, R287, 16 R329 to R331: an engine command whose conditions hold issues. It pops its flag operand from q6, reserves its
result entry and the q7 entry of its promise, requests the pins of the weight handles that it reads through, captures its operands, and
enters its queue, with its promise, the completion cycle after the commands ahead of it, on its way to q7 at L = 2; or in replay, outside
a handler, it is held until its pass retires, with the entry of its promise. That the scale handle through which a copy or an MLDW decodes a
weight handle's data is pinned too (DEDUCED, log 36), and how a promise counts a fence ahead of the command (DEDUCED, log 5), are the
model's choices. -/
def Obligations.CommandIssues : Prop :=
  ∀ (pl : PlaneInfo) (i : Instr) (f : CmdForm) (s s1 : State) (a r : Option FlagRef) (mask : Option (BitVec 128)),
    cmdForm pl i = some f → s.ready f.g → s.queueRoom (f.queue s) → s.cached (f.uses s) → tokenBad (f.queue s) f.e = false → f.checks s →
    f.mask s = .ok mask →
    (∀ h ∈ f.pins s, Ent.pin (s.homeEntry (s.me.ctx.getD 64) h.h) + s.pinsSent (s.me.ctx.getD 64) h.h < 65535) →
    (s.opened f.g true false (f.uses s)).flagOperand f.e = .ok (a, r, s1) →
    (∀ k, f.rq = some k → (s1.me.regs.q.getD k []).length < 4) → (f.e.p = 1 → (s1.me.regs.q.getD 7 []).length < 4) →
    (s.me.holds = true → (s.me.eng.held.filter fun h => match h.eff with | .cmd x => x.queue = f.queue s | _ => false).length < 16) →
    ∃ (t : State) (cmd : Cmd), exec i s = .next t.commit ∧
      cmd.id = s.me.eng.nextCmd ∧ cmd.op.toNat = f.op ∧ cmd.pc = s.me.seq.pc ∧ cmd.slot = BitVec.ofNat 3 s.latch.slot ∧ cmd.queue = f.queue s ∧ cmd.cf = f.cf ∧
      cmd.tpp = decide (f.e.tpp = 1) ∧ cmd.tpn = decide (f.e.tpn = 1) ∧ cmd.thp = decide (f.e.thp = 1) ∧ cmd.thn = decide (f.e.thn = 1) ∧
      cmd.acq = a ∧ cmd.rel = r ∧ cmd.scope.toNat = (if f.e.y = 1 then 4 else f.e.scope.toNat) ∧ cmd.after = s.me.eng.fenceAt ∧
      cmd.afterSys = s.me.eng.fenceSys ∧ cmd.launch = (s.me.run.map RunRec.launch).getD 256 ∧
      cmd.ctx = s.me.ctx.getD 64 ∧ cmd.prog = {} ∧
      cmd.cap = { f.cap s mask with rm := (s.me.sys.fpstat >>> 12).setWidth 3, sat := s.me.sys.fpstat.getLsbD 11, srBase := s.srBase,
                                    hostord := s.me.sys.hostord.getLsbD 0, epoch := ⟨s.me.sto.fenceX, s.me.sto.engSeen⟩,
                                    step := s.dies[dieOf s.cur.val].step } ∧
      cmd.rq = (f.rq.map fun k => (k, s.me.regs.nextQ)) ∧
      (∀ q, q < 8 → t.me.regs.q.getD q [] =
        (if q = 6 ∧ (f.e.acq = 1 ∨ f.e.rel = 1) then (s.me.regs.q.getD 6 []).tail else s.me.regs.q.getD q []) ++
        (if f.rq = some q then [{ id := s.me.regs.nextQ }] else []) ++
        (if f.e.p = 1 ∧ q = 7 then [{ id := if f.rq = none then s.me.regs.nextQ else s.me.regs.nextQ + 1 }] else [])) ∧
      cmd.promise = (if f.e.p = 1 ∧ s.me.holds = true then some (if f.rq = none then s.me.regs.nextQ else s.me.regs.nextQ + 1)
        else none) ∧
      t.me.seq.pend = s.me.seq.pend ++ (if f.e.p = 1 ∧ s.me.holds = false then
        [⟨s.me.seq.rn + 1, s.latch.slot, .push 7 (if f.rq = none then s.me.regs.nextQ else s.me.regs.nextQ + 1)
          (BitVec.ofNat 64 ((t.setMe { t.me with
              seq := { t.me.seq with pend := s.me.seq.pend }, sto := { t.me.sto with acc := s.me.sto.acc } }).promise s.cur
            (t.me.ahead (f.queue s) cmd.id) cmd)) (some cmd.id)⟩] else []) ∧
      t.msgs.map Msg.body = s.msgs.map Msg.body ++ (f.pins s).map (fun h => .pin s.cur.val (s.me.ctx.getD 64) h.h true) ∧
      (if s.me.holds then t.me.eng.held = s.me.eng.held ++ [⟨s.me.iterOf f.g, .cmd cmd⟩] ∧ t.me.eng.queues = s.me.eng.queues
       else t.me.eng.held = s.me.eng.held ∧ t.me.eng.queues = (s.me.enqueue cmd).eng.queues ∧
         t.me.eng.remote = s.me.eng.remote ++ [s.me.eng.nextRemote]) ∧
      t.me.sto = { (f.view s s.me).sto with hcache := t.me.sto.hcache } ∧ t.me.vec = s.me.vec ∧ t.me.sys = s.me.sys ∧
      t.me.regs.s = s.me.regs.s ∧ t.me.regs.p = s.me.regs.p

/-- 10 R206, R207, R209, 12 R253 to R256: increments add to a count, which sticks at its largest value with OVF set when it would pass it;
a grant takes 1 from a count above 0 for the oldest waiter; a push enters a queue that holds fewer than 16 tokens, a pop takes the oldest;
what they answer is on its way. -/
def Obligations.FlagStoreEvents : Prop :=
  (∀ (m : Nat) (s : State) (d : Fin 4) (f n : Nat), waiting s m (.semInc d.val f n) →
    ∃ u, exec (.semaphoreIncrement m) s = .next u ∧ semOf u d f =
      (if (semOf s d f).count.toNat + n < 2 ^ 32 then { semOf s d f with count := (semOf s d f).count + BitVec.ofNat 32 n }
       else ⟨0xFFFFFFFF, true⟩) ∧
      (∀ e g, (e ≠ d ∨ g ≠ f) → semOf u e g = semOf s e g) ∧ u.cores = s.cores) ∧
  (∀ (d : Fin 4) (f : Fin 4096) (s : State) (w : SemWaiter), (s.dies[d]).semWait.find? (fun w => decide (w.sem = f.val)) = some w →
    0 < (semOf s d f.val).count.toNat → w.cmd = none → s.clock ≤ w.limit →
    ∃ u t, exec (.semaphoreDecrementGrant d f) s = .next u ∧ (semOf u d f.val).count = (semOf s d f.val).count - 1 ∧
      (u.dies[d]).semWait = (s.dies[d]).semWait.erase w ∧ s.clock ≤ t ∧ t ≤ w.limit ∧
      (u.core (coreId w.core)).seq.wait = ((s.core (coreId w.core)).seq.wait.map fun y => match y with
        | .semSent n a b id => if id = w.id then .semGranted n a b t else y
        | _ => y)) ∧
  (∀ (m : Nat) (s : State) (c l p q slot limit r : Nat) (d : Fin 4) (v : Word), waiting s m (.tqPush c l p d.val q slot limit r v) →
    ∃ u, exec (.tokenQueuePush m) s = .next u ∧
      tqOf u d q = (if (tqOf s d q).length < 16 then tqOf s d q ++ [v] else tqOf s d q) ∧
      answered s u limit c l [.pred p (decide ((tqOf s d q).length < 16))]) ∧
  (∀ (m : Nat) (s : State) (c l p dst q slot limit r : Nat) (d : Fin 4), waiting s m (.tqPop c l p dst d.val q slot limit r) →
    ∃ u, exec (.tokenQueuePop m) s = .next u ∧ tqOf u d q = (tqOf s d q).tail ∧
      answered s u limit c l [.scalar dst ((tqOf s d q).headD 0), .pred p (!(tqOf s d q).isEmpty)])

/-- 10 R200 to R205, 12 R255, R257: a barrier's arrival sets the core's bit and tells its wait the generation, and the last one starts the
next generation and resumes the waiters; the resume of a generation ends the wait on it, frozen or not, and gives its status, and no other
wait; the named cores of one FUSE resume fused; the members of a gang resume when the last has rejoined, and the core that its gang has left
alone on its own; a FUSE or REJOIN of 65,536 cycles times out. -/
def Obligations.GroupEvents : Prop :=
  (∀ (m : Nat) (s : State) (c n : Nat) (g : Group), waiting s m (.arrive c n) → Table.get s.groups n = some g →
    ({ g with arrived := g.arrived ||| (1#256 <<< c) } : Group).complete = false →
    ∃ u, exec (.barrierArrival m) s = .next u ∧ Table.get u.groups n = some { g with arrived := g.arrived ||| (1#256 <<< c) } ∧
      (∀ o, o ≠ n → Table.get u.groups o = Table.get s.groups o) ∧ (u.core (coreId c)).waits = (s.core (coreId c)).waits.map (toldGen n g.gen) ∧
      ∀ o, o ≠ coreId c → u.core o = s.core o) ∧
  (∀ (m : Nat) (s : State) (c n : Nat) (g : Group), waiting s m (.arrive c n) → Table.get s.groups n = some g → c < 256 →
    ({ g with arrived := g.arrived ||| (1#256 <<< c) } : Group).complete = true →
    ∃ u, exec (.barrierArrival m) s = .next u ∧
      Table.get u.groups n = some { g with arrived := 0, gen := g.gen + 1, status := decide (g.members &&& g.departed = 0) } ∧
      (u.core (coreId c)).waits = (s.core (coreId c)).waits.map (toldGen n g.gen) ∧
      ∀ o, o < 256 → (g.arrived ||| (1#256 <<< c)).getLsbD o = true →
        ∃ y ∈ u.msgs, y.body = .resume o n g.gen (decide (g.members &&& g.departed = 0)) ∧ s.clock < y.at_ ∧ y.at_ ≤ s.clock + 150) ∧
  (∀ (m : Nat) (s : State) (c n p slot : Nat) (st : Bool) (gen : BitVec 32), waiting s m (.resume c n gen st) →
    (s.core (coreId c)).seq.mode = .barrier n p (some gen) slot →
    ∃ u, exec (.barrierResume m) s = .next u ∧ (u.core (coreId c)).seq.mode = (s.core (coreId c)).seq.next.headD .running ∧
      (u.core (coreId c)).seq.next = (s.core (coreId c)).seq.next.tail ∧
      (0 < p → p < 8 → (p < 4 ∨ (s.core (coreId c)).rpl = false) → (u.core (coreId c)).pred p = st) ∧ onlyCore s u (coreId c)) ∧
  (∀ (m : Nat) (s : State) (c n p slot : Nat) (st : Bool) (gen : BitVec 32), waiting s m (.resume c n gen st) →
    (s.core (coreId c)).seq.mode.suspends = true → (s.core (coreId c)).seq.resume = .barrier n p (some gen) slot →
    ∃ u, exec (.barrierResume m) s = .next u ∧ (u.core (coreId c)).seq.mode = (s.core (coreId c)).seq.mode ∧
      (u.core (coreId c)).seq.resume = (s.core (coreId c)).seq.next.headD .running ∧
      (0 < p → p < 8 → (p < 4 ∨ (s.core (coreId c)).rpl = false) → (u.core (coreId c)).pred p = st) ∧ onlyCore s u (coreId c)) ∧
  (∀ (m : Nat) (s : State) (c n : Nat) (st : Bool) (gen : BitVec 32), waiting s m (.resume c n gen st) →
    (∀ p slot, RunMode.barrier n p (some gen) slot ∉ (s.core (coreId c)).waits) →
    ∃ u, exec (.barrierResume m) s = .next u ∧ u = { s with msgs := u.msgs }) ∧
  (∀ (k : Fin 64) (mask : BitVec 4) (s : State), s.mismatched k = [] → mask ≠ 0 → s.allFused k mask = true →
    ∃ u, exec (.gangFuse k mask) s = .next u ∧ ∀ c ∈ maskCores k mask, (u.core c).gmask = mask.toNat ∧ (u.core c).gstate = 1 ∧
      ∀ t n, (s.core c).seq.mode = .fusing mask t n → (u.core c).seq.mode = (s.core c).seq.next.headD .running) ∧
  (∀ (c : Fin 256) (s : State) (mask : BitVec 4) (t n : Nat),
    ((s.core c).seq.mode = .fusing mask t n ∨ (s.core c).seq.mode = .rejoining t n) → s.since c.val t 65536 = true →
    ∃ u r, exec (.gangTimeout c) s = .next u ∧ (u.core c).seq.mode = (s.core c).seq.next.headD .running ∧
      (u.core c).seq.events = (s.core c).seq.events ++ [r] ∧ r.trap.cause = .gang ∧ r.trap.sub = 2 ∧ r.slot = BitVec.ofNat 3 n) ∧
  (∀ (k : Fin 64) (mask : BitVec 4) (s : State), mask ≠ 0 →
    (∀ c ∈ maskCores k mask, (s.core c).gmask = mask.toNat ∧ (s.core c).seq.next = [] ∧
      ∃ t n, (s.core c).seq.mode = .rejoining t n ∧ t < s.clock) →
    (∀ c ∈ clusterCores k, c ∉ maskCores k mask → (s.core c).gmask = 0) →
    ∃ u, exec (.gangRejoin k) s = .next u ∧ ∀ c ∈ maskCores k mask, (u.core c).gmask = mask.toNat ∧ (u.core c).gstate = 1 ∧
      (u.core c).seq.mode = .running) ∧
  (∀ (k : Fin 64) (c : Fin 256) (s : State) (t n : Nat), c ∈ clusterCores k → (∀ o ∈ clusterCores k, (s.core o).gmask = 0) →
    (s.core c).seq.mode = .rejoining t n → t < s.clock → (s.core c).seq.next = [] →
    ∃ u, exec (.gangRejoin k) s = .next u ∧ (u.core c).gmask = 0 ∧ (u.core c).gstate = 0 ∧ (u.core c).seq.mode = .running)

/-- 12 R242, R245, R261, 10 R215: the step of an RATOM on the bank's owner, or its violation when the owner runs another context; a probe
of another core's tag table; a future filled once, and a fill refused with its reason and nothing changed, with the requester answered.
That the RETIRED reason comes before the wrong kind where both hold (DEDUCED, log 21), and how the 200 cycles of R261 are parted between the
request and its answer (DEDUCED, log 5), are the model's choices. -/
def Obligations.RemoteEvents : Prop :=
  (∀ (m : Nat) (s : State) (c l ctx h d r slot limit a old n : Nat) (e : BitVec 256) (off v new : Word) (op : AtomOp) (w64 u : Bool)
    (pc : BitVec 13), waiting s m (.ratom c l ctx h e off op.code w64 u v new d r pc slot limit) → n = (if w64 then 8 else 4) →
    a = bankAddr (Ent.rbank e) (Ent.base e + off.toNat) → old = leNat ((s.core (coreId (Ent.rcore e))).sto.spad.readN a n) →
    v.toNat < 2 ^ (8 * n) → new.toNat < 2 ^ (8 * n) →
    (s.runsCtx (Ent.rcore e) ctx = true → ∃ t, exec (.ratomStep m) s = .next t ∧ answered s t limit c l [.scalar d (atomOld n u old)] ∧
      (t.core (coreId (Ent.rcore e))).sto.spad = (s.core (coreId (Ent.rcore e))).sto.spad.writeCells
        (cellsAt a n (atomStep op (8 * n) u old v.toNat new.toNat))) ∧
    (s.runsCtx (Ent.rcore e) ctx = false → ∃ t, exec (.ratomStep m) s = .next t ∧ (t.core (coreId c)).sys.viol = true ∧
      answered s t limit c l [.scalar d 0])) ∧
  (∀ (m : Nat) (s : State) (c l ctx target d qid limit : Nat) (key : Word), waiting s m (.probe c l ctx target key d qid limit) →
    ∃ t, exec (.remoteTagProbe m) s = .next t ∧ t.cores = s.cores ∧ answered s t limit c l
      [landWrite d qid (if s.runsCtx target ctx then tagLookup (s.core (coreId target)).sto.tags key else BitVec.ofInt 64 (-2))]) ∧
  (∀ (m : Nat) (s : State) (c ctx h id : Nat) (v : BitVec 32) (x : Ctx), waiting s m (.futFill c ctx h v id) →
    Table.get s.ctxs ctx = some x → Ent.space (x.entry h) ≠ 0 → Ent.kind (x.entry h) = 1 → Ent.state (x.entry h) = 0 →
    ∃ t y, exec (.futureFillApply m) s = .next t ∧ Table.get t.ctxs ctx = some y ∧ Ent.state (y.entry h) = 2 ∧
      Ent.auxw (y.entry h) = v.toNat ∧ (∀ g, g ≠ h → y.entry g = x.entry g) ∧
      ∃ z ∈ t.msgs, z.body = .futAnswer c none id ∧ z.at_ ≤ s.clock + 100) ∧
  (∀ (m : Nat) (s : State) (c ctx h id : Nat) (v : BitVec 32) (e : BitVec 256) (r : BitVec 4), waiting s m (.futFill c ctx h v id) →
    e = s.homeEntry ctx h → ((Ent.space e = 0 ∨ Ent.state e = 4) ∧ r = 1 ∨ Ent.space e ≠ 0 ∧ Ent.state e ≠ 4 ∧
      (Ent.kind e ≠ 1 ∧ r = 0 ∨ Ent.kind e = 1 ∧ Ent.state e ≠ 0 ∧ r = 2)) →
    ∃ t, exec (.futureFillApply m) s = .next t ∧ t.ctxs = s.ctxs ∧ t.cores = s.cores ∧
      ∃ z ∈ t.msgs, z.body = .futAnswer c (some r) id ∧ z.at_ ≤ s.clock + 100) ∧
  (∀ (m : Nat) (s : State) (c id : Nat) (r : Option (BitVec 4)), waiting s m (.futAnswer c r id) →
    exec (.futfillAnswer m) s = .next ((s.dropMsg m).onCore (coreId c) fun k => { k with seq := { k.seq with
      wait := k.seq.wait.map fun y => match y with | .futSent n _ _ => if n = id then .futAnswer n r else y | _ => y } }))

/-- 11 R227, R228: the end of a freeze for handles installs every missing entry, as the context's table resolves it, and the core goes on; the
one cycle after a late landing ends with the core as it was (14 R290), and a sleep that is over by then has ended;
a fill of 65,536 cycles is fatal.
03 R81, 14 R298, R299, 12 R249: a segment that has come, its bytes those of the kernel image in HBM, stands in its half of the instruction
memory, with bit 8 of its status set, and bit 9 when its checksum fails or a byte carries poison; the bytes that an SGSET waits for arrive at
their cycle, or once no row that holds them is under repair (22 R395). That a segment's bytes are read from HBM as it stands when the copy
lands is the model's reading. (DEDUCED, log 29) -/
def Obligations.FillAndSegmentArrival : Prop :=
  ((∀ (c : Fin 256) (s : State) (t u : Nat) (hs : List Nat), (s.core c).seq.mode = .filling t u hs → hs ≠ [] → hs.Nodup → hs.length ≤ 32 →
     u ≤ s.clock → (∀ h ∈ hs, s.tableStalled c h = false) → (∀ h ∈ hs, s.tablePoison c h = false) →
     ∃ v, exec (.handleFill c) s = .next v ∧ (v.core c).seq.mode = .running ∧
       (∀ h ∈ hs, Table.get (v.core c).sto.hcache h = some (s.tableEntry (s.core c) h)) ∧ onlyCore s v c) ∧
   (∀ (c : Fin 256) (s : State) (t u : Nat), (s.core c).seq.mode = .filling t u [] → u ≤ s.clock →
     (∀ w, (s.core c).seq.resume = .asleep w none → (s.cycle - w).toInt < 0) →
     exec (.handleFill c) s = .next (s.onCore c fun k => { k with seq := { k.seq with mode := k.seq.resume } })) ∧
   (∀ (c : Fin 256) (s : State) (t u : Nat) (w : Word), (s.core c).seq.mode = .filling t u [] → u ≤ s.clock →
     (s.core c).seq.resume = .asleep w none → 0 ≤ (s.cycle - w).toInt →
     exec (.handleFill c) s = .next (s.onCore c fun k => { k with seq := { k.seq with
       mode := k.seq.next.headD .running, next := k.seq.next.tail } })) ∧
   (∀ (c : Fin 256) (s : State) (t u h : Nat) (hs : List Nat), (s.core c).seq.mode = .filling t u (h :: hs) → s.since c.val t 65536 = true →
     (s.core c).settled = true → ∃ v, exec (.handleFillTimeout c) s = .next v ∧ (v.core c).isHalted = true ∧
       (v.core c).sys.cause.toNat % 256 = 66 ∧ (v.core c).sys.tval = BitVec.ofNat 64 h)) ∧
  ((∀ (c : Fin 256) (s : State) (n half t off len crc : Nat) (code : List Byte) (bad : Bool), s.inv →
     (s.core c).sto.seg.copy = some (n, half, t) → t ≤ s.clock → s.segmentStalled (s.core c) n = false →
     (off, len, half, crc) = segEntry (s.image (s.core c)) n → (code, bad) = s.segmentCode (s.core c) n →
     ∃ u, exec (.segmentCopyLand c) s = .next u ∧ onlyCore s u c ∧ (u.core c).sto.seg.copy = none ∧
       (∀ j, j < code.length → (u.core c).sto.imem.read (half * 4096 * 32 + j) = code.getD j 0) ∧
       (∀ a, (a < half * 4096 * 32 ∨ half * 4096 * 32 + code.length ≤ a) →
         (u.core c).sto.imem.read a = (s.core c).sto.imem.read a) ∧
       (u.core c).sto.seg.status = (s.core c).sto.seg.status ||| 0x100 |||
         (if bad = false ∧ (crc32c code).toNat = crc then 0 else 0x200) ∧
       (u.core c).regs = (s.core c).regs ∧ (u.core c).sto.spad = (s.core c).sto.spad) ∧
   (∀ (c : Fin 256) (s : State) (n off len half crc : Nat) (r : RunRec) (l : Launch) (bs : List Byte) (po : Option Nat),
     (off, len, half, crc) = segEntry (s.image (s.core c)) n → (s.core c).run = some r → Table.get s.launches r.launch = some l →
     Ent.space l.imageAt.e = 2 → s.hbmRead l.ctx (Ent.base l.imageAt.e + off) (32 * len) = .ok (bs, po) →
     s.segmentCode (s.core c) n = (bs, po.isSome)) ∧
   (∀ (c : Fin 256) (s : State), exec (.signTableReadArrival c) s = .next (s.onCore c fun k => { k with seq := { k.seq with
     wait := k.seq.wait.map fun w => match w with
       | .sgSent n t rows => if t ≤ s.clock ∧ rows.all (fun r => !s.rowStalled r) then .sgArrived n else w
       | _ => w } })))

/-- 21 R368, R369: TRAP_ENTRY of a core whose trap waited for its pending writes, once they have landed: CAUSE, TVAL and EPC record it and
fetch goes to the handler in system mode; a core that runs takes its first pending event at the bundle boundary.
03 R80, 14 R288, R289, R290: a sleep ends once CYCLE has reached its wake value, with missed promise pending if the promised command
has not completed, and what follows a kept promise follows its command's writes (13 R272); a landing result waits in its buffer slot; a freeze of 4,096 cycles of the die for a late one is fatal, and TVAL
and CAUSE name the bundle and the slot that the result is for. -/
def Obligations.CoreWaitEvents : Prop :=
  ((∀ (c : Fin 256) (s : State) (r : TrapReq), (s.core c).seq.mode = .trapping r → (s.core c).settled = true →
     (s.core c).sys.tvec.getLsbD 0 = true → (s.core c).live = false → r.trap.cause.fatal = false →
     ∃ u, exec (.trapEntry c) s = .next u ∧ (u.core c).sys.cause.toNat % 256 = r.trap.cause.code ∧ (u.core c).sys.tval = r.trap.tval ∧
       epcField (u.core c).sys.epc 0 13 = (s.core c).seq.pc.toNat ∧ (u.core c).sys.mode = true ∧ (u.core c).seq.mode = .running ∧
       (u.core c).seq.pc.toNat = (s.core c).sys.tvec.toNat / 2 % 8192 ∧ (u.core c).regs.s = (s.core c).regs.s ∧
       (u.core c).vec = (s.core c).vec ∧ ∀ o, o ≠ c → u.core o = s.core o) ∧
   (∀ (c : Fin 256) (s : State) (r : TrapReq), (s.core c).seq.mode = .running → (s.core c).settled = true → (s.core c).live = false →
     (s.core c).seq.wait = [] → (s.core c).sys.tvec.getLsbD 0 = true → (s.core c).nextEvent = some r → r.trap.cause.fatal = false →
     ∃ u, exec (.trapEntry c) s = .next u ∧ (u.core c).sys.cause.toNat % 256 = r.trap.cause.code ∧ (u.core c).sys.tval = r.trap.tval ∧
       (u.core c).seq.events = (s.core c).seq.events.erase r ∧ (u.core c).sys.mode = true ∧
       (u.core c).seq.pc.toNat = (s.core c).sys.tvec.toNat / 2 % 8192 ∧ ∀ o, o ≠ c → u.core o = s.core o)) ∧
  ((∀ (c : Fin 256) (s : State) (w : Word) (p : Option Nat), (s.core c).seq.mode = .asleep w p →
     ((s.cycle - w).toInt < 0 → exec (.sleepWake c) s = .next s) ∧
     (0 ≤ (s.cycle - w).toInt → (p.bind fun id => (s.core c).cmd id) = none →
       exec (.sleepWake c) s = .next (s.onCore c fun k => { k with
         seq := { k.seq with mode := k.seq.next.headD .running, next := k.seq.next.tail }
         sto := if p.isSome then { k.sto with engSeen := k.sto.storeSeq } else k.sto })) ∧
     (∀ cmd, 0 ≤ (s.cycle - w).toInt → (p.bind fun id => (s.core c).cmd id) = some cmd → (s.core c).live = true →
       ∃ u r, exec (.sleepWake c) s = .next u ∧ (u.core c).seq.mode = (s.core c).seq.next.headD .running ∧
         (u.core c).seq.events = (s.core c).seq.events ++ [r] ∧ r.trap.cause = .missedPromise) ∧
     (∀ cmd, 0 ≤ (s.cycle - w).toInt → (p.bind fun id => (s.core c).cmd id) = some cmd → (s.core c).live = false →
       (s.core c).seq.events = [] → (s.core c).seq.wait = [] → (s.core c).settled = true → (s.core c).sys.tvec.getLsbD 0 = true →
       ∃ u, exec (.sleepWake c) s = .next u ∧ (u.core c).sys.cause.toNat % 256 = 96 ∧ (u.core c).sys.mode = true ∧
         (u.core c).seq.mode = .running ∧ (u.core c).seq.pc.toNat = (s.core c).sys.tvec.toNat / 2 % 8192)) ∧
   (∀ (m : Nat) (s : State) (n l : Nat) (ws : List Write), waiting s m (.landed n l ws) →
     (∀ t, (s.core (coreId n)).seq.mode ≠ .frozen t) →
     exec (.landingArrival m) s = .next ((s.dropMsg m).onCore (coreId n) fun k => { k with seq := { k.seq with
       landings := k.seq.landings.map fun x => if x.id = l then { x with arrived := some ws } else x } })) ∧
   (∀ (c : Fin 256) (s : State) (t : Nat), (s.core c).seq.mode = .frozen t → s.since c.val t 4096 = true → (s.core c).seq.pend = [] →
     (∀ l ∈ (s.core c).seq.landings, l.due ≤ (s.core c).seq.rn ∧ l.arrived = none) →
     ∃ u, exec (.landingWatchdog c) s = .next u ∧ (u.core c).isHalted = true ∧ (u.core c).sys.cause.toNat % 256 = 39 ∧
       (u.core c).seq.landings = [] ∧ ∀ l r, (s.core c).seq.landings = l :: r →
         (u.core c).sys.tval = l.pc.setWidth 64 ∧ (u.core c).sys.cause.toNat / 2 ^ 8 % 8 = l.slot % 8))

/-- 08 R164, R169, 09 R183, R185: a face without a lease grants one to the first core that its search from the last grant on meets, for
the count that it asked for and 65,536 cycles, and an MLEASE completes with the grant, while a restarted command starts with it (21 R372); a lease expires by time; expired or freed, it ends
once none of its holder's matrix commands runs, and the MFREE that waits completes; an MRUN consumes its A tile at its cycle. -/
def Obligations.LeaseEvents : Prop :=
  (∀ (f : Fin 64) (s : State) (r : LeaseReq) (pre post : List LeaseReq), (s.faces[f]).lease = none → (s.faces[f]).testing = none →
    (s.faces[f]).endedAt ≠ some s.clock → (s.faces[f]).waiting = pre ++ r :: post → (∀ x ∈ (s.faces[f]).waiting, x.k < 4) →
    (∀ x ∈ pre, searchRank (s.faces[f]).lastGrant r.k < searchRank (s.faces[f]).lastGrant x.k) →
    (∀ x ∈ post, searchRank (s.faces[f]).lastGrant r.k ≤ searchRank (s.faces[f]).lastGrant x.k) →
    ∀ l : Lease, l = {
        k := r.k
        mask := BitVec.ofNat 4 (if (s.core (coreId (4 * f.val + r.k))).gmask = 0 then 2 ^ r.k else (s.core (coreId (4 * f.val + r.k))).gmask)
        left := r.n, expiry := s.later (4 * f.val) 65536, expired := false, freed := false } →
    ((∀ cmd, r.cmd = some cmd.id → (s.core (coreId (4 * f.val + r.who))).cmd cmd.id = some cmd → cmd.op.toNat = 0x40) →
      ∃ u, exec (.faceLeaseGrant f) s = .next u ∧ (u.faces[f]).lease = some l ∧
        (u.faces[f]).lastGrant = some r.k ∧ (u.faces[f]).waiting = pre ++ post ∧ (∀ g, g ≠ f → u.faces[g] = s.faces[g]) ∧
        ∀ cmd, r.cmd = some cmd.id → (s.core (coreId (4 * f.val + r.who))).cmd cmd.id = some cmd →
          gone (u.core (coreId (4 * f.val + r.who))) cmd.id) ∧
    ∀ cmd, r.cmd = some cmd.id → (s.core (coreId (4 * f.val + r.who))).cmd cmd.id = some cmd → cmd.op.toNat ≠ 0x40 →
      exec (.faceLeaseGrant f) s =
        .next (((s.onFace f fun x => { x with lease := some l, lastGrant := some r.k, waiting := pre ++ post }).onCmd
          (coreId (4 * f.val + r.who)) cmd.id fun y => { y with prog := { y.prog with leaseReq := none } }).startHead
            (coreId (4 * f.val + r.who)) 1)) ∧
  (∀ (f : Fin 64) (s : State) (l : Lease), (s.faces[f]).lease = some l →
    ∃ u, exec (.leaseExpiry f) s = .next u ∧
      (u.faces[f]).lease = some (if l.expiry ≤ s.clock then { l with expired := true } else l) ∧
      (∀ g, g ≠ f → u.faces[g] = s.faces[g]) ∧ u.cores = s.cores) ∧
  (∀ (f : Fin 64) (s : State) (l : Lease), (s.faces[f]).lease = some l → (l.expired || l.freed) = true →
    (∀ c ∈ clusterCores f, l.mask.getLsbD (c.val % 4) = true → ∀ x ∈ (s.core c).started, x.isMatrix = false) →
    ∃ u, exec (.leaseEnd f) s = .next u ∧ (u.faces[f]).lease = none ∧ (u.faces[f]).endedAt = some s.clock ∧
      ∀ c ∈ clusterCores f, l.mask.getLsbD (c.val % 4) = true → ∀ x ∈ (u.core c).started, x.op.toNat ≠ 0x41) ∧
  (∀ (c : Fin 256) (n t : Nat) (s : State) (cmd : Cmd),
    ((s.core c).eng.queues.getD 1 []).find? (fun x => decide (x.id = n)) = some cmd → cmd.op.toNat = 0x43 → cmd.prog.tile = [] →
    cmd.prog.start = some t → t + stretch (s.dies[dieOf c.val].step) (mrunTiming cmd).1 ≤ s.clock →
    ∃ (u : State) (y : Cmd), exec (.aTileConsumed c n) s = .next u ∧ y ∈ (u.core c).eng.queues.getD 1 [] ∧ y.id = n ∧
      y.prog.consumed = true ∧
      y.prog.tile = (readTile cmd (struckRd cmd.prog.struck (s.engRd c cmd.ctx cmd.cap.epoch localSpace 32 cmd.cap.ha false))
        (s.engRd c cmd.ctx cmd.cap.epoch localSpace 32 cmd.cap.fa.sh false)).1 ∧
      u.dies = (if cmd.cf.getLsbD 1 && !cmd.prog.consumed then released s cmd else s.dies))

/-- 14 R281 to R284, 16 R329, R330: a command whose conditions hold starts: it counts from this cycle, pops its tokens unless it has started
before, and is due when its duration has passed, a stream command at the earliest; a matrix command counts against the lease, or without one
takes the lease trap into its queue's fault slot, or waits for it behind an earlier fault (21 R371); a
command that is due completes: it leaves its queue, gives its outcome word and increments its release flag, and has left in the accumulator,
the plane, the memories, the rings and the score what its rule says. That a second fault waits for the slot (DEDUCED, log 20), and that the
due cycle of a stream command is open beyond its unloaded one (DEDUCED, log 5), are the model's choices. -/
def Obligations.EngineEvents : Prop :=
  (∀ (c : Fin 256) (q : Fin 3) (s : State) (cmd : Cmd), (s.core c).head q.val = some cmd → s.startStep c q.val cmd = .begin →
    cmd.op.toNat ∈ [0x43, 0x44, 0x45, 0x46, 0x4C, 0x4E] →
    ∃ (u : State) (y : Cmd), exec (.engineCommandStart c q) s = .next u ∧ y ∈ (u.core c).eng.queues.getD q.val [] ∧ y.id = cmd.id ∧
      y.prog.start = some s.clock ∧ y.prog.begun = true ∧
      (∃ n, y.prog.due = some (s.clock + stretch (s.dies[dieOf c.val].step) (s.duration c { cmd with cap := s.freshCap cmd }) + n) ∧
        (cmd.op.toNat ∈ [0x43, 0x44, 0x45, 0x46] → n = 0)) ∧
      (u.core c).eng.lastStart.getD q.val 0 = s.clock ∧
      (∀ i, i < 4 → (u.core c).eng.tokens.getD i 0 = (s.core c).eng.tokens.getD i 0 -
        if cmd.prog.begun then 0 else (cmd.pops.filter fun j => decide (j = i)).length) ∧
      (u.core c).regs = (s.core c).regs ∧ (u.core c).vec = (s.core c).vec ∧ (u.core c).sto = (s.core c).sto ∧
      (cmd.isMatrix = true → ∀ l, (s.faces[clusterOf c.val]).lease = some l →
        (u.faces[clusterOf c.val]).lease = some { l with left := l.left - 1, expired := decide (l.left ≤ 1) })) ∧
  (∀ (c : Fin 256) (s : State) (cmd : Cmd), (s.core c).head 1 = some cmd → cmd.queue = 1 → cmd.isMatrix = true →
    s.leaseLive c = false → cmd.prog.leaseReq = none → (∀ r ∈ (s.faces[clusterOf c.val]).waiting, r.cmd ≠ none) →
    (s.core c).away = false → (s.core c).eng.leaseLeft = 0 → cmd.prog.acq.out s.clock = false → (s.core c).behind cmd.after cmd.afterSys = false →
    (cmd.cap.epoch.own = 0 ∨ cmd.readsOwn = false ∨ cmd.prog.hold.isSome = true) → (∀ t, cmd.prog.hold = some t → t ≤ s.clock) →
    (s.core c).tokensOk cmd = true → s.resourcesFree c cmd = true →
    (s.core c).eng.lastStart.getD 1 0 < s.clock → (∀ h ∈ cmd.sources, Ent.kind h.e = 0) → (s.core c).run.isSome = true → cmd.prog.pending = none →
    ∃ (u : State) (y : Cmd) (r : TrapReq), exec (.engineCommandStart c 1) s = .next u ∧
      y.id = cmd.id ∧ y.prog.start = none ∧ y.prog.commit = cmd.prog.commit ∧ r.commit = 0 ∧ r.spec = 0 ∧
      r.trap.cause = .lease ∧ r.trap.tval = BitVec.ofNat 64 (cmd.op.toNat + cmd.pc.toNat * 128) ∧ r.eng = true ∧ r.queue = 1 ∧
      (∀ o, o ≠ c → u.core o = s.core o) ∧
      ((s.core c).eng.fault.getD 1 none = none → (u.core c).eng.fault.getD 1 none = some y ∧ gone (u.core c) cmd.id ∧
        (u.core c).seq.events = (s.core c).seq.events ++ [r]) ∧
      ((s.core c).eng.fault.getD 1 none ≠ none → (u.core c).eng.fault = (s.core c).eng.fault ∧ y ∈ (u.core c).eng.queues.getD 1 [] ∧
        y.prog.pending = some r ∧ y.prog.waiting = true ∧ (u.core c).seq.events = (s.core c).seq.events)) ∧
  (∀ (c : Fin 256) (q : Fin 3) (n : Nat) (s : State) (cmd : Cmd), Due s c q.val n cmd → cmd.op.toNat ∈ [0x40, 0x41, 0x51, 0x54, 0x55] →
    ∃ u, exec (.engineCommandComplete c q n) s = .next u ∧ gone (u.core c) n ∧ u.dies = released s cmd ∧
      (∀ k id, cmd.rq = some (k, id) → k < 8 → (u.core c).regs.q.getD k [] = ((s.core c).regs.q.getD k []).map fun e =>
        if e.id = id then { e with val := some cmd.prog.outcome, tag := none } else e) ∧
      (cmd.rq = none → (u.core c).regs = (s.core c).regs) ∧ (u.core c).sto = (s.core c).sto ∧ (u.core c).vec = (s.core c).vec ∧
      ∀ o, o ≠ c → u.core o = s.core o) ∧
  (∀ (c : Fin 256) (n : Nat) (s : State) (cmd : Cmd), Due s c 1 n cmd → cmd.op.toNat = 0x45 →
    ∃ u, exec (.engineCommandComplete c 1 n) s = .next u ∧ gone (u.core c) n ∧ u.dies = released s cmd ∧
      (∀ r, r < 64 → (u.core c).sto.acc.getD r {} =
        if descRow0 cmd.cap.x ≤ r ∧ r < descRow0 cmd.cap.x + descM cmd.cap.x then
          { (s.core c).sto.acc.getD r {} with bits := 0, poison := 0 } else (s.core c).sto.acc.getD r {}) ∧
      (u.core c).sto.spad = (s.core c).sto.spad ∧ (u.core c).regs.s = (s.core c).regs.s) ∧
  Spec.MldwEffect ∧ Spec.MrunEffect ∧ Spec.MdrainEffect ∧ Spec.MassayEffect ∧ Spec.CopyEffect ∧ Spec.RingEffects ∧ Spec.FetchEffect

/-- 14 R294 to R296, 16 R341, R342, R348, R350, 13 R276, R279, 24 R417: a packet that fits is placed whole: its header, payload and padding stand
from data offset WRTOT mod C on, past the end of the ring at data offset 0, WRTOT and LASTSEQ move on, every byte outside the ring stays, and
the last packet ends its subscription with RSTAT 3; one that is too long is refused, with RSTAT 2, ERR 1, its length and number, and a violation; a
list's record is read again until it is valid, once no row of it is under repair (22 R395); HREBIND moves a weight handle to its page, or is refused as a violation; a copy that has
written to the host or to peers is due once its flushing read and its last acknowledgement have come, PUBLISH in order with its value in
host memory; an inbound write inside its window is placed,
one past its end is refused whole, answered with an error, and logged against the context; without verified firmware none is placed or answered
(24 R418) (that a refused packet's peer receives an error
answer, and when, is the model's choice: DESIGN CHOICE, log 33). -/
def Obligations.StreamEvents : Prop :=
  (∀ (c : Fin 256) (n : Nat) (s : State) (x : Sub) (k : Packet) (m p t : Nat), s.inv →
    (s.core c).eng.subs.find? (fun x => decide (x.id = n)) = some x → s.canPlace c x = true → x.endReq = false → m = ringSize x.ring.e →
    m % 16 = 0 → 64 ≤ m → Ent.space x.ring.e = 1 → ringShut x.ring = none → (∀ y ∈ (s.core c).eng.subs, y.id = n → y = x) →
    (s.nextLength c x ≤ m - 16 → k = (if x.list then (s.listPacket c x).1 else (s.tilePacket c x).1) → p = x.wrtot.toNat % m →
      t = 16 + 16 * ((k.payload.length + 15) / 16) →
      ∃ u, exec (.packetPlace c n) s = .next u ∧ u.dies = released s x.cmd ∧
        (∀ i, i < t → (u.core c).sto.spad.read (localAddr x.ring.e (64 + (p + i) % m)) = packetByte k x.stream.toNat m p i) ∧
        (∀ i, i < 8 → (u.core c).sto.spad.read (localAddr x.ring.e i) = BitVec.ofNat 8 ((x.wrtot + BitVec.ofNat 64 t).toNat / 256 ^ i)) ∧
        (∀ i, i < 4 → (u.core c).sto.spad.read (localAddr x.ring.e (16 + i)) = BitVec.ofNat 8 (k.seq / 256 ^ i)) ∧
        (∀ a, (∀ o, o < Ent.len x.ring.e → localAddr x.ring.e o ≠ a) → (u.core c).sto.spad.read a = (s.core c).sto.spad.read a) ∧
        (k.fin = true → (u.core c).sto.spad.read (localAddr x.ring.e 20) = 3 ∧ ∀ y ∈ (u.core c).eng.subs, y.id ≠ n) ∧
        (k.fin = false → (u.core c).sto.spad.read (localAddr x.ring.e 20) = (s.core c).sto.spad.read (localAddr x.ring.e 20) ∧
          ∃ y ∈ (u.core c).eng.subs, y.id = n ∧ y.next = x.next + 1 ∧ y.wrtot = x.wrtot + BitVec.ofNat 64 t ∧ y.suspended = false)) ∧
    (m - 16 < s.nextLength c x →
      ∃ u, exec (.packetPlace c n) s = .next u ∧ u.dies = released s x.cmd ∧
        (x.ring.h ∉ x.logged → (u.core c).sys.viol = true) ∧
        (∃ y ∈ (u.core c).eng.subs, y.id = n ∧ y.suspended = true ∧ y.wrtot = x.wrtot ∧ y.next = x.next) ∧
        (u.core c).sto.spad.read (localAddr x.ring.e 20) = 2 ∧ (u.core c).sto.spad.read (localAddr x.ring.e 21) = 1 ∧
        (∀ i, i < 4 → (u.core c).sto.spad.read (localAddr x.ring.e (24 + i)) = BitVec.ofNat 8 (s.nextLength c x / 256 ^ i) ∧
          (u.core c).sto.spad.read (localAddr x.ring.e (28 + i)) =
            BitVec.ofNat 8 ((if x.list then x.seq0.toNat + x.next else x.next) / 256 ^ i)) ∧
        ∀ a, (∀ o, o < 32 → 20 ≤ o → localAddr x.ring.e o ≠ a) → (u.core c).sto.spad.read a = (s.core c).sto.spad.read a)) ∧
  (∀ (c : Fin 256) (n : Nat) (s : State) (x : Sub), (s.core c).eng.subs.find? (fun x => decide (x.id = n)) = some x → x.list = true →
    x.ready = false → x.suspended = false → x.at_ ≤ s.clock → (s.core c).stored = false → (∀ y ∈ (s.core c).eng.subs, y.id = n → y = x) →
    ((s.recordRows x).any s.rowStalled = true → exec (.listRecordReread c n) s = .next s) ∧
    ((s.recordRows x).any s.rowStalled = false →
      ∃ u, exec (.listRecordReread c n) s = .next u ∧ ∀ y ∈ (u.core c).eng.subs, y.id = n → y.next = x.next ∧
        (y.ready = true ↔ (s.listRecord c x).valid = true) ∧ ((s.listRecord c x).valid = false → y.at_ ≤ s.clock + 1024))) ∧
  (∀ (m cn : Nat) (s : State) (cmd : Cmd) (x : Ctx), waiting s m (.hrebind cn cmd.id) → (s.core (coreId cn)).cmd cmd.id = some cmd →
    Table.get s.ctxs cmd.ctx = some x → cmd.cap.x.toNat < 2 ^ 32 →
    (Ent.kind (x.entry cmd.cap.ha.h) = 2 → Ent.state (x.entry cmd.cap.ha.h) ≠ 4 →
      x.rebindOk (x.entry cmd.cap.ha.h) cmd.cap.x.toNat = true →
      ∃ u y, exec (.hrebindApply m) s = .next u ∧ Table.get u.ctxs cmd.ctx = some y ∧
        Ent.auxw (y.entry cmd.cap.ha.h) = cmd.cap.x.toNat ∧
        (∀ g, g ≠ cmd.cap.ha.h → y.entry g = x.entry g) ∧ gone (u.core (coreId cn)) cmd.id) ∧
    ((Ent.kind (x.entry cmd.cap.ha.h) ≠ 2 ∨ Ent.state (x.entry cmd.cap.ha.h) = 4 ∨
        x.rebindOk (x.entry cmd.cap.ha.h) cmd.cap.x.toNat = false) → ∃ u y, exec (.hrebindApply m) s = .next u ∧ Table.get u.ctxs cmd.ctx = some y ∧
      y.handles = x.handles ∧ y.vlogCount = x.vlogCount + 1 ∧ (u.core (coreId cn)).sys.viol = true ∧
      gone (u.core (coreId cn)) cmd.id)) ∧
  (∀ (m cn : Nat) (s : State) (cmd : Cmd), waiting s m (.flush cn cmd.id) → (s.core (coreId cn)).cmd cmd.id = some cmd →
    (cmd.isCopy = true → cmd.prog.consumed = true → (∀ q, now (s.core (coreId cn)) q cmd.id fun y => y = cmd) →
      (∀ p ∈ s.netOut, p.core = (coreId cn).val → p.cmd ≠ cmd.id) →
      ∃ u, exec (.hostFlushReadComplete m) s = .next u ∧ (∀ q, now (u.core (coreId cn)) q cmd.id fun y => y.prog.due = some s.clock) ∧
        (∀ x ∈ (u.core (coreId cn)).eng.sysOut, x.cmd ≠ cmd.id) ∧ u.dies = s.dies ∧ u.host = s.host) ∧
    (cmd.op.toNat ≠ 0x55 → (∀ q, now (s.core (coreId cn)) q cmd.id fun y => y = cmd) →
      (∃ p ∈ s.netOut, p.core = (coreId cn).val ∧ p.cmd = cmd.id) →
      ∃ u, exec (.hostFlushReadComplete m) s = .next u ∧ (∀ q, now (u.core (coreId cn)) q cmd.id fun y => y = cmd) ∧
        ∀ x ∈ (u.core (coreId cn)).eng.sysOut, x.cmd = cmd.id → x.flush = false) ∧
    (∀ x, cmd.op.toNat = 0x55 → Table.get s.ctxs cmd.ctx = some x → x.written + 1 ≠ cmd.prog.outcome.toNat →
      ∃ u, exec (.hostFlushReadComplete m) s = .next u ∧ waiting u m (.flush cn cmd.id) ∧ u = { s with msgs := u.msgs }) ∧
    (∀ x, s.inv → cmd.op.toNat = 0x55 → Table.get s.ctxs cmd.ctx = some x → x.written + 1 = cmd.prog.outcome.toNat →
      ∃ u y, exec (.hostFlushReadComplete m) s = .next u ∧ (∀ q, now (u.core (coreId cn)) q cmd.id fun y => y.prog.due = some s.clock) ∧
        Table.get u.ctxs cmd.ctx = some y ∧ y.written = x.written + 1 ∧ u.dies = s.dies ∧
        WrittenAt s.host u.host 8 (fun i => x.d 0x18 8 + i) (fun i => BitVec.ofNat 8 (cmd.prog.outcome.toNat / 256 ^ i)))) ∧
  (∀ (m cn : Nat) (s : State) (cmd : Cmd) (p : NetOut), waiting s m (.netAck cn cmd.id) → (s.core (coreId cn)).cmd cmd.id = some cmd →
    cn < 256 → cmd.isCopy = true → cmd.prog.consumed = true → (∀ q, now (s.core (coreId cn)) q cmd.id fun y => y = cmd) →
    (∀ x ∈ (s.core (coreId cn)).eng.sysOut, x.cmd = cmd.id → x.flush = false) →
    (s.netOut.filter fun p => decide (p.core = cn) && decide (p.cmd = cmd.id)) = [p] →
    ∃ u, exec (.netAckReceive m) s = .next u ∧ (∀ q, now (u.core (coreId cn)) q cmd.id fun y => y.prog.due = some s.clock) ∧
      (∀ x ∈ (u.core (coreId cn)).eng.sysOut, x.cmd ≠ cmd.id) ∧ u.dies = s.dies ∧
      u.netOut = s.netOut.filter fun p => !(decide (p.core = cn) && decide (p.cmd = cmd.id))) ∧
  (∀ (x window : Fin 64) (offset : Nat) (bytes : List Byte) (s : State) (c : Ctx) (w : Window), window.val ≠ 63 →
    s.fwOk = true → Table.get s.ctxs x.val = some c → Table.get c.netWin window.val = some w → w.rx ≠ 0 →
    (∀ f, s.inv → offset + bytes.length ≤ w.len → Places c (w.rx + offset) bytes.length true f →
      ∃ u, exec (.netPacketReceive x window offset bytes) s = .next u ∧
        WrittenAt s.hbm u.hbm bytes.length f (fun i => bytes.getD i 0) ∧ u.cores = s.cores ∧ u.ctxs = s.ctxs ∧
        u.netAnswers = s.netAnswers ++ [(x.val, true)]) ∧
    (w.len < offset + bytes.length → ∃ u y, exec (.netPacketReceive x window offset bytes) s = .next u ∧ u.hbm = s.hbm ∧
      u.cores = s.cores ∧ Table.get u.ctxs x.val = some y ∧ y.vlogCount = c.vlogCount + 1 ∧ u.netAnswers = s.netAnswers ++ [(x.val, false)])) ∧
  (∀ (x window : Fin 64) (offset : Nat) (bytes : List Byte) (s : State), s.fwOk = false →
    exec (.netPacketReceive x window offset bytes) s = .next s)

/-- 15 R304, R308, R309, R310, R313, R314: a fetch request takes a place in its die's queue of 256, or waits; the queue's head
starts a staging fetch of 4,200 cycles and the object's bytes, of the page that its handle then names, into the lowest free slot, and asks for nothing that a slot holds; its end
leaves the object's bytes in the slot, which is FULL; a selection counts one outcome in the command's word; refreshes and wear leave
their counts in the stack's record. Which block proves bad, and the wear, are the outside event's values: that they enter so is the model's
choice (DESIGN CHOICE, log 6). -/
def Obligations.FlashEvents : Prop :=
  (∀ (m : Nat) (d : Fin 4) (s : State) (r : FetchReq), waiting s m (.fetchReq d.val r) →
    ((s.dies[d]).fetch.length < 256 → ∃ u, exec (.fetchRequest m) s = .next u ∧ (u.dies[d]).fetch = (s.dies[d]).fetch ++ [r] ∧
      u.msg m = none ∧ ∀ c n q, r.cmd = some (c, n) → now (u.core (coreId c)) q n fun y => y.prog.outcome = 1) ∧
    (256 ≤ (s.dies[d]).fetch.length → ∃ u, exec (.fetchRequest m) s = .next u ∧ u.dies = s.dies ∧
      waiting u m (.fetchReq d.val r) ∧ ∀ y ∈ u.msgs, y.id = m → y.at_ = s.clock + 1)) ∧
  (∀ (d : Fin 4) (s : State) (r : FetchReq) (x : Ctx) (o : Obj) (i : Nat), (s.dies[d]).fetch = [r] → Table.get s.ctxs r.ctx = some x →
    x.object (s.fetchPage r) = some o → o.page = s.fetchPage r → x.slotOf (s.fetchPage r) = none →
    x.slots.findIdx? (fun sl => decide (sl.state = .free)) = some i →
    ∃ u y sl, exec (.fetchQueueServe d) s = .next u ∧ (u.dies[d]).fetch = [] ∧ Table.get u.ctxs r.ctx = some y ∧
      y.slots[i]? = some sl ∧ sl.state = .inflight ∧ sl.page = s.fetchPage r ∧
      sl.due = some (s.clock + 4200 + (o.len + 1023) / 1024) ∧ ∀ j, j ≠ i → y.slots[j]? = x.slots[j]?) ∧
  (∀ (d : Fin 4) (s : State) (r : FetchReq) (x : Ctx) (o : Obj) (i : Nat) (sl : Slot), (s.dies[d]).fetch = [r] →
    Table.get s.ctxs r.ctx = some x → x.object (s.fetchPage r) = some o → x.slotOf (s.fetchPage r) = some (i, sl) → sl.state ≠ .poison →
    ∃ u, exec (.fetchQueueServe d) s = .next u ∧ (u.dies[d]).fetch = [] ∧ u.ctxs = s.ctxs ∧ u.cores = s.cores) ∧
  (∀ (x : Fin 64) (i t : Nat) (s : State) (c : Ctx) (sl : Slot) (f : Nat → Nat), s.inv → Table.get s.ctxs x.val = some c →
    c.slots[i]? = some sl → sl.due = some t → t ≤ s.clock → Places c (c.d 0xE0 8 + i * c.d 0x28 8) sl.len false f →
    (∀ r ∈ c.slotRows i sl.len, s.rowStalled r = false) →
    ∃ u y, exec (.stagingFetchComplete x i) s = .next u ∧ Table.get u.ctxs x.val = some y ∧
      y.slots[i]? = some { sl with state := .full, lastUse := s.clock, due := none } ∧
      WrittenAt s.hbm u.hbm sl.len f fun k => c.flash.read (sl.from_ + k)) ∧
  (∀ (d : Fin 4) (s : State) (j : ProspJob) (r : List ProspJob) (cmd : Cmd) (h q : Nat), (s.dies[d]).prosp = j :: r → j.at_ ≤ s.clock →
    j.sel = [h] → (s.core (coreId j.core)).cmd j.cmd = some cmd → (∀ z, now (s.core (coreId j.core)) z j.cmd fun y => y = cmd) →
    ∃ u, exec (.prospectorSelection d) s = .next u ∧ (u.dies[d]).prosp = r ∧ now (u.core (coreId j.core)) q j.cmd fun y =>
      y.prog.due = some s.clock ∧ y.prog.outcome = cmd.prog.outcome + 1 + (1 <<<
        (if Ent.kind (s.nowEntry cmd h) ≠ 2 ∨ Ent.state (s.nowEntry cmd h) = 4 then 32 else if Ent.state (s.nowEntry cmd h) = 2 then 8
         else if Ent.state (s.nowEntry cmd h) = 1 then 16 else if 256 ≤ (s.dies[d]).fetch.length then 48 else 24))) ∧
  (∀ (k : Fin 8) (bad : BitVec 1) (s : State), ∃ u, exec (.readDisturbRefresh k bad) s = .next u ∧
    (u.hbfStacks[k]).refresh = (s.hbfStacks[k]).refresh + 1 ∧ (u.hbfStacks[k]).bad = (s.hbfStacks[k]).bad + bad.setWidth 32 ∧
    (∀ o, o ≠ k → u.hbfStacks[o] = s.hbfStacks[o]) ∧ u.cores = s.cores ∧ u.ctxs = s.ctxs) ∧
  (∀ (k : Fin 8) (mean top : BitVec 32) (n : Nat) (s : State), n ≤ (s.hbfStacks[k]).spare.toNat →
    ∃ u, exec (.wearLevelling k mean top n) s = .next u ∧ (u.hbfStacks[k]).meanPe = mean ∧ (u.hbfStacks[k]).maxPe = top ∧
      (u.hbfStacks[k]).bad = (s.hbfStacks[k]).bad + BitVec.ofNat 32 n ∧ (u.hbfStacks[k]).spare.toNat = (s.hbfStacks[k]).spare.toNat - n ∧
      (∀ o, o ≠ k → u.hbfStacks[o] = s.hbfStacks[o]) ∧ u.cores = s.cores ∧ u.ctxs = s.ctxs)

/-- 15 R319, R320, R327, R328, 16 R349: a DECJ whose turn has come is accepted by the unit with fewer jobs among those with a lane in service,
unit 0 on a tie; one whose descriptor read violated is due at once with code 19, and any other one with code 16 while both units are fenced; a
unit's lanes finish a chunk; a job without chunks left completes with its status word and makes room for the next. The model's choices
(DEDUCED, log 35): the job that a unit runs counts among its jobs; a chunk takes at most 4,096 cycles, which the spec leaves open; the job that
ends at once is due in its start cycle; the output of a job is written at its completion. -/
def Obligations.DecodeEvents : Prop :=
  (∀ (c : Fin 256) (s : State) (cmd : Cmd) (u : Fin 2), (s.core c).head 2 = some cmd → cmd.op.toNat = 0x54 →
    s.startStep c 2 cmd = .begin → cmd.cap.y ≠ 1 → 0 < s.lanes u.val →
    u = (if s.lanes 0 = 0 then 1 else if s.lanes 1 = 0 then 0 else if (s.units[1]).length < (s.units[0]).length then 1 else 0) → (s.units[u]).length < 32 → s.units[u] ≠ [] →
    ∃ t, exec (.decodeJobAccept c) s = .next t ∧ (t.units[u]).map (fun j => (j.core, j.cmd)) =
        (s.units[u]).map (fun j => (j.core, j.cmd)) ++ [(c.val, cmd.id)] ∧
      (∀ v, v ≠ u → t.units[v] = s.units[v]) ∧ (now (t.core c) 2 cmd.id fun y => y.prog.start = some s.clock) ∧
      (t.core c).eng.lastStart.getD 2 0 = s.clock) ∧
  (∀ (c : Fin 256) (s : State) (cmd : Cmd), (s.core c).head 2 = some cmd → cmd.op.toNat = 0x54 →
    s.startStep c 2 cmd = .begin → cmd.cap.y = 1 →
    ∃ t, exec (.decodeJobAccept c) s = .next t ∧ t.units = s.units ∧ (t.core c).eng.lastStart.getD 2 0 = s.clock ∧
      (t.core c).regs = (s.core c).regs ∧ now (t.core c) 2 cmd.id fun y => y.prog.start = some s.clock ∧ y.prog.due = some s.clock ∧
        y.prog.outcome = BitVec.ofNat 64 (19 * 2 ^ 32)) ∧
  (∀ (c : Fin 256) (s : State) (cmd : Cmd), (s.core c).head 2 = some cmd → cmd.op.toNat = 0x54 →
    s.startStep c 2 cmd = .begin → cmd.cap.y ≠ 1 → s.lanes 0 = 0 → s.lanes 1 = 0 →
    ∃ t, exec (.decodeJobAccept c) s = .next t ∧ t.units = s.units ∧ now (t.core c) 2 cmd.id fun y => y.prog.start = some s.clock ∧
      y.prog.due = some s.clock ∧ y.prog.outcome.toNat / 2 ^ 32 % 256 = 16) ∧
  (∀ (u : Fin 2) (s : State) (j : DecJob) (r : List DecJob), s.units[u] = j :: r → inLanes (s.lanes u.val) j.left ≠ [] →
    ∃ t k n, exec (.decodeChunkFinish u) s = .next t ∧ k ∈ inLanes (s.lanes u.val) j.left ∧ s.clock < n ∧ n ≤ s.clock + 4096 ∧
      t.units[u] = { j with left := j.left.filter (fun y => y.index ≠ k.index), at_ := n } :: r ∧ (∀ v, v ≠ u → t.units[v] = s.units[v]) ∧
      t.cores = s.cores) ∧
  (∀ (u : Fin 2) (s : State) (j : DecJob) (r : List DecJob) (x : Cmd), s.units[u] = j :: r → j.left = [] →
    (s.core (coreId j.core)).cmd j.cmd = some x →
    ∃ t, exec (.decodeJobComplete u) s = .next t ∧ gone (t.core (coreId j.core)) x.id ∧
      (t.units[u]).map (fun j => (j.core, j.cmd)) = r.map (fun j => (j.core, j.cmd)) ∧
      (∀ k n, x.rq = some (k, n) → k < 8 → (t.core (coreId j.core)).regs.q.getD k [] =
        ((s.core (coreId j.core)).regs.q.getD k []).map fun e => if e.id = n then { e with val := some j.status, tag := none } else e) ∧
      (s.inv → Ent.space x.cap.hb.e = 1 → (∀ i, i < j.out.length → ∃ b, s.engRd (coreId j.core) x.ctx x.cap.epoch decodeSpace 4 x.cap.hb true
          (jobField x.cap.ma 24 8 + i) 1 = .ok b) → ∀ i, i < j.out.length →
        (t.core (coreId j.core)).sto.spad.read (localAddr x.cap.hb.e (jobField x.cap.ma 24 8 + i)) = j.out.getD i 0))

/-- 01 R30, 24 R418 to R420, 22 R391: power-on reset leaves every core in its reset state and no context, and verifies the firmware; a cluster
idle for 1,024 cycles enters CLOCK, leaves it in 16 cycles, and RETAIN in 2,100; a thermal step holds from a frame boundary on; a counting
window halves the scores and unschedules no test. The model's choices at reset: what the host holds and the dead frames stay (DEDUCED, log
26); CYCLE, the faces, the dies and the vector registers have the values of State.reset (DESIGN CHOICE, log 2); the firmware, its key and
their check stand in Config (DEDUCED, log 39). -/
def Obligations.PowerEvents : Prop :=
  (∀ s : State, ∃ u, exec .powerOnReset s = .next u ∧ u.cores = State.reset.cores ∧ u.faces = State.reset.faces ∧
    u.dies = State.reset.dies ∧ u.ctxs = [] ∧ u.launches = [] ∧ u.groups = [] ∧ u.hbm = [] ∧ u.clock = 0 ∧ u.winShift = 30 ∧
    u.stay = BitVec.allOnes 64 ∧ u.host = s.host ∧ u.hostPoison = s.hostPoison ∧ u.dead = s.dead ∧ u.fwOk = firmwareOk) ∧
  (∀ (k : Fin 64) (s : State),
    (∀ t, s.power[k] = .run (some t) → s.since (4 * k.val) t 1024 = true → s.clusterIdle k = true →
      ∃ u, exec (.clusterClockGate k) s = .next u ∧ onlyPower s u k .clock) ∧
    (s.power[k] = .clock → s.stay.getLsbD k.val = false → s.wakeCause k = false →
      ∃ u, exec (.clusterClockGate k) s = .next u ∧ onlyPower s u k .retain) ∧
    (s.power[k] = .clock → s.wakeCause k = true →
      ∃ u, exec (.clusterClockWake k) s = .next u ∧ onlyPower s u k (.leavingClock (s.later (4 * k.val) 16))) ∧
    (∀ t, s.power[k] = .leavingClock t → t ≤ s.clock →
      ∃ u, exec (.clusterClockWake k) s = .next u ∧ onlyPower s u k (.run none)) ∧
    (s.power[k] = .retain → (s.stay.getLsbD k.val = true ∨ ∃ b ∈ (s.dies[dieOf (4 * k.val)]).binds, b.core / 4 = k.val) →
      ∃ u, exec (.retainWakeHandshake k) s = .next u ∧ onlyPower s u k (.leavingRetain (s.later (4 * k.val) 2100))) ∧
    (∀ t, s.power[k] = .leavingRetain t → t ≤ s.clock →
      ∃ u, exec (.retainWakeHandshake k) s = .next u ∧ onlyPower s u k (.run none))) ∧
  (∀ (d : Fin 4) (v : BitVec 2) (s : State),
    (s.clock % 128 ≠ 0 → ∃ u, exec (.thermalStepChange d v) s = .next u ∧ (u.dies[d]).newStep = some v ∧
      (u.dies[d]).step = (s.dies[d]).step ∧ u.thermChg = s.thermChg) ∧
    (s.clock % 128 = 0 → ∃ u, exec (.thermalStepChange d v) s = .next u ∧ (u.dies[d]).newStep = none ∧ (u.dies[d]).step = v ∧
      u.thermChg = (if (s.dies[d]).step = v then s.thermChg else s.thermChg + 1) ∧ ∀ e, e ≠ d → u.dies[e] = s.dies[e])) ∧
  (∀ (d : Fin 4) (h : BitVec 1) (s : State), ∃ u, exec (.throttleThresholdCrossing d h) s = .next u ∧
    (u.dies[d]).hot = decide (h = 1) ∧ (u.dies[d]).step = (s.dies[d]).step ∧ u.cores = s.cores ∧ ∀ e, e ≠ d → u.dies[e] = s.dies[e]) ∧
  (∀ s : State, s.newShift = none →
    (s.clock % 2 ^ s.winShift = 0 → ∃ u, exec .countingWindowBoundary s = .next u ∧
      (∀ c, (u.core c).suspicion = (s.core c).suspicion >>> 1 ∧ (u.core c).testDue = (s.core c).testDue ∧ (u.core c).regs = (s.core c).regs) ∧
      (∀ k : Fin 64, (u.faces[k]).suspicion = (s.faces[k]).suspicion >>> 1 ∧ (u.faces[k]).lease = (s.faces[k]).lease) ∧
      ∀ h : Fin 8, (u.hbfStacks[h]).prev = (s.hbfStacks[h]).curr ∧ (u.hbfStacks[h]).curr = 0) ∧
    (s.clock % 2 ^ s.winShift ≠ 0 → exec .countingWindowBoundary s = .next s))

/-- 11 R237, 22 R391 to R399: a repair step takes its pseudo-channel for at most 8,400 cycles and its end a spare of its kind; a
retirement that is called for sets RET and clears W, and its report follows within 2,048 cycles with an entry, a count and an event, once its log is not under repair (DEDUCED, log 23); a core
with a scheduled test is tested while idle: a pass clears the score, a failure quarantines the cluster, which then leaves the count of
clusters. -/
def Obligations.RepairEvents : Prop :=
  (∀ (k : Fin 12) (p : Fin 32) (res : Fin 3) (unit len : Nat) (s : State), Table.get (s.hbmStacks[k]).steps p.val = none → len ≤ 8400 →
    (res.val, p.val, unit) ∈ (s.hbmStacks[k]).wants →
    ∃ u, exec (.repairStepStart k p res unit len) s = .next u ∧
      Table.get (u.hbmStacks[k]).steps p.val = some (res.val, unit, s.clock + len) ∧
      ∀ o, o ≠ k → u.hbmStacks[o] = s.hbmStacks[o]) ∧
  (∀ (k : Fin 12) (p : Fin 32) (res unit t : Nat) (s : State), Table.get (s.hbmStacks[k]).steps p.val = some (res, unit, t) →
    t ≤ s.clock → ∃ u, exec (.repairStepEnd k p) s = .next u ∧ Table.get (u.hbmStacks[k]).steps p.val = none ∧
      (res = 0 → (u.hbmStacks[k]).rows = (s.hbmStacks[k]).rows - 1 ∧ (u.hbmStacks[k]).lanes = (s.hbmStacks[k]).lanes) ∧
      (res = 2 → (u.hbmStacks[k]).lanes = (s.hbmStacks[k]).lanes - 1 ∧ (u.hbmStacks[k]).rows = (s.hbmStacks[k]).rows) ∧
      ∀ o, o ≠ k → u.hbmStacks[o] = s.hbmStacks[o]) ∧
  (∀ (x : Fin 64) (va : BitVec 40) (res : BitVec 2) (k : Fin 12) (s : State) (c : Ctx) (e : BitVec 64), Table.get s.ctxs x.val = some c →
    e = c.page (va.toNat / 2 ^ 21) → e.getLsbD 0 = true → e.getLsbD 2 = false → c.owned (va.toNat / 2 ^ 21) = false →
    (res = 3 ∨ ∃ y ∈ s.cuts, y.of x va res k 0 = true ∧ y.ripe s.clock = true) →
    ∃ u y r, exec (.retirementCut x va res k 0) s = .next u ∧ Table.get u.ctxs x.val = some y ∧
      y.page (va.toNat / 2 ^ 21) = ((e ||| 4) &&& ~~~2) ∧ (∀ p, p ≠ va.toNat / 2 ^ 21 → y.page p = c.page p) ∧
      y.retired = c.retired ++ [r] ∧ r.va.toNat = va.toNat / 2 ^ 21 * 2 ^ 21 ∧ r.res = res ∧ r.stack = k.val ∧ r.core = 255 ∧
      r.unit = 255 ∧ r.pc = 0 ∧ s.clock < r.at_ ∧ r.at_ ≤ s.clock + 2048 ∧ e.toNat / 2 ^ 21 % 2 ^ 19 ∈ u.dead ∧ u.hbm = s.hbm ∧
      u.cuts = s.cuts.filter fun y => !(y.of x va res k 0 && y.ripe s.clock)) ∧
  (∀ (x : Fin 64) (va : BitVec 40) (res : BitVec 2) (k : Fin 12) (n : Nat) (s : State), res ≠ 3 →
    (∀ y ∈ s.cuts, (y.of x va res k n && y.ripe s.clock) = false) →
    ∃ u, exec (.retirementCut x va res k n) s = .next u ∧ u.ctxs = s.ctxs ∧ u.dead = s.dead ∧ u.cuts = s.cuts) ∧
  (∀ (x : Fin 64) (s : State) (c : Ctx) (r : Retired) (rest : List Retired) (f : Nat → Nat) (n : Nat), s.inv → Table.get s.ctxs x.val = some c →
    c.retired = r :: rest → r.at_ ≤ s.clock → s.vaStalled c (c.d 0xD8 8) = false → Places c (c.d 0xD8 8) 2112 false f →
    n = leNat ((List.range 8).map fun i => s.hbm.read (f i)) →
    ∃ u y, exec (.retirementReport x) s = .next u ∧ Table.get u.ctxs x.val = some y ∧ y.retired = rest ∧
      (∀ i, i < 32 → u.hbm.read (f (64 + 32 * (n % 64) + i)) = r.bytes.getD i 0) ∧
      (∀ i, i < 8 → u.hbm.read (f i) = BitVec.ofNat 8 ((n + 1) / 256 ^ i)) ∧
      y.hold = c.hold ++ [⟨0, 34, 0, BitVec.ofNat 8 r.core, 0, r.va.setWidth 64, r.res.setWidth 64, none, false⟩]) ∧
  (∀ (x : Fin 64) (s : State) (c : Ctx), Table.get s.ctxs x.val = some c → s.vaStalled c (c.d 0xD8 8) = true →
    exec (.retirementReport x) s = .next s) ∧
  (∀ (c : Fin 256) (u : Fin 320) (s : State), u.val = c.val →
    ((s.core c).testDue = true → (s.core c).testing = none → (s.core c).seq.mode = .halted → (s.core c).run = none →
      exec (.targetedTestStart u) s = .next (s.onCore c fun k => { k with testing := some s.clock, testDue := false })) ∧
    (∀ b, (s.core c).testing = some b →
      exec (.targetedTestEnd u 1) s = .next (s.onCore c fun k => { k with testing := none, suspicion := 0 }) ∧
      ∃ t, exec (.targetedTestEnd u 0) s = .next t ∧ (t.core c).testing = none ∧ (t.core c).suspicion = (s.core c).suspicion ∧
        (t.faces[clusterOf c.val]).quarantined = true ∧ ∀ p : Fin 2, ((t.faces[clusterOf c.val]).planes[p]).valid = false)) ∧
  (∀ (k : Fin 64) (s : State), (s.faces[k]).quarantined = true → s.clusterFree k = true →
    ∃ u, exec (.clusterFence k) s = .next u ∧ u = { s with clusters := u.clusters } ∧ u.clusters.getLsbD k.val = false ∧
      ∀ o, o < 64 → o ≠ k.val → u.clusters.getLsbD o = s.clusters.getLsbD o)

/-- 10 R197, R217, R218, 21 R374 to R376, 24 R410: a START record starts its task with all that the table of R197 gives: entry, arguments, user
mode, cleared registers, queues, predicates, masks, tensor maps, sign registers and declared vectors, VSHAPE, the delta table, FPSTAT and the
trap registers, and SRKEY, ROLE and SYNCWIN of the launch; everything else is as the launch left it there or, for the first record, prepared
it; a pre-emption request is honoured at an honour point by the whole gang; a drained core is saved, and its record waits with its context; a
RESUME puts back what R376 lists and nothing else; a frame's slots latch the queues with an entry, and slot 16 binds a ready record to its
idle core. The model's choices: what a later record of a launch finds on a core that another launch has used, that the save area holds the core
as it stood, and what of it a restore takes (DEDUCED, log 25); that a save and a restore end once no row of their area is under repair (DEDUCED,
log 23); the cycle, within 119 of slot 16, by which its bind is carried out (DEDUCED, log 30). -/
def Obligations.RecordEvents : Prop :=
  (∀ (c : Fin 256) (s : State) (b : Bind) (id : Nat) (t : TaskRec) (l : Launch) (k : Core), Binds s c b → b.act = .start id → s.free? c = true →
    (s.dies[dieOf c.val]).tasks.find? (fun t => decide (t.id = id)) = some t → Table.get s.launches t.launch = some l →
    (t.state = .first c.val ∧ k = s.prepare c l ∨ t.state = .ready ∧ (s.core c).lastLaunch = some t.launch ∧ k = s.core c ∨
      t.state = .ready ∧ (s.core c).lastLaunch ≠ some t.launch ∧ Table.get l.kept c.val = some k) →
    ∃ u, exec (.start c) s = .next u ∧ (u.core c).seq.pc.toNat = recField t.record 0 2 % 8192 ∧ (u.core c).sys.mode = false ∧
      (∀ i, i < 4 → (u.core c).sreg (1 + i) = BitVec.ofNat 64 (recField t.record (0x18 + 8 * i) 8)) ∧
      (u.core c).sreg 5 = BitVec.ofNat 64 (recField t.record 8 4) ∧ (u.core c).sreg 6 = BitVec.ofNat 64 (recField t.record 7 1) ∧
      (∀ r, 6 < r → r < 24 → (u.core c).sreg r = 0) ∧ (∀ q, (u.core c).regs.q.getD q [] = []) ∧ (∀ n, 0 < n → (u.core c).pred n = false) ∧
      (u.core c).seq.loops = [] ∧ (u.core c).seq.mode = .running ∧ (u.core c).seq.entryRegion = true ∧
      (u.core c).vec.vshape = 0xC04010 ∧
      (u.core c).vec.k = Vector.replicate 8 0 ∧ (u.core c).vec.tm = Vector.replicate 16 0 ∧ (u.core c).vec.sg = Vector.replicate 8 0 ∧
      (∀ i : Fin 16, (u.core c).vec.v[i] = if hdr l.image 0x0A 2 / 2 ^ i.val % 2 = 1 then {} else k.vec.v[i]) ∧
      (u.core c).seq.delta = Vector.replicate 64 0x700000000 ∧
      (u.core c).sys.pmode = false ∧ (u.core c).sys.viol = false ∧ (u.core c).sys.cause = 0 ∧ (u.core c).sys.epc = 0 ∧
      (u.core c).sys.tval = 0 ∧ (u.core c).sys.fpstat = 0 ∧ (u.core c).sys.srkey = l.srkey ∧ (u.core c).sys.role = l.role c.val ∧
      (u.core c).sys.syncwin = l.syncwin ∧ (u.core c).sys.tvec = k.sys.tvec ∧ (u.core c).sys.accstat = k.sys.accstat ∧
      (u.core c).sys.hostord = k.sys.hostord ∧ (u.core c).sys.bankfmt = k.sys.bankfmt ∧
      (u.core c).seq.landings = [] ∧ (u.core c).seq.events = [] ∧ (u.core c).eng.subs = k.eng.subs ∧
      (u.core c).sto.spad = k.sto.spad ∧ (u.core c).sto.poison = k.sto.poison ∧ (u.core c).sto.imem = k.sto.imem ∧
      (u.core c).sto.acc = k.sto.acc ∧
      (∀ x ∈ (u.dies[dieOf c.val]).tasks, x.id ≠ id) ∧ (u.dies[dieOf c.val]).binds = (s.dies[dieOf c.val]).binds.erase b ∧
      ∀ o, o ≠ c → u.core o = s.core o) ∧
  (∀ (c : Fin 256) (s : State) (b : Bind), Binds s c b → b.act = .preempt →
    ∃ u, exec (.preempt c) s = .next u ∧ (∀ x ∈ (s.core c).gang c, (u.core x).seq.preempt = (s.core x).run.isSome) ∧
      (u.dies[dieOf c.val]).binds = (s.dies[dieOf c.val]).binds.erase b) ∧
  (∀ (c : Fin 256) (s : State),
    (s.honourNow c = true → (∀ n, (s.core c).seq.mode ≠ .saving n) → ∃ u, exec (.preemptHonour c) s = .next u ∧
      ∀ x ∈ (s.core c).gang c, (u.core x).seq.mode = .saving none ∧ (u.core x).regs = (s.core x).regs ∧ (u.core x).sto = (s.core x).sto) ∧
    ((s.core c).seq.mode = .saving none → (s.core c).settled = true → (s.core c).started = [] → (s.core c).copying = false →
      ∃ u n, exec (.preemptHonour c) s = .next u ∧ (u.core c).seq.mode = .saving (some n) ∧ s.clock + 1200 ≤ n) ∧
    (∀ (t : Nat) (r : RunRec), (s.core c).seq.mode = .saving (some t) → t ≤ s.clock → s.areaStalled c = false → (s.core c).run = some r →
      ∃ u x l k, exec (.preemptHonour c) s = .next u ∧ (u.dies[dieOf c.val]).tasks = x :: l ∧ l = (s.dies[dieOf c.val]).tasks ∧
        x.launch = r.launch ∧ x.record = r.record ∧ x.state = .preempted c.val ∧ x.saved = some k ∧ k.regs = (s.core c).regs ∧
        k.vec = (s.core c).vec ∧ k.sys = (s.core c).sys ∧ k.sto = (s.core c).sto ∧ k.seq.mode = (s.core c).seq.resume ∧
        (u.core c).isHalted = true ∧ (u.core c).run = none)) ∧
  (∀ (c : Fin 256) (s : State) (b : Bind) (id : Nat) (t : TaskRec) (k : Core) (image : List Byte), (∀ n, (s.core c).seq.mode ≠ .restoring n) →
    Binds s c b → b.act = .resume id → s.free? c = true → (s.dies[dieOf c.val]).tasks.find? (fun t => decide (t.id = id)) = some t →
    t.saved = some k → image = s.image k → k.sto.spad.wf = true → (s.core c).sto.spad.wf = true →
    ∃ u n, exec (.resume c) s = .next u ∧ (u.core c).seq.mode = .restoring n ∧ s.clock + 1200 ≤ n ∧ (u.core c).seq.resume = k.seq.mode ∧
      (u.core c).regs = k.regs ∧ (u.core c).seq.pc = k.seq.pc ∧ (u.core c).seq.loops = k.seq.loops ∧ (u.core c).run = k.run ∧
      (∀ i : Fin 16, (u.core c).vec.v[i] = if hdr image 0x0A 2 / 2 ^ i.val % 2 = 1 then k.vec.v[i] else (s.core c).vec.v[i]) ∧
      (u.core c).vec = { k.vec with v := (u.core c).vec.v } ∧
      (k.live = true → (u.core c).sys = k.sys) ∧
      (k.live = false → (u.core c).live = false ∧
        (u.core c).sys = { k.sys with cause := (s.core c).sys.cause, epc := (u.core c).sys.epc, tval := (s.core c).sys.tval }) ∧
      (∀ a, (u.core c).sto.spad.read a =
        if a % 0x30000 < imgBank image (a / 0x30000) then k.sto.spad.read a else (s.core c).sto.spad.read a) ∧
      (u.core c).sto.acc = (if hdr image 0x05 1 % 2 = 1 then k.sto.acc else (s.core c).sto.acc) ∧ (u.core c).sto.tags = k.sto.tags ∧
      (k.sto.seg.landed = (none, none) → (u.core c).sto.ipoison = [] ∧
        (u.core c).sto.imem = Memory.writeN [] 0 ((image.drop 0x100).take (32 * hdr image 0x06 2))) ∧
      (u.core c).eng.queues = k.eng.queues ∧ (u.core c).eng.fault = k.eng.fault ∧ (u.core c).eng.tokens = k.eng.tokens) ∧
  (∀ (c : Fin 256) (s : State) (n : Nat), (s.core c).seq.mode = .restoring n → n ≤ s.clock → s.areaStalled c = false →
    ∃ u, exec (.resume c) s = .next u ∧ (u.core c).seq.mode = (s.core c).seq.resume ∧ (u.core c).regs = (s.core c).regs) ∧
  (∀ (s : State) (k : Nat), s.fwOk = true → s.clock % 128 = k → 0 < k → k < 16 → (∀ p ∈ s.ctxs, p.2.hold = []) →
    (∀ p ∈ s.ctxs, p.2.destroying = none) → ∃ u, exec .winderFrame s = .next u ∧ u.cores = s.cores ∧
      ∀ q, (u.queue q).pending = ((s.queue q).pending ||
        (decide (64 * k ≤ q ∧ q < 64 * k + 64) && decide ((s.queue q).pidx ≠ (s.queue q).cidx) && decide ((s.queue q).busy = 0)))) ∧
  (∀ (s : State) (d : Fin 4) (c : Fin 256) (t : TaskRec) (l : Launch), s.fwOk = true → s.clock % 128 = 16 →
    (∀ p ∈ s.ctxs, p.2.hold = []) → dieOf c.val = d → (s.dies[d]).tasks = [t] → t.state = .ready →
    (s.dies[d]).binds = [] → (s.dies[d]).asked = [] → (∀ e, e ≠ d → (s.dies[e]).tasks = []) → Table.get s.launches t.launch = some l →
    (Table.get s.ctxs l.ctx).isSome = true → (∀ n, n < 256 → l.cores.getLsbD n = decide (n = c.val)) → (s.core c).seq.mode = .halted →
    (s.core c).run = none → (s.core c).queuesEmpty = true → s.clusters.getLsbD (c.val / 4) = true → (s.core c).testDue = false →
    (s.core c).testing = none → (s.faces[clusterOf c.val]).quarantined = false →
    ∃ u w, exec .winderFrame s = .next u ∧ (u.dies[d]).binds = [⟨c.val, .start t.id, w⟩] ∧ s.clock < w ∧ w ≤ s.clock + 119) ∧
  (∀ s : State, 16 < s.clock % 128 → exec .winderFrame s = .next s)

/-- 10 R194 to R199, 15 R302, R303, 24 R410, R412 to R418: each host-queue entry that its rules accept takes effect and completes with
status 0; one that they refuse completes with its status and without effect: 1 for a bad kind, 2 for a denied one, 3 for a rejected one, 4
for one that finds no room, 5 while a launch finds no number, window or group. A queue whose context's ring is full gives no entry, and an
entry of a queue that no context owns has no effect. An entry that reaches a row under repair waits (which entries do is DEDUCED, log 23). The
model's other choices: the page list's form and the refused UNINSTALL of a model that a
handle names (DEDUCED, log 27), where the kernel image is read and the lowest group numbers (DEDUCED, log 29), the 57 cycles within which a
posted record is bound (DEDUCED, log 30), what a second destruction and a KILL answer and drop (DEDUCED, log 31), the 4,096 cycles within
which an XFER's last write reaches the host (DEDUCED, log 5), the frames that a context takes and status 4 where they are too few (DESIGN
CHOICE, log 7). -/
def Obligations.HostEntries : Prop :=
  (∀ (q : Fin 1024) (s : State) (k : EntryKind), s.entryKind q.val = k → (s.queue q.val).pending = true →
    (s.queueWaits q.val = true → entryRuns q s (.next (s.onQueue q.val fun h => { h with pending := false })) k) ∧
    (s.queueWaits q.val = false → s.owner q.val = none → k ≠ .contextCreate → k ≠ .contextDestroy →
      entryRuns q s (.next (popped s q)) k) ∧
    (s.queueWaits q.val = false → s.entryStalled q.val = true → entryRuns q s (.next s) k) ∧
    (∀ e ctx x, Entry s q k e ctx x → x.d 0x02 1 ≠ 0 → k = .contextCreate ∨ k = .contextDestroy →
      ∃ u, entryRuns q s (.next u) k ∧ completed s u q e ctx x 2 0 ∧ u.cores = s.cores ∧ u.host = s.host ∧
        ∀ n, (Table.get u.ctxs n).isSome = (Table.get s.ctxs n).isSome)) ∧
  (∀ (q : Fin 1024) (s : State) (k : EntryKind), s.entryKind q.val ≠ k ∨ (s.queue q.val).pending = false →
    entryRuns q s (.next s) k) ∧
  (∀ (q : Fin 1024) (s : State) (e : List Byte) (ctx : Nat) (x : Ctx), Entry s q .badkind e ctx x →
    ∃ u, exec (.badkindEntry q) s = .next u ∧ completed s u q e ctx x 1 0 ∧ u.cores = s.cores ∧ u.host = s.host) ∧
  (∀ (q : Fin 1024) (s : State) (e image : List Byte) (ctx n : Nat) (x : Ctx) (r : LaunchRec) (w : FlagWindow), Entry s q .launch e ctx x →
    r = launchRec (s.host.readN (hdr e 16 8) 256) →
    (∀ f, (popped s q).kernelImage ctx (x.entry r.imgh) = (none, { popped s q with free := f }) →
      ∃ u, exec (.launch q) s = .next u ∧ completed s u q e ctx x 3 0 ∧ u.launches = s.launches ∧ u.cores = s.cores ∧ u.dies = s.dies) ∧
    ∀ f, (popped s q).kernelImage ctx (x.entry r.imgh) = (some image, { popped s q with free := f }) →
    (s.launchOk ctx x r image (BitVec.ofNat 64 (hdr e 32 8)) = false →
      ∃ u, exec (.launch q) s = .next u ∧ completed s u q e ctx x 3 0 ∧ u.launches = s.launches ∧ u.cores = s.cores ∧ u.dies = s.dies) ∧
    (s.launchOk ctx x r image (BitVec.ofNat 64 (hdr e 32 8)) = true →
      (∀ m, m < 256 → (Table.get s.launches m).isSome = true) ∨
        s.launchWindow ctx x r image (((launchSet r.cores).head?.map fun c => c.val / 64).getD 0) = none ∨
        (s.freeGroups (hdr image 0x10 1)).length < hdr image 0x10 1 →
      ∃ u, exec (.launch q) s = .next u ∧ completed s u q e ctx x 5 0 ∧ u.launches = s.launches ∧ u.cores = s.cores ∧ u.dies = s.dies) ∧
    (s.launchOk ctx x r image (BitVec.ofNat 64 (hdr e 32 8)) = true → n < 256 → Table.get s.launches n = none →
      (∀ m, m < n → (Table.get s.launches m).isSome = true) →
      s.launchWindow ctx x r image (((launchSet r.cores).head?.map fun c => c.val / 64).getD 0) = some w →
      hdr image 0x10 1 ≤ (s.freeGroups (hdr image 0x10 1)).length →
      ∃ u l, exec (.launch q) s = .next u ∧ taken s u q ∧ Table.get u.launches n = some l ∧ l.ctx = ctx ∧ l.cores = r.cores ∧
        l.image = image ∧ l.srkey = r.srkey ∧ l.quota = r.quota ∧ l.tvec.toNat = hdr e 32 8 ∧ l.completed = false ∧ l.done = false ∧
        l.irq = decide (hdr e 1 1 % 2 = 1) ∧
        (∀ c : Fin 256, r.cores.getLsbD c.val = true →
          ∃ t ∈ (u.dies[dieOf c.val]).tasks, t.launch = n ∧ t.record = r.record ∧ t.state = .first c.val) ∧
        (∀ g i, (s.freeGroups (hdr image 0x10 1))[i]? = some g → ∃ y, Table.get u.groups g = some y ∧ y.ctx = ctx ∧
          y.members = r.gmem.getD i 0 ∧ y.arrived = 0 ∧ y.gen = 0))) ∧
  (∀ (q : Fin 1024) (s : State) (e : List Byte) (ctx : Nat) (x : Ctx), s.liveLaunch ctx (hdr e 4 1) = none →
    (Entry s q .post e ctx x → ∃ u, exec (.post q) s = .next u ∧ completed s u q e ctx x 3 0 ∧ u.dies = s.dies) ∧
    (Entry s q .kill e ctx x → ∃ u, exec (.kill q) s = .next u ∧ completed s u q e ctx x 3 0 ∧ u.cores = s.cores ∧ u.dies = s.dies)) ∧
  (∀ (q : Fin 1024) (s : State) (e : List Byte) (ctx : Nat) (x : Ctx) (l : Launch) (r : BitVec 512), Entry s q .post e ctx x →
    s.liveLaunch ctx (hdr e 4 1) = some l → r = BitVec.ofNat 512 (hdr e 64 64) →
    (recValid (hdr l.image 0x06 2) (s.handleKind ctx) r = false →
      ∃ u, exec (.post q) s = .next u ∧ completed s u q e ctx x 3 0 ∧ u.dies = s.dies) ∧
    (recValid (hdr l.image 0x06 2) (s.handleKind ctx) r = true → l.quota ≤ s.heldRecords (hdr e 4 1) →
      ∃ u, exec (.post q) s = .next u ∧ completed s u q e ctx x 4 0 ∧ u.dies = s.dies) ∧
    (recValid (hdr l.image 0x06 2) (s.handleKind ctx) r = true → s.heldRecords (hdr e 4 1) < l.quota →
      (s.dies[Fin.ofNat 4 l.home]).tasks.length < 16384 →
      ∃ u t, exec (.post q) s = .next u ∧ completed s u q e ctx x 0 0 ∧
        (u.dies[Fin.ofNat 4 l.home]).tasks = (s.dies[Fin.ofNat 4 l.home]).tasks ++ [t] ∧ t.launch = hdr e 4 1 ∧ t.record = r ∧
        t.by_ = some (s.clock + 57))) ∧
  (∀ (q : Fin 1024) (s : State) (e : List Byte) (ctx : Nat) (x : Ctx), Entry s q .release e ctx x →
    (∀ n, (s.core (coreId (hdr e 32 1))).seq.mode = .held n → s.runsCtx (coreId (hdr e 32 1)).val ctx = true →
      ∃ u, exec (.release q) s = .next u ∧ completed s u q e ctx x 0 0 ∧
        (u.core (coreId (hdr e 32 1))).seq.mode = (s.core (coreId (hdr e 32 1))).seq.next.headD .running ∧
        ∀ o, o ≠ coreId (hdr e 32 1) → u.core o = s.core o) ∧
    ((∀ n, (s.core (coreId (hdr e 32 1))).seq.mode ≠ .held n) ∨ s.runsCtx (coreId (hdr e 32 1)).val ctx = false →
      ∃ u, exec (.release q) s = .next u ∧ completed s u q e ctx x 3 0 ∧ u.cores = s.cores)) ∧
  (∀ (q : Fin 1024) (s : State) (e : List Byte) (ctx : Nat) (x : Ctx) (l : Launch), Entry s q .kill e ctx x →
    s.liveLaunch ctx (hdr e 4 1) = some l → ∃ u, exec (.kill q) s = .next u ∧ taken s u q ∧
      (∀ c ∈ launchSet l.cores, ∀ r, (s.core c).run = some r → r.launch = hdr e 4 1 →
        (u.core c).run = none ∧ (u.core c).isHalted = true) ∧
      ∀ d : Fin 4, ∀ t ∈ (u.dies[d]).tasks, t.launch ≠ hdr e 4 1) ∧
  (∀ (q : Fin 1024) (s : State) (e : List Byte) (ctx : Nat) (x : Ctx) (gone : List Model) (placed : List Obj) (image : List Byte) (at_ : Nat),
    Entry s q .install e ctx x → image = s.host.readN (hdr e 16 8) (hdr e 24 8) → modelOk x (s.signEntry ctx x) image = true →
    s.installPlan ctx x ((modelObjs image).map Prod.snd) = some (gone, placed) → at_ = hdr e 16 8 + hdr e 24 8 →
    ∃ u y m, exec (.install q) s = .next u ∧ completed s u q e ctx x 0 (BitVec.ofNat 64 at_) ∧ Table.get u.ctxs ctx = some y ∧
      y.models = (x.models.filter fun m => gone.all fun g => decide (m.id ≠ g.id)) ++ [m] ∧ m.id = BitVec.ofNat 64 (hdr image 0x18 8) ∧
      m.objs = placed ∧ m.digest = (image.drop 0x40).take 64 ∧
      WrittenAt s.host u.host (placed.flatMap fun (o : Obj) => natLe 4 o.page).length (fun i => at_ + i)
        (fun i => (placed.flatMap fun (o : Obj) => natLe 4 o.page).getD i 0)) ∧
  (∀ (q : Fin 1024) (s : State) (e : List Byte) (ctx : Nat) (x : Ctx) (image : List Byte), Entry s q .install e ctx x →
    image = s.host.readN (hdr e 16 8) (hdr e 24 8) →
    (modelOk x (s.signEntry ctx x) image = false → ∃ u, exec (.install q) s = .next u ∧ completed s u q e ctx x 3 0 ∧ u.host = s.host ∧
      u.hbm = s.hbm ∧ ∀ y, Table.get u.ctxs ctx = some y → y.models = x.models ∧ y.flash = x.flash) ∧
    (modelOk x (s.signEntry ctx x) image = true → s.installPlan ctx x ((modelObjs image).map Prod.snd) = none →
      ∃ u, exec (.install q) s = .next u ∧ completed s u q e ctx x 4 0 ∧ u.host = s.host ∧
        u.hbm = s.hbm ∧ ∀ y, Table.get u.ctxs ctx = some y → y.models = x.models ∧ y.flash = x.flash)) ∧
  (∀ (q : Fin 1024) (s : State) (e : List Byte) (ctx : Nat) (x : Ctx), Entry s q .uninstall e ctx x →
    x.models.find? (fun m => decide (m.id = BitVec.ofNat 64 (hdr e 32 8))) = none →
    ∃ u, exec (.uninstall q) s = .next u ∧ completed s u q e ctx x 3 0 ∧ u.cores = s.cores) ∧
  (∀ (q : Fin 1024) (s : State) (e : List Byte) (ctx : Nat) (x : Ctx) (m : Model), Entry s q .uninstall e ctx x →
    x.models.find? (fun m => decide (m.id = BitVec.ofNat 64 (hdr e 32 8))) = some m →
    (s.modelPinned ctx x m = true ∨ (∃ p ∈ x.handles, Ent.kind p.2 = 2 ∧ m.holds (Ent.auxw p.2) = true) →
      ∃ u, exec (.uninstall q) s = .next u ∧ completed s u q e ctx x 3 0 ∧ u.cores = s.cores) ∧
    (s.modelPinned ctx x m = false → (∀ p ∈ x.handles, Ent.kind p.2 = 2 → m.holds (Ent.auxw p.2) = false) →
      ∃ u y, exec (.uninstall q) s = .next u ∧ completed s u q e ctx x 0 0 ∧ Table.get u.ctxs ctx = some y ∧
        y.models = x.models.filter (fun n => decide (n.id ≠ m.id)) ∧
        ∀ (i : Nat) (sl : Slot), x.slots[i]? = some sl → y.slots[i]? = some (if sl.state ≠ .free ∧ m.holds sl.page = true then {} else sl))) ∧
  (∀ (q : Fin 1024) (s : State) (e : List Byte) (ctx : Nat) (x : Ctx), Entry s q .attest e ctx x →
    ∃ u, exec (.attest q) s = .next u ∧ completed s u q e ctx x 0 (BitVec.ofNat 64 (x.report ctx ((e.drop 64).take 64) (s.freeAt 0)).length) ∧
      WrittenAt s.host u.host (x.report ctx ((e.drop 64).take 64) (s.freeAt 0)).length (fun i => hdr e 16 8 + i)
        (fun i => (x.report ctx ((e.drop 64).take 64) (s.freeAt 0)).getD i 0) ∧ u.cores = s.cores) ∧
  (∀ (q : Fin 1024) (s : State) (e b : List Byte), s.inv → (s.queue q.val).pending = true →
    s.entryKind q.val = .contextCreate → (s.queue q.val).entry = e → (∀ n x, s.owner q.val = some (n, x) → x.d 0x02 1 = 0) →
    s.queueWaits q.val = false → b = s.host.readN (hdr e 16 8) 256 → (∀ phase, s.descOk (newCtx b phase) = true) →
    hdr b 0x24 4 * (hdr b 0x28 8 / 2 ^ 21) + 6 ≤ s.framesLeft →
    ∃ u y, exec (.contextCreate q) s = .next u ∧ taken s u q ∧ Table.get u.ctxs (hdr b 0 1) = some y ∧ y.desc = b ∧ y.handles = [] ∧
      y.models = [] ∧ y.slots = List.replicate (hdr b 0x24 4) {} ∧ y.written = 0 ∧ y.destroying = none ∧
      (∀ n, n ≠ hdr b 0 1 → (Table.get u.ctxs n).isSome = (Table.get s.ctxs n).isSome) ∧
      WrittenAt s.host u.host 8 (fun i => y.d 0x18 8 + i) (fun _ => 0) ∧ u.cores = s.cores) ∧
  (∀ (q : Fin 1024) (s : State) (e b : List Byte) (ctx : Nat) (x : Ctx), Entry s q .contextCreate e ctx x → x.d 0x02 1 = 0 →
    b = s.host.readN (hdr e 16 8) 256 →
    ((∀ phase, s.descOk (newCtx b phase) = false) → ∃ u, exec (.contextCreate q) s = .next u ∧ completed s u q e ctx x 3 0 ∧
      u.host = s.host ∧ u.hbm = s.hbm ∧ ∀ n, (Table.get u.ctxs n).isSome = (Table.get s.ctxs n).isSome) ∧
    ((∀ phase, s.descOk (newCtx b phase) = true) → s.framesLeft < hdr b 0x24 4 * (hdr b 0x28 8 / 2 ^ 21) + 6 →
      ∃ u, exec (.contextCreate q) s = .next u ∧ completed s u q e ctx x 4 0 ∧
        u.host = s.host ∧ u.hbm = s.hbm ∧ ∀ n, (Table.get u.ctxs n).isSome = (Table.get s.ctxs n).isSome)) ∧
  (∀ (q : Fin 1024) (s : State) (e : List Byte) (ctx : Nat) (x : Ctx), Entry s q .contextDestroy e ctx x → x.d 0x02 1 = 0 →
    Table.get s.ctxs (hdr (s.host.readN (hdr e 16 8) 256) 0 1) = none →
    ∃ u, exec (.contextDestroy q) s = .next u ∧ completed s u q e ctx x 3 0) ∧
  (∀ (q : Fin 1024) (s : State) (e b : List Byte) (ctx n : Nat) (x y : Ctx), Entry s q .contextDestroy e ctx x → x.d 0x02 1 = 0 →
    b = s.host.readN (hdr e 16 8) 256 → n = hdr b 0 1 → Table.get s.ctxs n = some y →
    (y.destroying = none → s.goneOk (newCtx b false) = true → ∃ u z, exec (.contextDestroy q) s = .next u ∧ taken s u q ∧ Table.get u.ctxs n = some z ∧
      z.destroying = some (some (entryDone q.val e 0 (hdr e 4 1) 0 0, q.val)) ∧ z.handles = y.handles) ∧
    (y.destroying.isSome = true ∨ s.goneOk (newCtx b false) = false →
      ∃ u, exec (.contextDestroy q) s = .next u ∧ completed s u q e ctx x 3 0 ∧
        ∀ z, Table.get u.ctxs n = some z → z.destroying = y.destroying)) ∧
  (∀ (q : Fin 1024) (s : State) (e b : List Byte) (ctx : Nat) (x : Ctx), Entry s q .window e ctx x → b = s.host.readN (hdr e 16 8) 32 →
    63 ≤ hdr b 1 1 ∨ 2 ≤ hdr b 2 1 ∨ zeros b 3 5 = false ∨ (hdr b 0 1 ≠ 5 ∧ hdr b 0 1 ≠ 6) ∨ (hdr b 0 1 = 5 ∧ zeros b 24 8 = false) ∨
      (hdr b 0 1 = 6 ∧ zeros b 15 1 = false) →
    ∃ u, exec (.window q) s = .next u ∧ completed s u q e ctx x 3 0 ∧
      ∀ y, Table.get u.ctxs ctx = some y → y.hostWin = x.hostWin ∧ y.netWin = x.netWin) ∧
  (∀ (q : Fin 1024) (s : State) (e b : List Byte) (ctx : Nat) (x : Ctx), Entry s q .window e ctx x → b = s.host.readN (hdr e 16 8) 32 →
    hdr b 1 1 < 63 → hdr b 2 1 < 2 → zeros b 3 5 = true →
    (hdr b 0 1 = 5 → zeros b 24 8 = true → ∃ u y, exec (.window q) s = .next u ∧ completed s u q e ctx x 0 0 ∧
      Table.get u.ctxs ctx = some y ∧ Table.get y.hostWin (hdr b 1 1) =
        some { w := decide (hdr b 2 1 = 1), base := BitVec.ofNat 64 (hdr b 8 8), len := hdr b 16 8, rx := 0, peer := 0 } ∧
      y.netWin = x.netWin) ∧
    (hdr b 0 1 = 6 → zeros b 15 1 = true → ∃ u y w, exec (.window q) s = .next u ∧ completed s u q e ctx x 0 0 ∧
      Table.get u.ctxs ctx = some y ∧ Table.get y.netWin (hdr b 1 1) = some w ∧ w.len = hdr b 16 8 ∧ w.rx = hdr b 24 8 ∧
      w.w = decide (hdr b 2 1 = 1) ∧ y.hostWin = x.hostWin)) ∧
  (∀ (q : Fin 1024) (s : State) (e b : List Byte) (ctx : Nat) (x : Ctx), Entry s q .map e ctx x → b = s.host.readN (hdr e 16 8) 32 →
    mapOk b = true → hdr b 12 1 = 1 → (∀ p ∈ mapPages b, ¬ ((x.page p).getLsbD 0 = true ∧ (x.page p).getLsbD 2 = false) ∧ x.owned p = false) →
    (x.mapped + (mapPages b).length) * 2 ^ 21 ≤ x.d 0x38 8 → (mapPages b).length ≤ s.framesLeft →
    ∃ u y, exec (.map q) s = .next u ∧ completed s u q e ctx x 0 0 ∧ Table.get u.ctxs ctx = some y ∧
      (∀ p ∈ mapPages b, (y.page p).getLsbD 0 = true ∧ (y.page p).getLsbD 1 = decide (hdr b 13 1 = 1) ∧ (y.page p).getLsbD 2 = false) ∧
      ∀ p, p ∉ mapPages b → y.page p = x.page p) ∧
  (∀ (q : Fin 1024) (s : State) (e b : List Byte) (ctx : Nat) (x : Ctx), Entry s q .map e ctx x → b = s.host.readN (hdr e 16 8) 32 →
    (mapOk b = false ∨ hdr b 12 1 ≠ 1 ∨
        (∃ p ∈ mapPages b, ((x.page p).getLsbD 0 = true ∧ (x.page p).getLsbD 2 = false) ∨ x.owned p = true) ∨
        x.d 0x38 8 < (x.mapped + (mapPages b).length) * 2 ^ 21 →
      ∃ u, exec (.map q) s = .next u ∧ completed s u q e ctx x 3 0 ∧ u.hbm = s.hbm ∧
        ∀ y, Table.get u.ctxs ctx = some y → y.l1 = x.l1 ∧ y.l2 = x.l2) ∧
    (mapOk b = true → hdr b 12 1 = 1 →
      (∀ p ∈ mapPages b, ¬ ((x.page p).getLsbD 0 = true ∧ (x.page p).getLsbD 2 = false) ∧ x.owned p = false) →
      (x.mapped + (mapPages b).length) * 2 ^ 21 ≤ x.d 0x38 8 → s.framesLeft < (mapPages b).length →
      ∃ u, exec (.map q) s = .next u ∧ completed s u q e ctx x 4 0 ∧ u.hbm = s.hbm ∧
        ∀ y, Table.get u.ctxs ctx = some y → y.l1 = x.l1 ∧ y.l2 = x.l2)) ∧
  (∀ (q : Fin 1024) (s : State) (e b : List Byte) (ctx : Nat) (x : Ctx), Entry s q .unmap e ctx x → b = s.host.readN (hdr e 16 8) 32 →
    mapOk b = false ∨ (∃ p ∈ mapPages b, (x.page p).getLsbD 0 = false ∨ x.owned p = true) →
    ∃ u, exec (.unmap q) s = .next u ∧ completed s u q e ctx x 3 0 ∧ ∀ y, Table.get u.ctxs ctx = some y → y.l1 = x.l1 ∧ y.l2 = x.l2) ∧
  (∀ (q : Fin 1024) (s : State) (e b : List Byte) (ctx : Nat) (x : Ctx), Entry s q .unmap e ctx x → b = s.host.readN (hdr e 16 8) 32 →
    mapOk b = true → (∀ p ∈ mapPages b, (x.page p).getLsbD 0 = true ∧ x.owned p = false) →
    ∃ u y, exec (.unmap q) s = .next u ∧ completed s u q e ctx x 0 0 ∧ Table.get u.ctxs ctx = some y ∧
      (∀ p ∈ mapPages b, y.page p = 0) ∧ ∀ p, p ∉ mapPages b → y.page p = x.page p) ∧
  (∀ (q : Fin 1024) (s : State) (e : List Byte) (ctx : Nat) (x : Ctx), hdr e 24 8 = 0 ∨ 2 ^ 32 < hdr e 24 8 →
    (Entry s q .xferToDevice e ctx x → ∃ u, exec (.xferToDevice q) s = .next u ∧ completed s u q e ctx x 3 0 ∧ u.hbm = s.hbm) ∧
    (Entry s q .xferToHost e ctx x → ∃ u, exec (.xferToHost q) s = .next u ∧ completed s u q e ctx x 3 0 ∧ u.host = s.host)) ∧
  (∀ (q : Fin 1024) (s : State) (e : List Byte) (ctx va n : Nat) (x : Ctx), va = hdr e 32 8 % 2 ^ 40 → n = hdr e 24 8 → 1 ≤ n →
    n ≤ 2 ^ 32 →
    (∀ f, Entry s q .xferToDevice e ctx x → Places x va n true f →
      ∃ u, exec (.xferToDevice q) s = .next u ∧ completed s u q e ctx x 0 0 ∧ WrittenAt s.hbm u.hbm n f (fun i => s.host.read (hdr e 16 8 + i)) ∧ u.host = s.host) ∧
    (∀ a r, Entry s q .xferToDevice e ctx x → a < n → x.translate (va + a) true = .error r →
      (∀ i, i < a → ∃ p, x.translate (va + i) true = .ok p) →
      ∃ u, exec (.xferToDevice q) s = .next u ∧ completed s u q e ctx x 3 (BitVec.ofNat 64 (va + a)) ∧ u.hbm = s.hbm) ∧
    (∀ a r, Entry s q .xferToHost e ctx x → a < n → x.translate (va + a) false = .error r →
      (∀ i, i < a → ∃ p, x.translate (va + i) false = .ok p) →
      ∃ u, exec (.xferToHost q) s = .next u ∧ completed s u q e ctx x 3 (BitVec.ofNat 64 (va + a)) ∧ u.host = s.host) ∧
    (∀ f, Entry s q .xferToHost e ctx x → Places x va n false f → ∃ u m, exec (.xferToHost q) s = .next u ∧ taken s u q ∧
      (u.queue q.val).busy = 1 ∧ WrittenAt s.host u.host n (fun i => hdr e 16 8 + i) (fun i => s.hbm.read (f i)) ∧ u.hbm = s.hbm ∧
      u.msgs = s.msgs ++ [m] ∧ s.clock < m.at_ ∧ m.at_ ≤ s.clock + 4096 ∧
      ((∀ i, i < n → f i / 32 ∉ s.hbmPoison) → m.body = .hostDone q.val ctx (entryDone q.val e 0 (hdr e 4 1) 0 0)) ∧
      ∀ a, a < n → f a / 32 ∈ s.hbmPoison → (∀ i, i < a → f i / 32 ∉ s.hbmPoison) →
        m.body = .hostDone q.val ctx (entryDone q.val e 7 (hdr e 4 1) (BitVec.ofNat 64 (va + a)) 0)))

/-- 24 R404 to R409, R411, R419: a doorbell within eight entries, written by the queue's owner or the physical function, sets the queue's
producer count; a write by a virtual function that does not own the queue or the launch is counted in WAKEERR; a task register puts a valid
record into its die's store; STAY is the physical function's; WINSHIFT takes a length from 26 to 34; WAKEERR clears what is written as one; a
register write is the write that its region and offset name. That bits which R407 and R419 give as zero are ignored is the model's choice
(DEDUCED, log 32). -/
def Obligations.RegisterWrites : Prop :=
  (∀ (src : Nat) (q : Fin 1024) (v : BitVec 64) (s : State), s.fwOk = true → src < 2 ^ 40 →
    (∀ ctx x, s.owner q.val = some (ctx, x) → src = 0 ∨ x.d 0x02 1 = src → (v.setWidth 32 - (s.queue q.val).cidx).toNat ≤ 8 →
      ∃ u, exec (.doorbell src q v) s = .next u ∧ (u.queue q.val).pidx = v.setWidth 32 ∧ (u.queue q.val).cidx = (s.queue q.val).cidx ∧
        (∀ p, p ≠ q.val → u.queue p = s.queue p) ∧ u.cores = s.cores ∧ u.wakeErr = s.wakeErr) ∧
    (0 < src → (∀ ctx x, s.owner q.val = some (ctx, x) → x.d 0x02 1 ≠ src) →
      ∃ u, exec (.doorbell src q v) s = .next u ∧ u = { s with wakeErr := s.wakeErr + 1 }) ∧
    (∀ ctx x, s.owner q.val = some (ctx, x) → src = 0 ∨ x.d 0x02 1 = src → 8 < (v.setWidth 32 - (s.queue q.val).cidx).toNat →
      ∃ u, exec (.doorbell src q v) s = .next u ∧ u.queues = s.queues)) ∧
  (∀ (src : Nat) (d : Fin 4) (n : Fin 256) (v : BitVec 64) (s : State) (l : Launch) (x : Ctx) (b : List Byte) (r : BitVec 512),
    s.fwOk = true → src < 2 ^ 40 → Table.get s.launches n.val = some l → l.completed = false → Table.get s.ctxs l.ctx = some x →
    src = 0 ∨ x.d 0x02 1 = src → v.toNat % 2 ^ 40 % 64 = 0 → s.hbmRead l.ctx (v.toNat % 2 ^ 40) 64 = .ok (b, none) →
    r = BitVec.ofNat 512 (leNat b) → recValid (hdr l.image 0x06 2) (s.handleKind l.ctx) r = true →
    (∃ c ∈ dieCores d, l.cores.getLsbD c.val = true) → s.heldRecords n.val < l.quota → (s.dies[d]).tasks.length < 16384 →
    ∃ u t, exec (.taskRegister src d n v) s = .next u ∧ (u.dies[d]).tasks = (s.dies[d]).tasks ++ [t] ∧ t.launch = n.val ∧ t.record = r ∧
      u.cores = s.cores) ∧
  (∀ (src : Nat) (d : Fin 4) (n : Fin 256) (v : BitVec 64) (s : State), s.fwOk = true → src < 2 ^ 40 →
    Table.get s.launches n.val = none ∨ (∃ l x, 0 < src ∧ Table.get s.launches n.val = some l ∧ l.completed = false ∧
      Table.get s.ctxs l.ctx = some x ∧ x.d 0x02 1 ≠ src) →
    exec (.taskRegister src d n v) s = .next { s with wakeErr := s.wakeErr + 1 }) ∧
  (∀ (src : Nat) (k : Fin 64) (v : BitVec 64) (s : State), s.fwOk = true →
    (src = 0 → ∃ u, exec (.clusterWakeRegister src k v) s = .next u ∧ u = { s with stay := u.stay } ∧
      ∀ o, o < 64 → u.stay.getLsbD o = if o = k.val then v.getLsbD 0 else s.stay.getLsbD o) ∧
    (0 < src → src < 2 ^ 40 → exec (.clusterWakeRegister src k v) s = .next { s with wakeErr := s.wakeErr + 1 })) ∧
  (∀ (v : BitVec 64) (s : State), s.fwOk = true →
    exec (.winshift v) s = .next (if 26 ≤ v.toNat % 64 ∧ v.toNat % 64 ≤ 34 then { s with newShift := some (v.toNat % 64) } else s) ∧
    exec (.wakeerr v) s = .next { s with wakeErr := s.wakeErr &&& ~~~v }) ∧
  (∀ (src : Nat) (bytes : List Byte) (s : State), bytes.length = 8 →
    (∀ q : Fin 1024, exec (.registerWrite src 2 (8 * q.val) bytes) s = exec (.doorbell src q (BitVec.ofNat 64 (leNat bytes))) s) ∧
    (∀ (d : Fin 4) (l : Fin 256), exec (.registerWrite src 2 (0x10000 + 0x1000 * d.val + 8 * l.val) bytes) s =
      exec (.taskRegister src d l (BitVec.ofNat 64 (leNat bytes))) s) ∧
    (∀ k : Fin 64, exec (.registerWrite src 2 (0x14000 + 8 * k.val) bytes) s =
      exec (.clusterWakeRegister src k (BitVec.ofNat 64 (leNat bytes))) s) ∧
    exec (.registerWrite 0 0 0x1008 bytes) s = exec (.winshift (BitVec.ofNat 64 (leNat bytes))) s ∧
    exec (.registerWrite 0 0 0x1010 bytes) s = exec (.wakeerr (BitVec.ofNat 64 (leNat bytes))) s) ∧
  (∀ (src off : Nat) (bytes : List Byte) (s : State), s.fwOk = true → src < 2 ^ 40 → off < 0x2000 → bytes.length ≠ 8 →
    exec (.registerWrite src 2 off bytes) s = .next { s with wakeErr := s.wakeErr + 1 })

/-- 01 R30: power-on reset leaves every core halted, with the registers, queues, bank formats and scratchpads that the table gives. -/
def Obligations.ResetState : Prop :=
  ∀ c : Fin 256, ∃ k, k = State.reset.core c ∧ k.status = 0x41 ∧ k.seq.mode = .halted ∧ k.seq.pc = 0 ∧ k.seq.loops = [] ∧ k.ldepth = 0 ∧
    (∀ n, k.sreg n = 0) ∧ (∀ j : Fin 8, k.regs.q[j] = []) ∧ (∀ n, 1 ≤ n → k.pred n = false) ∧
    k.sys.cause = 0 ∧ k.sys.epc = 0 ∧ k.sys.tval = 0 ∧ k.sys.tvec = 0 ∧ k.sys.fpstat = 0 ∧ k.sys.accstat = 0 ∧ k.sys.srkey = 0 ∧
    k.sys.role = 0 ∧ k.sys.syncwin = 0 ∧ k.sys.hostord = 0 ∧ (∀ b : Fin 16, k.sys.bankfmt[b] = 3#64 <<< 30) ∧
    (∀ a, k.sto.spad.read a = 0) ∧ k.sto.poison = [] ∧ ∀ pc n, k.slotWord pc n = 0

/-- 01 R10, R12, 02 R43: in its turn a running core whose bundle holds one instruction besides NOPs runs exactly that instruction; a bundle
of NOPs runs NOP, one of several instructions, or with a word that decodes to none, the passes of 02 R43 over its slots; an event in its turn is carried out by exec, and the
end of a cycle counts CYCLE on. The promises that the commands issued make are pushed at the end of the core's turn (14 R287). How a cycle is cut
into turns, one step for each, is the model's choice (DEDUCED, log 11). -/
def Obligations.StepRunsDecoded : Prop :=
  (∀ (s : State) (c : Fin 256) (r : List Act), s.agenda = .core c :: r → (s.core c).seq.mode = .running → s.lockstep c = [c] →
    (s.core c).fetchWaits = false →
    (∀ x, (s.core c).run = some x → (s.core c).seq.taskEntered = true ∨ (s.core c).seq.pc ≠ x.ker) →
    ∃ u, u = { s with agenda := r, cur := c, latch := {} } ∧
      (∀ (n : Nat) (i : Instr), n < 8 → i ≠ .nop →
        decodeSlot (slotClassOf n) ((s.core c).slotWord (s.core c).seq.pc.toNat n) = .ok i →
        (∀ m, m < 8 → m ≠ n → decodeSlot (slotClassOf m) ((s.core c).slotWord (s.core c).seq.pc.toNat m) = .ok .nop) →
        ∀ t, exec i { u with latch := { slot := n } } = .next t → step s = .next (t.releasePromises c)) ∧
      ((∀ m, m < 8 → decodeSlot (slotClassOf m) ((s.core c).slotWord (s.core c).seq.pc.toNat m) = .ok .nop) →
        ∀ t, exec .nop u = .next t → step s = .next (t.releasePromises c)) ∧
      ((2 ≤ ((s.core c).fetch (s.core c).seq.pc.toNat).length ∨ ∃ n e, (s.core c).fetch (s.core c).seq.pc.toNat = [(n, .error e)]) →
        step s = .next ((u.issue (State.slotPasses ((s.core c).fetch (s.core c).seq.pc.toNat))).releasePromises c))) ∧
  (∀ (s : State) (i : Instr) (r : List Act), s.agenda = .event i :: r → step s = exec i { s with agenda := r }) ∧
  ∀ (s : State) (r : List Act), s.agenda = .tick :: r →
    ∃ t, step s = .next t ∧ t.clock = s.clock + 1 ∧ t.agenda = r ∧ t.cores = s.cores ∧ t.msgs = s.msgs

/-- The words that the spec's examples encode (03, 09, 12, 16, 21) decode to the instructions they stand for. -/
def Obligations.DecodeWords : Prop :=
  decodeSlot .sa 0x020108C0 = .ok (.add always 1 1 3) ∧ decodeSlot .sa 0x68010832 = .ok (.cmpiGe always 1 1 50) ∧
  decodeSlot .sa 0x8A000114 = .ok (.loopi always 1 20) ∧ decodeSlot .sa 0x8E200000 = .ok (.lbrk { always with pred := 1 } 0) ∧
  decodeSlot .sa 0xAA000000 = .ok (.eret always) ∧ decodeSlot .sb 0xAA000000 = .error .illegal ∧
  decodeSlot .mem 0x20020509 = .ok (.atomAdd always 2 5 1 0 1) ∧ decodeSlot .mem 0x420952C0 = .ok (.tset always 9 10 11) ∧
  decodeSlot .mem 0x400C5000 = .ok (.tlook always 12 10) ∧ decodeSlot .mem 0x80008000 = .ok (.mlease always 4 noOpts) ∧
  decodeSlot .mem 0x84020000 = .ok (.mldw always 1 0 0 0 noOpts) ∧ decodeSlot .mem 0x8604A001 = .ok (.mrun always 2 5 0 0 1 noOpts) ∧
  decodeSlot .mem 0x8806C002 = .ok (.mdrain always 3 6 1 0 noOpts) ∧
  decodeSlot .mem 0x9408C0A0 = .ok (.gath always 4 6 { noOpts with rel := 1, scope := 1 }) ∧
  decodeSlot .mem 0x9C06B000 = .ok (.rfree always 3 5 { noOpts with tpp := 1 }) ∧ decodeSlot .mem 0xA204C005 = .ok (.prosp always 2 6 5 noOpts) ∧
  decodeSlot .mem 0xA80800EB = .ok (.decj always 4 3 { noOpts with rel := 1, scope := 3, y := 1 }) ∧
  decodeSlot .mem 0xAA00016A = .ok (.publish always 2 { noOpts with acq := 1, scope := 3, y := 1 }) ∧
  decodeSlot .mem 0xA0120011 = .ok (.hfetch always 9 1 { noOpts with p := 1 })

/-- 02 R31 to R48: every well-formed slot instruction, with every operand at every value that its encoding admits, is a 32-bit word that
decodes back to it in the slots of its class. -/
def Obligations.RoundTrip : Prop :=
  ∀ (i : Instr) (c : SlotClass), i.slotClass = some c → i.wf = true → encode i < 2 ^ 32 ∧ decodeSlot c (encode i) = .ok i

/-- Every step answers a next state: no instruction, event or cycle stops the package. Every step keeps every memory in its canonical
form and the contexts in order of their numbers, and both hold after reset. -/
def Obligations.StepKeepsMemory : Prop :=
  State.reset.inv ∧ ∀ s : State, ∃ t, step s = .next t ∧ (s.inv → t.inv)
end

