-- ==== Sys2Proof/Laws/State.lean ====
section
/-! SUPPORT. What each update of the package leaves of each field of the state: one lemma per field per update, all by rfl. -/

namespace Sys2Proof.Machine

/-! ### setCore -/

@[simp] theorem State.setCore_clock (s : State) (c : Fin 256) (x : Core) : (s.setCore c x).clock = s.clock := rfl
@[simp] theorem State.setCore_agenda (s : State) (c : Fin 256) (x : Core) : (s.setCore c x).agenda = s.agenda := rfl
@[simp] theorem State.setCore_inbox (s : State) (c : Fin 256) (x : Core) : (s.setCore c x).inbox = s.inbox := rfl
@[simp] theorem State.setCore_errors (s : State) (c : Fin 256) (x : Core) : (s.setCore c x).errors = s.errors := rfl
@[simp] theorem State.setCore_cur (s : State) (c : Fin 256) (x : Core) : (s.setCore c x).cur = s.cur := rfl
@[simp] theorem State.setCore_latch (s : State) (c : Fin 256) (x : Core) : (s.setCore c x).latch = s.latch := rfl
@[simp] theorem State.setCore_free (s : State) (c : Fin 256) (x : Core) : (s.setCore c x).free = s.free := rfl
@[simp] theorem State.setCore_faces (s : State) (c : Fin 256) (x : Core) : (s.setCore c x).faces = s.faces := rfl
@[simp] theorem State.setCore_dies (s : State) (c : Fin 256) (x : Core) : (s.setCore c x).dies = s.dies := rfl
@[simp] theorem State.setCore_power (s : State) (c : Fin 256) (x : Core) : (s.setCore c x).power = s.power := rfl
@[simp] theorem State.setCore_stay (s : State) (c : Fin 256) (x : Core) : (s.setCore c x).stay = s.stay := rfl
@[simp] theorem State.setCore_groups (s : State) (c : Fin 256) (x : Core) : (s.setCore c x).groups = s.groups := rfl
@[simp] theorem State.setCore_launches (s : State) (c : Fin 256) (x : Core) : (s.setCore c x).launches = s.launches := rfl
@[simp] theorem State.setCore_ctxs (s : State) (c : Fin 256) (x : Core) : (s.setCore c x).ctxs = s.ctxs := rfl
@[simp] theorem State.setCore_msgs (s : State) (c : Fin 256) (x : Core) : (s.setCore c x).msgs = s.msgs := rfl
@[simp] theorem State.setCore_nextMsg (s : State) (c : Fin 256) (x : Core) : (s.setCore c x).nextMsg = s.nextMsg := rfl
@[simp] theorem State.setCore_hbm (s : State) (c : Fin 256) (x : Core) : (s.setCore c x).hbm = s.hbm := rfl
@[simp] theorem State.setCore_hbmPoison (s : State) (c : Fin 256) (x : Core) : (s.setCore c x).hbmPoison = s.hbmPoison := rfl
@[simp] theorem State.setCore_orders (s : State) (c : Fin 256) (x : Core) : (s.setCore c x).orders = s.orders := rfl
@[simp] theorem State.setCore_ended (s : State) (c : Fin 256) (x : Core) : (s.setCore c x).ended = s.ended := rfl
@[simp] theorem State.setCore_dead (s : State) (c : Fin 256) (x : Core) : (s.setCore c x).dead = s.dead := rfl
@[simp] theorem State.setCore_hbmStacks (s : State) (c : Fin 256) (x : Core) : (s.setCore c x).hbmStacks = s.hbmStacks := rfl
@[simp] theorem State.setCore_hbfStacks (s : State) (c : Fin 256) (x : Core) : (s.setCore c x).hbfStacks = s.hbfStacks := rfl
@[simp] theorem State.setCore_host (s : State) (c : Fin 256) (x : Core) : (s.setCore c x).host = s.host := rfl
@[simp] theorem State.setCore_hostPoison (s : State) (c : Fin 256) (x : Core) : (s.setCore c x).hostPoison = s.hostPoison := rfl
@[simp] theorem State.setCore_netAnswers (s : State) (c : Fin 256) (x : Core) : (s.setCore c x).netAnswers = s.netAnswers := rfl
@[simp] theorem State.setCore_netPoison (s : State) (c : Fin 256) (x : Core) : (s.setCore c x).netPoison = s.netPoison := rfl
@[simp] theorem State.setCore_cuts (s : State) (c : Fin 256) (x : Core) : (s.setCore c x).cuts = s.cuts := rfl
@[simp] theorem State.setCore_signals (s : State) (c : Fin 256) (x : Core) : (s.setCore c x).signals = s.signals := rfl
@[simp] theorem State.setCore_queues (s : State) (c : Fin 256) (x : Core) : (s.setCore c x).queues = s.queues := rfl
@[simp] theorem State.setCore_units (s : State) (c : Fin 256) (x : Core) : (s.setCore c x).units = s.units := rfl
@[simp] theorem State.setCore_netOut (s : State) (c : Fin 256) (x : Core) : (s.setCore c x).netOut = s.netOut := rfl
@[simp] theorem State.setCore_netLanes (s : State) (c : Fin 256) (x : Core) : (s.setCore c x).netLanes = s.netLanes := rfl
@[simp] theorem State.setCore_decLanes (s : State) (c : Fin 256) (x : Core) : (s.setCore c x).decLanes = s.decLanes := rfl
@[simp] theorem State.setCore_clusters (s : State) (c : Fin 256) (x : Core) : (s.setCore c x).clusters = s.clusters := rfl
@[simp] theorem State.setCore_fwOk (s : State) (c : Fin 256) (x : Core) : (s.setCore c x).fwOk = s.fwOk := rfl
@[simp] theorem State.setCore_winShift (s : State) (c : Fin 256) (x : Core) : (s.setCore c x).winShift = s.winShift := rfl
@[simp] theorem State.setCore_newShift (s : State) (c : Fin 256) (x : Core) : (s.setCore c x).newShift = s.newShift := rfl
@[simp] theorem State.setCore_wakeErr (s : State) (c : Fin 256) (x : Core) : (s.setCore c x).wakeErr = s.wakeErr := rfl
@[simp] theorem State.setCore_thermChg (s : State) (c : Fin 256) (x : Core) : (s.setCore c x).thermChg = s.thermChg := rfl

/-! ### setMe -/

@[simp] theorem State.setMe_clock (s : State) (x : Core) : (s.setMe x).clock = s.clock := rfl
@[simp] theorem State.setMe_agenda (s : State) (x : Core) : (s.setMe x).agenda = s.agenda := rfl
@[simp] theorem State.setMe_inbox (s : State) (x : Core) : (s.setMe x).inbox = s.inbox := rfl
@[simp] theorem State.setMe_errors (s : State) (x : Core) : (s.setMe x).errors = s.errors := rfl
@[simp] theorem State.setMe_cur (s : State) (x : Core) : (s.setMe x).cur = s.cur := rfl
@[simp] theorem State.setMe_latch (s : State) (x : Core) : (s.setMe x).latch = s.latch := rfl
@[simp] theorem State.setMe_free (s : State) (x : Core) : (s.setMe x).free = s.free := rfl
@[simp] theorem State.setMe_faces (s : State) (x : Core) : (s.setMe x).faces = s.faces := rfl
@[simp] theorem State.setMe_dies (s : State) (x : Core) : (s.setMe x).dies = s.dies := rfl
@[simp] theorem State.setMe_power (s : State) (x : Core) : (s.setMe x).power = s.power := rfl
@[simp] theorem State.setMe_stay (s : State) (x : Core) : (s.setMe x).stay = s.stay := rfl
@[simp] theorem State.setMe_groups (s : State) (x : Core) : (s.setMe x).groups = s.groups := rfl
@[simp] theorem State.setMe_launches (s : State) (x : Core) : (s.setMe x).launches = s.launches := rfl
@[simp] theorem State.setMe_ctxs (s : State) (x : Core) : (s.setMe x).ctxs = s.ctxs := rfl
@[simp] theorem State.setMe_msgs (s : State) (x : Core) : (s.setMe x).msgs = s.msgs := rfl
@[simp] theorem State.setMe_nextMsg (s : State) (x : Core) : (s.setMe x).nextMsg = s.nextMsg := rfl
@[simp] theorem State.setMe_hbm (s : State) (x : Core) : (s.setMe x).hbm = s.hbm := rfl
@[simp] theorem State.setMe_hbmPoison (s : State) (x : Core) : (s.setMe x).hbmPoison = s.hbmPoison := rfl
@[simp] theorem State.setMe_orders (s : State) (x : Core) : (s.setMe x).orders = s.orders := rfl
@[simp] theorem State.setMe_ended (s : State) (x : Core) : (s.setMe x).ended = s.ended := rfl
@[simp] theorem State.setMe_dead (s : State) (x : Core) : (s.setMe x).dead = s.dead := rfl
@[simp] theorem State.setMe_hbmStacks (s : State) (x : Core) : (s.setMe x).hbmStacks = s.hbmStacks := rfl
@[simp] theorem State.setMe_hbfStacks (s : State) (x : Core) : (s.setMe x).hbfStacks = s.hbfStacks := rfl
@[simp] theorem State.setMe_host (s : State) (x : Core) : (s.setMe x).host = s.host := rfl
@[simp] theorem State.setMe_hostPoison (s : State) (x : Core) : (s.setMe x).hostPoison = s.hostPoison := rfl
@[simp] theorem State.setMe_netAnswers (s : State) (x : Core) : (s.setMe x).netAnswers = s.netAnswers := rfl
@[simp] theorem State.setMe_netPoison (s : State) (x : Core) : (s.setMe x).netPoison = s.netPoison := rfl
@[simp] theorem State.setMe_cuts (s : State) (x : Core) : (s.setMe x).cuts = s.cuts := rfl
@[simp] theorem State.setMe_signals (s : State) (x : Core) : (s.setMe x).signals = s.signals := rfl
@[simp] theorem State.setMe_queues (s : State) (x : Core) : (s.setMe x).queues = s.queues := rfl
@[simp] theorem State.setMe_units (s : State) (x : Core) : (s.setMe x).units = s.units := rfl
@[simp] theorem State.setMe_netOut (s : State) (x : Core) : (s.setMe x).netOut = s.netOut := rfl
@[simp] theorem State.setMe_netLanes (s : State) (x : Core) : (s.setMe x).netLanes = s.netLanes := rfl
@[simp] theorem State.setMe_decLanes (s : State) (x : Core) : (s.setMe x).decLanes = s.decLanes := rfl
@[simp] theorem State.setMe_clusters (s : State) (x : Core) : (s.setMe x).clusters = s.clusters := rfl
@[simp] theorem State.setMe_fwOk (s : State) (x : Core) : (s.setMe x).fwOk = s.fwOk := rfl
@[simp] theorem State.setMe_winShift (s : State) (x : Core) : (s.setMe x).winShift = s.winShift := rfl
@[simp] theorem State.setMe_newShift (s : State) (x : Core) : (s.setMe x).newShift = s.newShift := rfl
@[simp] theorem State.setMe_wakeErr (s : State) (x : Core) : (s.setMe x).wakeErr = s.wakeErr := rfl
@[simp] theorem State.setMe_thermChg (s : State) (x : Core) : (s.setMe x).thermChg = s.thermChg := rfl

/-! ### onCore -/

@[simp] theorem State.onCore_clock (s : State) (c : Fin 256) (f : Core → Core) : (s.onCore c f).clock = s.clock := rfl
@[simp] theorem State.onCore_agenda (s : State) (c : Fin 256) (f : Core → Core) : (s.onCore c f).agenda = s.agenda := rfl
@[simp] theorem State.onCore_inbox (s : State) (c : Fin 256) (f : Core → Core) : (s.onCore c f).inbox = s.inbox := rfl
@[simp] theorem State.onCore_errors (s : State) (c : Fin 256) (f : Core → Core) : (s.onCore c f).errors = s.errors := rfl
@[simp] theorem State.onCore_cur (s : State) (c : Fin 256) (f : Core → Core) : (s.onCore c f).cur = s.cur := rfl
@[simp] theorem State.onCore_latch (s : State) (c : Fin 256) (f : Core → Core) : (s.onCore c f).latch = s.latch := rfl
@[simp] theorem State.onCore_free (s : State) (c : Fin 256) (f : Core → Core) : (s.onCore c f).free = s.free := rfl
@[simp] theorem State.onCore_faces (s : State) (c : Fin 256) (f : Core → Core) : (s.onCore c f).faces = s.faces := rfl
@[simp] theorem State.onCore_dies (s : State) (c : Fin 256) (f : Core → Core) : (s.onCore c f).dies = s.dies := rfl
@[simp] theorem State.onCore_power (s : State) (c : Fin 256) (f : Core → Core) : (s.onCore c f).power = s.power := rfl
@[simp] theorem State.onCore_stay (s : State) (c : Fin 256) (f : Core → Core) : (s.onCore c f).stay = s.stay := rfl
@[simp] theorem State.onCore_groups (s : State) (c : Fin 256) (f : Core → Core) : (s.onCore c f).groups = s.groups := rfl
@[simp] theorem State.onCore_launches (s : State) (c : Fin 256) (f : Core → Core) : (s.onCore c f).launches = s.launches := rfl
@[simp] theorem State.onCore_ctxs (s : State) (c : Fin 256) (f : Core → Core) : (s.onCore c f).ctxs = s.ctxs := rfl
@[simp] theorem State.onCore_msgs (s : State) (c : Fin 256) (f : Core → Core) : (s.onCore c f).msgs = s.msgs := rfl
@[simp] theorem State.onCore_nextMsg (s : State) (c : Fin 256) (f : Core → Core) : (s.onCore c f).nextMsg = s.nextMsg := rfl
@[simp] theorem State.onCore_hbm (s : State) (c : Fin 256) (f : Core → Core) : (s.onCore c f).hbm = s.hbm := rfl
@[simp] theorem State.onCore_hbmPoison (s : State) (c : Fin 256) (f : Core → Core) : (s.onCore c f).hbmPoison = s.hbmPoison := rfl
@[simp] theorem State.onCore_orders (s : State) (c : Fin 256) (f : Core → Core) : (s.onCore c f).orders = s.orders := rfl
@[simp] theorem State.onCore_ended (s : State) (c : Fin 256) (f : Core → Core) : (s.onCore c f).ended = s.ended := rfl
@[simp] theorem State.onCore_dead (s : State) (c : Fin 256) (f : Core → Core) : (s.onCore c f).dead = s.dead := rfl
@[simp] theorem State.onCore_hbmStacks (s : State) (c : Fin 256) (f : Core → Core) : (s.onCore c f).hbmStacks = s.hbmStacks := rfl
@[simp] theorem State.onCore_hbfStacks (s : State) (c : Fin 256) (f : Core → Core) : (s.onCore c f).hbfStacks = s.hbfStacks := rfl
@[simp] theorem State.onCore_host (s : State) (c : Fin 256) (f : Core → Core) : (s.onCore c f).host = s.host := rfl
@[simp] theorem State.onCore_hostPoison (s : State) (c : Fin 256) (f : Core → Core) : (s.onCore c f).hostPoison = s.hostPoison := rfl
@[simp] theorem State.onCore_netAnswers (s : State) (c : Fin 256) (f : Core → Core) : (s.onCore c f).netAnswers = s.netAnswers := rfl
@[simp] theorem State.onCore_netPoison (s : State) (c : Fin 256) (f : Core → Core) : (s.onCore c f).netPoison = s.netPoison := rfl
@[simp] theorem State.onCore_cuts (s : State) (c : Fin 256) (f : Core → Core) : (s.onCore c f).cuts = s.cuts := rfl
@[simp] theorem State.onCore_signals (s : State) (c : Fin 256) (f : Core → Core) : (s.onCore c f).signals = s.signals := rfl
@[simp] theorem State.onCore_queues (s : State) (c : Fin 256) (f : Core → Core) : (s.onCore c f).queues = s.queues := rfl
@[simp] theorem State.onCore_units (s : State) (c : Fin 256) (f : Core → Core) : (s.onCore c f).units = s.units := rfl
@[simp] theorem State.onCore_netOut (s : State) (c : Fin 256) (f : Core → Core) : (s.onCore c f).netOut = s.netOut := rfl
@[simp] theorem State.onCore_netLanes (s : State) (c : Fin 256) (f : Core → Core) : (s.onCore c f).netLanes = s.netLanes := rfl
@[simp] theorem State.onCore_decLanes (s : State) (c : Fin 256) (f : Core → Core) : (s.onCore c f).decLanes = s.decLanes := rfl
@[simp] theorem State.onCore_clusters (s : State) (c : Fin 256) (f : Core → Core) : (s.onCore c f).clusters = s.clusters := rfl
@[simp] theorem State.onCore_fwOk (s : State) (c : Fin 256) (f : Core → Core) : (s.onCore c f).fwOk = s.fwOk := rfl
@[simp] theorem State.onCore_winShift (s : State) (c : Fin 256) (f : Core → Core) : (s.onCore c f).winShift = s.winShift := rfl
@[simp] theorem State.onCore_newShift (s : State) (c : Fin 256) (f : Core → Core) : (s.onCore c f).newShift = s.newShift := rfl
@[simp] theorem State.onCore_wakeErr (s : State) (c : Fin 256) (f : Core → Core) : (s.onCore c f).wakeErr = s.wakeErr := rfl
@[simp] theorem State.onCore_thermChg (s : State) (c : Fin 256) (f : Core → Core) : (s.onCore c f).thermChg = s.thermChg := rfl

/-! ### onDie -/

@[simp] theorem State.onDie_clock (s : State) (d : Fin 4) (f : Die → Die) : (s.onDie d f).clock = s.clock := rfl
@[simp] theorem State.onDie_agenda (s : State) (d : Fin 4) (f : Die → Die) : (s.onDie d f).agenda = s.agenda := rfl
@[simp] theorem State.onDie_inbox (s : State) (d : Fin 4) (f : Die → Die) : (s.onDie d f).inbox = s.inbox := rfl
@[simp] theorem State.onDie_errors (s : State) (d : Fin 4) (f : Die → Die) : (s.onDie d f).errors = s.errors := rfl
@[simp] theorem State.onDie_cur (s : State) (d : Fin 4) (f : Die → Die) : (s.onDie d f).cur = s.cur := rfl
@[simp] theorem State.onDie_latch (s : State) (d : Fin 4) (f : Die → Die) : (s.onDie d f).latch = s.latch := rfl
@[simp] theorem State.onDie_free (s : State) (d : Fin 4) (f : Die → Die) : (s.onDie d f).free = s.free := rfl
@[simp] theorem State.onDie_cores (s : State) (d : Fin 4) (f : Die → Die) : (s.onDie d f).cores = s.cores := rfl
@[simp] theorem State.onDie_faces (s : State) (d : Fin 4) (f : Die → Die) : (s.onDie d f).faces = s.faces := rfl
@[simp] theorem State.onDie_power (s : State) (d : Fin 4) (f : Die → Die) : (s.onDie d f).power = s.power := rfl
@[simp] theorem State.onDie_stay (s : State) (d : Fin 4) (f : Die → Die) : (s.onDie d f).stay = s.stay := rfl
@[simp] theorem State.onDie_groups (s : State) (d : Fin 4) (f : Die → Die) : (s.onDie d f).groups = s.groups := rfl
@[simp] theorem State.onDie_launches (s : State) (d : Fin 4) (f : Die → Die) : (s.onDie d f).launches = s.launches := rfl
@[simp] theorem State.onDie_ctxs (s : State) (d : Fin 4) (f : Die → Die) : (s.onDie d f).ctxs = s.ctxs := rfl
@[simp] theorem State.onDie_msgs (s : State) (d : Fin 4) (f : Die → Die) : (s.onDie d f).msgs = s.msgs := rfl
@[simp] theorem State.onDie_nextMsg (s : State) (d : Fin 4) (f : Die → Die) : (s.onDie d f).nextMsg = s.nextMsg := rfl
@[simp] theorem State.onDie_hbm (s : State) (d : Fin 4) (f : Die → Die) : (s.onDie d f).hbm = s.hbm := rfl
@[simp] theorem State.onDie_hbmPoison (s : State) (d : Fin 4) (f : Die → Die) : (s.onDie d f).hbmPoison = s.hbmPoison := rfl
@[simp] theorem State.onDie_orders (s : State) (d : Fin 4) (f : Die → Die) : (s.onDie d f).orders = s.orders := rfl
@[simp] theorem State.onDie_ended (s : State) (d : Fin 4) (f : Die → Die) : (s.onDie d f).ended = s.ended := rfl
@[simp] theorem State.onDie_dead (s : State) (d : Fin 4) (f : Die → Die) : (s.onDie d f).dead = s.dead := rfl
@[simp] theorem State.onDie_hbmStacks (s : State) (d : Fin 4) (f : Die → Die) : (s.onDie d f).hbmStacks = s.hbmStacks := rfl
@[simp] theorem State.onDie_hbfStacks (s : State) (d : Fin 4) (f : Die → Die) : (s.onDie d f).hbfStacks = s.hbfStacks := rfl
@[simp] theorem State.onDie_host (s : State) (d : Fin 4) (f : Die → Die) : (s.onDie d f).host = s.host := rfl
@[simp] theorem State.onDie_hostPoison (s : State) (d : Fin 4) (f : Die → Die) : (s.onDie d f).hostPoison = s.hostPoison := rfl
@[simp] theorem State.onDie_netAnswers (s : State) (d : Fin 4) (f : Die → Die) : (s.onDie d f).netAnswers = s.netAnswers := rfl
@[simp] theorem State.onDie_netPoison (s : State) (d : Fin 4) (f : Die → Die) : (s.onDie d f).netPoison = s.netPoison := rfl
@[simp] theorem State.onDie_cuts (s : State) (d : Fin 4) (f : Die → Die) : (s.onDie d f).cuts = s.cuts := rfl
@[simp] theorem State.onDie_signals (s : State) (d : Fin 4) (f : Die → Die) : (s.onDie d f).signals = s.signals := rfl
@[simp] theorem State.onDie_queues (s : State) (d : Fin 4) (f : Die → Die) : (s.onDie d f).queues = s.queues := rfl
@[simp] theorem State.onDie_units (s : State) (d : Fin 4) (f : Die → Die) : (s.onDie d f).units = s.units := rfl
@[simp] theorem State.onDie_netOut (s : State) (d : Fin 4) (f : Die → Die) : (s.onDie d f).netOut = s.netOut := rfl
@[simp] theorem State.onDie_netLanes (s : State) (d : Fin 4) (f : Die → Die) : (s.onDie d f).netLanes = s.netLanes := rfl
@[simp] theorem State.onDie_decLanes (s : State) (d : Fin 4) (f : Die → Die) : (s.onDie d f).decLanes = s.decLanes := rfl
@[simp] theorem State.onDie_clusters (s : State) (d : Fin 4) (f : Die → Die) : (s.onDie d f).clusters = s.clusters := rfl
@[simp] theorem State.onDie_fwOk (s : State) (d : Fin 4) (f : Die → Die) : (s.onDie d f).fwOk = s.fwOk := rfl
@[simp] theorem State.onDie_winShift (s : State) (d : Fin 4) (f : Die → Die) : (s.onDie d f).winShift = s.winShift := rfl
@[simp] theorem State.onDie_newShift (s : State) (d : Fin 4) (f : Die → Die) : (s.onDie d f).newShift = s.newShift := rfl
@[simp] theorem State.onDie_wakeErr (s : State) (d : Fin 4) (f : Die → Die) : (s.onDie d f).wakeErr = s.wakeErr := rfl
@[simp] theorem State.onDie_thermChg (s : State) (d : Fin 4) (f : Die → Die) : (s.onDie d f).thermChg = s.thermChg := rfl

/-! ### onFace -/

@[simp] theorem State.onFace_clock (s : State) (k : Fin 64) (f : Face → Face) : (s.onFace k f).clock = s.clock := rfl
@[simp] theorem State.onFace_agenda (s : State) (k : Fin 64) (f : Face → Face) : (s.onFace k f).agenda = s.agenda := rfl
@[simp] theorem State.onFace_inbox (s : State) (k : Fin 64) (f : Face → Face) : (s.onFace k f).inbox = s.inbox := rfl
@[simp] theorem State.onFace_errors (s : State) (k : Fin 64) (f : Face → Face) : (s.onFace k f).errors = s.errors := rfl
@[simp] theorem State.onFace_cur (s : State) (k : Fin 64) (f : Face → Face) : (s.onFace k f).cur = s.cur := rfl
@[simp] theorem State.onFace_latch (s : State) (k : Fin 64) (f : Face → Face) : (s.onFace k f).latch = s.latch := rfl
@[simp] theorem State.onFace_free (s : State) (k : Fin 64) (f : Face → Face) : (s.onFace k f).free = s.free := rfl
@[simp] theorem State.onFace_cores (s : State) (k : Fin 64) (f : Face → Face) : (s.onFace k f).cores = s.cores := rfl
@[simp] theorem State.onFace_dies (s : State) (k : Fin 64) (f : Face → Face) : (s.onFace k f).dies = s.dies := rfl
@[simp] theorem State.onFace_power (s : State) (k : Fin 64) (f : Face → Face) : (s.onFace k f).power = s.power := rfl
@[simp] theorem State.onFace_stay (s : State) (k : Fin 64) (f : Face → Face) : (s.onFace k f).stay = s.stay := rfl
@[simp] theorem State.onFace_groups (s : State) (k : Fin 64) (f : Face → Face) : (s.onFace k f).groups = s.groups := rfl
@[simp] theorem State.onFace_launches (s : State) (k : Fin 64) (f : Face → Face) : (s.onFace k f).launches = s.launches := rfl
@[simp] theorem State.onFace_ctxs (s : State) (k : Fin 64) (f : Face → Face) : (s.onFace k f).ctxs = s.ctxs := rfl
@[simp] theorem State.onFace_msgs (s : State) (k : Fin 64) (f : Face → Face) : (s.onFace k f).msgs = s.msgs := rfl
@[simp] theorem State.onFace_nextMsg (s : State) (k : Fin 64) (f : Face → Face) : (s.onFace k f).nextMsg = s.nextMsg := rfl
@[simp] theorem State.onFace_hbm (s : State) (k : Fin 64) (f : Face → Face) : (s.onFace k f).hbm = s.hbm := rfl
@[simp] theorem State.onFace_hbmPoison (s : State) (k : Fin 64) (f : Face → Face) : (s.onFace k f).hbmPoison = s.hbmPoison := rfl
@[simp] theorem State.onFace_orders (s : State) (k : Fin 64) (f : Face → Face) : (s.onFace k f).orders = s.orders := rfl
@[simp] theorem State.onFace_ended (s : State) (k : Fin 64) (f : Face → Face) : (s.onFace k f).ended = s.ended := rfl
@[simp] theorem State.onFace_dead (s : State) (k : Fin 64) (f : Face → Face) : (s.onFace k f).dead = s.dead := rfl
@[simp] theorem State.onFace_hbmStacks (s : State) (k : Fin 64) (f : Face → Face) : (s.onFace k f).hbmStacks = s.hbmStacks := rfl
@[simp] theorem State.onFace_hbfStacks (s : State) (k : Fin 64) (f : Face → Face) : (s.onFace k f).hbfStacks = s.hbfStacks := rfl
@[simp] theorem State.onFace_host (s : State) (k : Fin 64) (f : Face → Face) : (s.onFace k f).host = s.host := rfl
@[simp] theorem State.onFace_hostPoison (s : State) (k : Fin 64) (f : Face → Face) : (s.onFace k f).hostPoison = s.hostPoison := rfl
@[simp] theorem State.onFace_netAnswers (s : State) (k : Fin 64) (f : Face → Face) : (s.onFace k f).netAnswers = s.netAnswers := rfl
@[simp] theorem State.onFace_netPoison (s : State) (k : Fin 64) (f : Face → Face) : (s.onFace k f).netPoison = s.netPoison := rfl
@[simp] theorem State.onFace_cuts (s : State) (k : Fin 64) (f : Face → Face) : (s.onFace k f).cuts = s.cuts := rfl
@[simp] theorem State.onFace_signals (s : State) (k : Fin 64) (f : Face → Face) : (s.onFace k f).signals = s.signals := rfl
@[simp] theorem State.onFace_queues (s : State) (k : Fin 64) (f : Face → Face) : (s.onFace k f).queues = s.queues := rfl
@[simp] theorem State.onFace_units (s : State) (k : Fin 64) (f : Face → Face) : (s.onFace k f).units = s.units := rfl
@[simp] theorem State.onFace_netOut (s : State) (k : Fin 64) (f : Face → Face) : (s.onFace k f).netOut = s.netOut := rfl
@[simp] theorem State.onFace_netLanes (s : State) (k : Fin 64) (f : Face → Face) : (s.onFace k f).netLanes = s.netLanes := rfl
@[simp] theorem State.onFace_decLanes (s : State) (k : Fin 64) (f : Face → Face) : (s.onFace k f).decLanes = s.decLanes := rfl
@[simp] theorem State.onFace_clusters (s : State) (k : Fin 64) (f : Face → Face) : (s.onFace k f).clusters = s.clusters := rfl
@[simp] theorem State.onFace_fwOk (s : State) (k : Fin 64) (f : Face → Face) : (s.onFace k f).fwOk = s.fwOk := rfl
@[simp] theorem State.onFace_winShift (s : State) (k : Fin 64) (f : Face → Face) : (s.onFace k f).winShift = s.winShift := rfl
@[simp] theorem State.onFace_newShift (s : State) (k : Fin 64) (f : Face → Face) : (s.onFace k f).newShift = s.newShift := rfl
@[simp] theorem State.onFace_wakeErr (s : State) (k : Fin 64) (f : Face → Face) : (s.onFace k f).wakeErr = s.wakeErr := rfl
@[simp] theorem State.onFace_thermChg (s : State) (k : Fin 64) (f : Face → Face) : (s.onFace k f).thermChg = s.thermChg := rfl

/-! ### send -/

@[simp] theorem State.send_clock (s : State) (t : Nat) (b : MsgBody) : (s.send t b).clock = s.clock := rfl
@[simp] theorem State.send_agenda (s : State) (t : Nat) (b : MsgBody) : (s.send t b).agenda = s.agenda := rfl
@[simp] theorem State.send_inbox (s : State) (t : Nat) (b : MsgBody) : (s.send t b).inbox = s.inbox := rfl
@[simp] theorem State.send_errors (s : State) (t : Nat) (b : MsgBody) : (s.send t b).errors = s.errors := rfl
@[simp] theorem State.send_cur (s : State) (t : Nat) (b : MsgBody) : (s.send t b).cur = s.cur := rfl
@[simp] theorem State.send_latch (s : State) (t : Nat) (b : MsgBody) : (s.send t b).latch = s.latch := rfl
@[simp] theorem State.send_free (s : State) (t : Nat) (b : MsgBody) : (s.send t b).free = s.free := rfl
@[simp] theorem State.send_cores (s : State) (t : Nat) (b : MsgBody) : (s.send t b).cores = s.cores := rfl
@[simp] theorem State.send_faces (s : State) (t : Nat) (b : MsgBody) : (s.send t b).faces = s.faces := rfl
@[simp] theorem State.send_dies (s : State) (t : Nat) (b : MsgBody) : (s.send t b).dies = s.dies := rfl
@[simp] theorem State.send_power (s : State) (t : Nat) (b : MsgBody) : (s.send t b).power = s.power := rfl
@[simp] theorem State.send_stay (s : State) (t : Nat) (b : MsgBody) : (s.send t b).stay = s.stay := rfl
@[simp] theorem State.send_groups (s : State) (t : Nat) (b : MsgBody) : (s.send t b).groups = s.groups := rfl
@[simp] theorem State.send_launches (s : State) (t : Nat) (b : MsgBody) : (s.send t b).launches = s.launches := rfl
@[simp] theorem State.send_ctxs (s : State) (t : Nat) (b : MsgBody) : (s.send t b).ctxs = s.ctxs := rfl
@[simp] theorem State.send_hbm (s : State) (t : Nat) (b : MsgBody) : (s.send t b).hbm = s.hbm := rfl
@[simp] theorem State.send_hbmPoison (s : State) (t : Nat) (b : MsgBody) : (s.send t b).hbmPoison = s.hbmPoison := rfl
@[simp] theorem State.send_orders (s : State) (t : Nat) (b : MsgBody) : (s.send t b).orders = s.orders := rfl
@[simp] theorem State.send_ended (s : State) (t : Nat) (b : MsgBody) : (s.send t b).ended = s.ended := rfl
@[simp] theorem State.send_dead (s : State) (t : Nat) (b : MsgBody) : (s.send t b).dead = s.dead := rfl
@[simp] theorem State.send_hbmStacks (s : State) (t : Nat) (b : MsgBody) : (s.send t b).hbmStacks = s.hbmStacks := rfl
@[simp] theorem State.send_hbfStacks (s : State) (t : Nat) (b : MsgBody) : (s.send t b).hbfStacks = s.hbfStacks := rfl
@[simp] theorem State.send_host (s : State) (t : Nat) (b : MsgBody) : (s.send t b).host = s.host := rfl
@[simp] theorem State.send_hostPoison (s : State) (t : Nat) (b : MsgBody) : (s.send t b).hostPoison = s.hostPoison := rfl
@[simp] theorem State.send_netAnswers (s : State) (t : Nat) (b : MsgBody) : (s.send t b).netAnswers = s.netAnswers := rfl
@[simp] theorem State.send_netPoison (s : State) (t : Nat) (b : MsgBody) : (s.send t b).netPoison = s.netPoison := rfl
@[simp] theorem State.send_cuts (s : State) (t : Nat) (b : MsgBody) : (s.send t b).cuts = s.cuts := rfl
@[simp] theorem State.send_signals (s : State) (t : Nat) (b : MsgBody) : (s.send t b).signals = s.signals := rfl
@[simp] theorem State.send_queues (s : State) (t : Nat) (b : MsgBody) : (s.send t b).queues = s.queues := rfl
@[simp] theorem State.send_units (s : State) (t : Nat) (b : MsgBody) : (s.send t b).units = s.units := rfl
@[simp] theorem State.send_netOut (s : State) (t : Nat) (b : MsgBody) : (s.send t b).netOut = s.netOut := rfl
@[simp] theorem State.send_netLanes (s : State) (t : Nat) (b : MsgBody) : (s.send t b).netLanes = s.netLanes := rfl
@[simp] theorem State.send_decLanes (s : State) (t : Nat) (b : MsgBody) : (s.send t b).decLanes = s.decLanes := rfl
@[simp] theorem State.send_clusters (s : State) (t : Nat) (b : MsgBody) : (s.send t b).clusters = s.clusters := rfl
@[simp] theorem State.send_fwOk (s : State) (t : Nat) (b : MsgBody) : (s.send t b).fwOk = s.fwOk := rfl
@[simp] theorem State.send_winShift (s : State) (t : Nat) (b : MsgBody) : (s.send t b).winShift = s.winShift := rfl
@[simp] theorem State.send_newShift (s : State) (t : Nat) (b : MsgBody) : (s.send t b).newShift = s.newShift := rfl
@[simp] theorem State.send_wakeErr (s : State) (t : Nat) (b : MsgBody) : (s.send t b).wakeErr = s.wakeErr := rfl
@[simp] theorem State.send_thermChg (s : State) (t : Nat) (b : MsgBody) : (s.send t b).thermChg = s.thermChg := rfl

/-! ### dropMsg -/

@[simp] theorem State.dropMsg_clock (s : State) (m : Nat) : (s.dropMsg m).clock = s.clock := rfl
@[simp] theorem State.dropMsg_agenda (s : State) (m : Nat) : (s.dropMsg m).agenda = s.agenda := rfl
@[simp] theorem State.dropMsg_inbox (s : State) (m : Nat) : (s.dropMsg m).inbox = s.inbox := rfl
@[simp] theorem State.dropMsg_errors (s : State) (m : Nat) : (s.dropMsg m).errors = s.errors := rfl
@[simp] theorem State.dropMsg_cur (s : State) (m : Nat) : (s.dropMsg m).cur = s.cur := rfl
@[simp] theorem State.dropMsg_latch (s : State) (m : Nat) : (s.dropMsg m).latch = s.latch := rfl
@[simp] theorem State.dropMsg_free (s : State) (m : Nat) : (s.dropMsg m).free = s.free := rfl
@[simp] theorem State.dropMsg_cores (s : State) (m : Nat) : (s.dropMsg m).cores = s.cores := rfl
@[simp] theorem State.dropMsg_faces (s : State) (m : Nat) : (s.dropMsg m).faces = s.faces := rfl
@[simp] theorem State.dropMsg_dies (s : State) (m : Nat) : (s.dropMsg m).dies = s.dies := rfl
@[simp] theorem State.dropMsg_power (s : State) (m : Nat) : (s.dropMsg m).power = s.power := rfl
@[simp] theorem State.dropMsg_stay (s : State) (m : Nat) : (s.dropMsg m).stay = s.stay := rfl
@[simp] theorem State.dropMsg_groups (s : State) (m : Nat) : (s.dropMsg m).groups = s.groups := rfl
@[simp] theorem State.dropMsg_launches (s : State) (m : Nat) : (s.dropMsg m).launches = s.launches := rfl
@[simp] theorem State.dropMsg_ctxs (s : State) (m : Nat) : (s.dropMsg m).ctxs = s.ctxs := rfl
@[simp] theorem State.dropMsg_nextMsg (s : State) (m : Nat) : (s.dropMsg m).nextMsg = s.nextMsg := rfl
@[simp] theorem State.dropMsg_hbm (s : State) (m : Nat) : (s.dropMsg m).hbm = s.hbm := rfl
@[simp] theorem State.dropMsg_hbmPoison (s : State) (m : Nat) : (s.dropMsg m).hbmPoison = s.hbmPoison := rfl
@[simp] theorem State.dropMsg_orders (s : State) (m : Nat) : (s.dropMsg m).orders = s.orders := rfl
@[simp] theorem State.dropMsg_ended (s : State) (m : Nat) : (s.dropMsg m).ended = s.ended := rfl
@[simp] theorem State.dropMsg_dead (s : State) (m : Nat) : (s.dropMsg m).dead = s.dead := rfl
@[simp] theorem State.dropMsg_hbmStacks (s : State) (m : Nat) : (s.dropMsg m).hbmStacks = s.hbmStacks := rfl
@[simp] theorem State.dropMsg_hbfStacks (s : State) (m : Nat) : (s.dropMsg m).hbfStacks = s.hbfStacks := rfl
@[simp] theorem State.dropMsg_host (s : State) (m : Nat) : (s.dropMsg m).host = s.host := rfl
@[simp] theorem State.dropMsg_hostPoison (s : State) (m : Nat) : (s.dropMsg m).hostPoison = s.hostPoison := rfl
@[simp] theorem State.dropMsg_netAnswers (s : State) (m : Nat) : (s.dropMsg m).netAnswers = s.netAnswers := rfl
@[simp] theorem State.dropMsg_netPoison (s : State) (m : Nat) : (s.dropMsg m).netPoison = s.netPoison := rfl
@[simp] theorem State.dropMsg_cuts (s : State) (m : Nat) : (s.dropMsg m).cuts = s.cuts := rfl
@[simp] theorem State.dropMsg_signals (s : State) (m : Nat) : (s.dropMsg m).signals = s.signals := rfl
@[simp] theorem State.dropMsg_queues (s : State) (m : Nat) : (s.dropMsg m).queues = s.queues := rfl
@[simp] theorem State.dropMsg_units (s : State) (m : Nat) : (s.dropMsg m).units = s.units := rfl
@[simp] theorem State.dropMsg_netOut (s : State) (m : Nat) : (s.dropMsg m).netOut = s.netOut := rfl
@[simp] theorem State.dropMsg_netLanes (s : State) (m : Nat) : (s.dropMsg m).netLanes = s.netLanes := rfl
@[simp] theorem State.dropMsg_decLanes (s : State) (m : Nat) : (s.dropMsg m).decLanes = s.decLanes := rfl
@[simp] theorem State.dropMsg_clusters (s : State) (m : Nat) : (s.dropMsg m).clusters = s.clusters := rfl
@[simp] theorem State.dropMsg_fwOk (s : State) (m : Nat) : (s.dropMsg m).fwOk = s.fwOk := rfl
@[simp] theorem State.dropMsg_winShift (s : State) (m : Nat) : (s.dropMsg m).winShift = s.winShift := rfl
@[simp] theorem State.dropMsg_newShift (s : State) (m : Nat) : (s.dropMsg m).newShift = s.newShift := rfl
@[simp] theorem State.dropMsg_wakeErr (s : State) (m : Nat) : (s.dropMsg m).wakeErr = s.wakeErr := rfl
@[simp] theorem State.dropMsg_thermChg (s : State) (m : Nat) : (s.dropMsg m).thermChg = s.thermChg := rfl

/-! ### addPend -/

@[simp] theorem State.addPend_clock (s : State) (l : Nat) (w : Write) : (s.addPend l w).clock = s.clock := rfl
@[simp] theorem State.addPend_agenda (s : State) (l : Nat) (w : Write) : (s.addPend l w).agenda = s.agenda := rfl
@[simp] theorem State.addPend_inbox (s : State) (l : Nat) (w : Write) : (s.addPend l w).inbox = s.inbox := rfl
@[simp] theorem State.addPend_errors (s : State) (l : Nat) (w : Write) : (s.addPend l w).errors = s.errors := rfl
@[simp] theorem State.addPend_cur (s : State) (l : Nat) (w : Write) : (s.addPend l w).cur = s.cur := rfl
@[simp] theorem State.addPend_latch (s : State) (l : Nat) (w : Write) : (s.addPend l w).latch = s.latch := rfl
@[simp] theorem State.addPend_free (s : State) (l : Nat) (w : Write) : (s.addPend l w).free = s.free := rfl
@[simp] theorem State.addPend_faces (s : State) (l : Nat) (w : Write) : (s.addPend l w).faces = s.faces := rfl
@[simp] theorem State.addPend_dies (s : State) (l : Nat) (w : Write) : (s.addPend l w).dies = s.dies := rfl
@[simp] theorem State.addPend_power (s : State) (l : Nat) (w : Write) : (s.addPend l w).power = s.power := rfl
@[simp] theorem State.addPend_stay (s : State) (l : Nat) (w : Write) : (s.addPend l w).stay = s.stay := rfl
@[simp] theorem State.addPend_groups (s : State) (l : Nat) (w : Write) : (s.addPend l w).groups = s.groups := rfl
@[simp] theorem State.addPend_launches (s : State) (l : Nat) (w : Write) : (s.addPend l w).launches = s.launches := rfl
@[simp] theorem State.addPend_ctxs (s : State) (l : Nat) (w : Write) : (s.addPend l w).ctxs = s.ctxs := rfl
@[simp] theorem State.addPend_msgs (s : State) (l : Nat) (w : Write) : (s.addPend l w).msgs = s.msgs := rfl
@[simp] theorem State.addPend_nextMsg (s : State) (l : Nat) (w : Write) : (s.addPend l w).nextMsg = s.nextMsg := rfl
@[simp] theorem State.addPend_hbm (s : State) (l : Nat) (w : Write) : (s.addPend l w).hbm = s.hbm := rfl
@[simp] theorem State.addPend_hbmPoison (s : State) (l : Nat) (w : Write) : (s.addPend l w).hbmPoison = s.hbmPoison := rfl
@[simp] theorem State.addPend_orders (s : State) (l : Nat) (w : Write) : (s.addPend l w).orders = s.orders := rfl
@[simp] theorem State.addPend_ended (s : State) (l : Nat) (w : Write) : (s.addPend l w).ended = s.ended := rfl
@[simp] theorem State.addPend_dead (s : State) (l : Nat) (w : Write) : (s.addPend l w).dead = s.dead := rfl
@[simp] theorem State.addPend_hbmStacks (s : State) (l : Nat) (w : Write) : (s.addPend l w).hbmStacks = s.hbmStacks := rfl
@[simp] theorem State.addPend_hbfStacks (s : State) (l : Nat) (w : Write) : (s.addPend l w).hbfStacks = s.hbfStacks := rfl
@[simp] theorem State.addPend_host (s : State) (l : Nat) (w : Write) : (s.addPend l w).host = s.host := rfl
@[simp] theorem State.addPend_hostPoison (s : State) (l : Nat) (w : Write) : (s.addPend l w).hostPoison = s.hostPoison := rfl
@[simp] theorem State.addPend_netAnswers (s : State) (l : Nat) (w : Write) : (s.addPend l w).netAnswers = s.netAnswers := rfl
@[simp] theorem State.addPend_netPoison (s : State) (l : Nat) (w : Write) : (s.addPend l w).netPoison = s.netPoison := rfl
@[simp] theorem State.addPend_cuts (s : State) (l : Nat) (w : Write) : (s.addPend l w).cuts = s.cuts := rfl
@[simp] theorem State.addPend_signals (s : State) (l : Nat) (w : Write) : (s.addPend l w).signals = s.signals := rfl
@[simp] theorem State.addPend_queues (s : State) (l : Nat) (w : Write) : (s.addPend l w).queues = s.queues := rfl
@[simp] theorem State.addPend_units (s : State) (l : Nat) (w : Write) : (s.addPend l w).units = s.units := rfl
@[simp] theorem State.addPend_netOut (s : State) (l : Nat) (w : Write) : (s.addPend l w).netOut = s.netOut := rfl
@[simp] theorem State.addPend_netLanes (s : State) (l : Nat) (w : Write) : (s.addPend l w).netLanes = s.netLanes := rfl
@[simp] theorem State.addPend_decLanes (s : State) (l : Nat) (w : Write) : (s.addPend l w).decLanes = s.decLanes := rfl
@[simp] theorem State.addPend_clusters (s : State) (l : Nat) (w : Write) : (s.addPend l w).clusters = s.clusters := rfl
@[simp] theorem State.addPend_fwOk (s : State) (l : Nat) (w : Write) : (s.addPend l w).fwOk = s.fwOk := rfl
@[simp] theorem State.addPend_winShift (s : State) (l : Nat) (w : Write) : (s.addPend l w).winShift = s.winShift := rfl
@[simp] theorem State.addPend_newShift (s : State) (l : Nat) (w : Write) : (s.addPend l w).newShift = s.newShift := rfl
@[simp] theorem State.addPend_wakeErr (s : State) (l : Nat) (w : Write) : (s.addPend l w).wakeErr = s.wakeErr := rfl
@[simp] theorem State.addPend_thermChg (s : State) (l : Nat) (w : Write) : (s.addPend l w).thermChg = s.thermChg := rfl

/-! ### choose -/

@[simp] theorem State.choose_clock (s : State) (n : Nat) : (s.choose n).2.clock = s.clock := rfl
@[simp] theorem State.choose_agenda (s : State) (n : Nat) : (s.choose n).2.agenda = s.agenda := rfl
@[simp] theorem State.choose_inbox (s : State) (n : Nat) : (s.choose n).2.inbox = s.inbox := rfl
@[simp] theorem State.choose_errors (s : State) (n : Nat) : (s.choose n).2.errors = s.errors := rfl
@[simp] theorem State.choose_cur (s : State) (n : Nat) : (s.choose n).2.cur = s.cur := rfl
@[simp] theorem State.choose_latch (s : State) (n : Nat) : (s.choose n).2.latch = s.latch := rfl
@[simp] theorem State.choose_cores (s : State) (n : Nat) : (s.choose n).2.cores = s.cores := rfl
@[simp] theorem State.choose_faces (s : State) (n : Nat) : (s.choose n).2.faces = s.faces := rfl
@[simp] theorem State.choose_dies (s : State) (n : Nat) : (s.choose n).2.dies = s.dies := rfl
@[simp] theorem State.choose_power (s : State) (n : Nat) : (s.choose n).2.power = s.power := rfl
@[simp] theorem State.choose_stay (s : State) (n : Nat) : (s.choose n).2.stay = s.stay := rfl
@[simp] theorem State.choose_groups (s : State) (n : Nat) : (s.choose n).2.groups = s.groups := rfl
@[simp] theorem State.choose_launches (s : State) (n : Nat) : (s.choose n).2.launches = s.launches := rfl
@[simp] theorem State.choose_ctxs (s : State) (n : Nat) : (s.choose n).2.ctxs = s.ctxs := rfl
@[simp] theorem State.choose_msgs (s : State) (n : Nat) : (s.choose n).2.msgs = s.msgs := rfl
@[simp] theorem State.choose_nextMsg (s : State) (n : Nat) : (s.choose n).2.nextMsg = s.nextMsg := rfl
@[simp] theorem State.choose_hbm (s : State) (n : Nat) : (s.choose n).2.hbm = s.hbm := rfl
@[simp] theorem State.choose_hbmPoison (s : State) (n : Nat) : (s.choose n).2.hbmPoison = s.hbmPoison := rfl
@[simp] theorem State.choose_orders (s : State) (n : Nat) : (s.choose n).2.orders = s.orders := rfl
@[simp] theorem State.choose_ended (s : State) (n : Nat) : (s.choose n).2.ended = s.ended := rfl
@[simp] theorem State.choose_dead (s : State) (n : Nat) : (s.choose n).2.dead = s.dead := rfl
@[simp] theorem State.choose_hbmStacks (s : State) (n : Nat) : (s.choose n).2.hbmStacks = s.hbmStacks := rfl
@[simp] theorem State.choose_hbfStacks (s : State) (n : Nat) : (s.choose n).2.hbfStacks = s.hbfStacks := rfl
@[simp] theorem State.choose_host (s : State) (n : Nat) : (s.choose n).2.host = s.host := rfl
@[simp] theorem State.choose_hostPoison (s : State) (n : Nat) : (s.choose n).2.hostPoison = s.hostPoison := rfl
@[simp] theorem State.choose_netAnswers (s : State) (n : Nat) : (s.choose n).2.netAnswers = s.netAnswers := rfl
@[simp] theorem State.choose_netPoison (s : State) (n : Nat) : (s.choose n).2.netPoison = s.netPoison := rfl
@[simp] theorem State.choose_cuts (s : State) (n : Nat) : (s.choose n).2.cuts = s.cuts := rfl
@[simp] theorem State.choose_signals (s : State) (n : Nat) : (s.choose n).2.signals = s.signals := rfl
@[simp] theorem State.choose_queues (s : State) (n : Nat) : (s.choose n).2.queues = s.queues := rfl
@[simp] theorem State.choose_units (s : State) (n : Nat) : (s.choose n).2.units = s.units := rfl
@[simp] theorem State.choose_netOut (s : State) (n : Nat) : (s.choose n).2.netOut = s.netOut := rfl
@[simp] theorem State.choose_netLanes (s : State) (n : Nat) : (s.choose n).2.netLanes = s.netLanes := rfl
@[simp] theorem State.choose_decLanes (s : State) (n : Nat) : (s.choose n).2.decLanes = s.decLanes := rfl
@[simp] theorem State.choose_clusters (s : State) (n : Nat) : (s.choose n).2.clusters = s.clusters := rfl
@[simp] theorem State.choose_fwOk (s : State) (n : Nat) : (s.choose n).2.fwOk = s.fwOk := rfl
@[simp] theorem State.choose_winShift (s : State) (n : Nat) : (s.choose n).2.winShift = s.winShift := rfl
@[simp] theorem State.choose_newShift (s : State) (n : Nat) : (s.choose n).2.newShift = s.newShift := rfl
@[simp] theorem State.choose_wakeErr (s : State) (n : Nat) : (s.choose n).2.wakeErr = s.wakeErr := rfl
@[simp] theorem State.choose_thermChg (s : State) (n : Nat) : (s.choose n).2.thermChg = s.thermChg := rfl

/-- A choice is within its bound. -/
theorem State.choose_le (s : State) (n : Nat) : (s.choose n).1 ≤ n := Nat.le_of_lt_succ (Nat.mod_lt _ (Nat.succ_pos n))

/-! ### Cores read back -/

@[simp] theorem State.setMe_me (s : State) (x : Core) : (s.setMe x).me = x := by
  simp [State.setMe, State.me]

@[simp] theorem State.setMe_setMe (s : State) (x y : Core) : (s.setMe x).setMe y = s.setMe y := by
  simp [State.setMe]

@[simp] theorem State.setMe_self (s : State) : s.setMe s.me = s := by
  have h : s.cores.set s.cur s.me = s.cores := by
    apply Vector.ext; intro i hi; simp only [Vector.getElem_set]; split
    · subst_vars; rfl
    · rfl
  simp [State.setMe, h]

@[simp] theorem State.setCore_core (s : State) (c : Fin 256) (x : Core) : (s.setCore c x).core c = x := by
  simp [State.setCore, State.core]

theorem State.setCore_core_ne (s : State) (c d : Fin 256) (x : Core) (h : c ≠ d) : (s.setCore c x).core d = s.core d := by
  have h' : c.val ≠ d.val := fun e => h (Fin.ext e)
  simp [State.setCore, State.core, Vector.getElem_set_ne, h']

@[simp] theorem State.onCore_core (s : State) (c : Fin 256) (f : Core → Core) : (s.onCore c f).core c = f (s.core c) := by
  simp [State.onCore]

theorem State.onCore_core_ne (s : State) (c d : Fin 256) (f : Core → Core) (h : c ≠ d) : (s.onCore c f).core d = s.core d :=
  s.setCore_core_ne c d _ h

theorem State.setMe_core_ne (s : State) (d : Fin 256) (x : Core) (h : s.cur ≠ d) : (s.setMe x).core d = s.core d :=
  s.setCore_core_ne s.cur d x h

@[simp] theorem State.onDie_dies (s : State) (d : Fin 4) (f : Die → Die) : (s.onDie d f).dies[d] = f s.dies[d] := by
  simp [State.onDie]

@[simp] theorem State.onFace_faces (s : State) (k : Fin 64) (f : Face → Face) : (s.onFace k f).faces[k] = f s.faces[k] := by
  simp [State.onFace]

@[simp] theorem State.addPend_me (s : State) (l : Nat) (w : Write) :
    (s.addPend l w).me = { s.me with seq := { s.me.seq with pend := s.me.seq.pend ++ [⟨s.me.seq.rn + l - 1, s.latch.slot, w⟩] } } := by
  simp [State.addPend]

@[simp] theorem State.send_me (s : State) (t : Nat) (b : MsgBody) : (s.send t b).me = s.me := rfl

end Sys2Proof.Machine
end

