-- ==== Sys2Proof/Laws/Issue.lean ====
section
/-! SUPPORT. The issue of a bundle with one instruction: what its three passes come to. -/

namespace Sys2Proof.Machine

/-! ### The state at the start of a bundle -/

@[simp] theorem Core.touch_nil (k : Core) : k.touch [] = k := rfl

theorem State.begin_plain (s : State) (d : Bool) :
    s.begin false d [] = { s with latch := { slot := s.latch.slot, hasDelay := d } } := by
  have h : s.setMe s.me = s := s.setMe_self
  simp only [State.begin, Core.touch_nil, Bool.false_eq_true, if_false, h]

theorem State.opened_plain (s : State) (g : Guard) (d : Bool) :
    s.opened g false d [] = { s with latch := { phase := .apply, slot := s.latch.slot, hasDelay := d, iter := s.me.iterOf g } } := by
  rw [State.opened, State.begin_plain]; rfl

theorem State.begin_me (s : State) (e d : Bool) (u : List Nat) :
    (s.begin e d u).me = (if e then { s.me with seq := { s.me.seq with entryRegion := false } } else s.me).touch u := by
  simp only [State.begin, State.me, State.setMe, Vector.getElem_set_self, Fin.getElem_fin]

theorem Core.touch_regs (k : Core) (u : List Nat) : (k.touch u).regs = k.regs := by unfold Core.touch; split <;> rfl
theorem Core.touch_vec (k : Core) (u : List Nat) : (k.touch u).vec = k.vec := by unfold Core.touch; split <;> rfl
theorem Core.touch_sys (k : Core) (u : List Nat) : (k.touch u).sys = k.sys := by unfold Core.touch; split <;> rfl
theorem Core.touch_seq (k : Core) (u : List Nat) : (k.touch u).seq = k.seq := by unfold Core.touch; split <;> rfl
theorem Core.touch_eng (k : Core) (u : List Nat) : (k.touch u).eng = k.eng := by unfold Core.touch; split <;> rfl
theorem Core.touch_run (k : Core) (u : List Nat) : (k.touch u).run = k.run := by unfold Core.touch; split <;> rfl

theorem State.begin_regs (s : State) (e d : Bool) (u : List Nat) : (s.begin e d u).me.regs = s.me.regs := by
  rw [State.begin_me, Core.touch_regs]; split <;> rfl
theorem State.begin_vec (s : State) (e d : Bool) (u : List Nat) : (s.begin e d u).me.vec = s.me.vec := by
  rw [State.begin_me, Core.touch_vec]; split <;> rfl
theorem State.begin_sys (s : State) (e d : Bool) (u : List Nat) : (s.begin e d u).me.sys = s.me.sys := by
  rw [State.begin_me, Core.touch_sys]; split <;> rfl
theorem State.begin_eng (s : State) (e d : Bool) (u : List Nat) : (s.begin e d u).me.eng = s.me.eng := by
  rw [State.begin_me, Core.touch_eng]; split <;> rfl
theorem State.begin_run (s : State) (e d : Bool) (u : List Nat) : (s.begin e d u).me.run = s.me.run := by
  rw [State.begin_me, Core.touch_run]; split <;> rfl
theorem State.begin_seq (s : State) (e d : Bool) (u : List Nat) :
    (s.begin e d u).me.seq = { s.me.seq with entryRegion := if e then false else s.me.seq.entryRegion } := by
  rw [State.begin_me, Core.touch_seq]; cases e <;> rfl

theorem State.begin_runs (s : State) (g : Guard) (e d : Bool) (u : List Nat) : (s.begin e d u).me.runs g = s.me.runs g := by
  simp only [Core.runs, Core.guard, Core.squashed, Core.iterOf, Core.passNo, State.begin_regs, State.begin_seq]
  rfl

theorem State.begin_rpl (s : State) (e d : Bool) (u : List Nat) : (s.begin e d u).me.rpl = s.me.rpl := by
  simp only [Core.rpl, State.begin_seq]

theorem State.begin_holds (s : State) (e d : Bool) (u : List Nat) : (s.begin e d u).me.holds = s.me.holds := by
  simp only [Core.holds, State.begin_rpl, State.begin_sys]

/-! ### A lone instruction -/

/-- The state that the waits and the handle lookups of a lone instruction see. -/
def State.probing (s : State) (m : Meaning) : State := (s.begin m.endsRegion m.hasDelay []).inPhase .probe

/-- The pass over a lone instruction's checks, none failing. -/
theorem check_pass (g : Guard) (m : Meaning) (s : State) (hban : m.ban s.me = false) (hden : m.denied s.me = false) :
    (slotIn g m .check (s.begin false false [])).latch.trap = none ∧
      (slotIn g m .check (s.begin false false [])).latch.endsRegion = m.endsRegion ∧
      (slotIn g m .check (s.begin false false [])).latch.hasDelay = m.hasDelay := by
  have hm : ((s.begin false false []).inPhase .check).me = s.me := by rw [State.begin_plain]; rfl
  have hl : ((s.begin false false []).inPhase .check).latch = { phase := .check, slot := s.latch.slot } := by
    rw [State.begin_plain]; rfl
  simp [slotIn, checkSlot, hm, hl, hban, hden]

/-- The pass in which an effect takes place. -/
theorem apply_pass {g : Guard} {m : Meaning} {s t : State} (hr : s.me.runs g = true) (hl : s.latch.trap = none)
    (hb : m.body (s.noteIter g) = .ok t) : applySlot g m s = t := by
  simp only [applySlot, hr, hl, Option.isNone_none, Bool.and_self, if_true, hb]

/-- A bundle with one command at most does not overfill what has room. -/
theorem State.overfull_false {u : State} (k : Core) (hk : u.me = k) (q : Option Nat) (hc : u.latch.cmds = [] ++ q.toList)
    (hl : k.seq.landings.length + u.latch.lands ≤ 16)
    (hr : ∀ x, q = some x → k.holds = true ∨ (k.eng.queues.getD x []).length + (k.eng.fault.getD x none).toList.length < 16) :
    u.overfull = false := by
  subst hk
  simp only [State.overfull, hc, Bool.or_eq_false_iff, decide_eq_false_iff_not, Nat.not_lt, List.nil_append]
  refine ⟨hl, ?_⟩
  cases q with
  | none => simp
  | some x =>
    rcases hr x rfl with h | h
    · simp [h]
    · simp only [Option.toList_some, List.any_cons, List.any_nil, Bool.or_false, List.count_singleton_self, Bool.and_eq_false_iff,
        decide_eq_false_iff_not, Nat.not_lt]
      exact Or.inr (by omega)

/-- A LONE INSTRUCTION ISSUES: when its checks pass, nothing waits, its handles are cached and its effect takes place, the issue
is the effect followed by the end of the bundle. -/
theorem runSlot_solo {g : Guard} {m : Meaning} {s t : State} (hs : s.ready g (if m.lands then 1 else 0))
    (hban : m.ban s.me = false) (hden : m.denied s.me = false) (hwait : m.waits (s.probing m) = false)
    (hq : ∀ q, m.queue (s.probing m) = some q → s.queueRoom q) (hu : s.cached (m.uses (s.probing m)))
    (hb : m.body (s.opened g m.endsRegion m.hasDelay (m.uses (s.probing m))) = .ok t)
    (ht : t.latch.trap = none) (hpo : t.rollbackStart = none) (hsq : t.latch.squash = []) (hrq : t.latch.reqs = []) :
    runSlot g m s = .next t.commit := by
  obtain ⟨hsolo, -, hruns, hplace, hroom, hwithin, hunit, hland⟩ := hs
  obtain ⟨h1, h2, h3⟩ := check_pass g m s hban hden
  have hpr : slotIn g m .probe (s.begin m.endsRegion m.hasDelay []) = probeSlot g m (s.probing m) := rfl
  have hprun : (s.probing m).me.runs g = true := (s.begin_runs g m.endsRegion m.hasDelay []).trans hruns
  have hpl : (s.probing m).latch = { phase := .probe, slot := s.latch.slot, hasDelay := m.hasDelay } := rfl
  have hover : ({ s.probing m with latch := { (s.probing m).latch with
      lands := (s.probing m).latch.lands + (if m.lands then 1 else 0),
      cmds := (s.probing m).latch.cmds ++ (m.queue (s.probing m)).toList } } : State).overfull = false := by
    refine State.overfull_false (s.begin m.endsRegion m.hasDelay []).me rfl (m.queue (s.probing m)) rfl ?_ ?_
    · simp only [hpl, State.begin_seq, Nat.zero_add]; exact hland
    · intro q hqq
      have := hq q hqq
      simpa only [State.queueRoom, State.begin_holds, State.begin_eng] using this
  have hprobe : (probeSlot g m (s.probing m)).latch.wait = false ∧ (probeSlot g m (s.probing m)).latch.uses = m.uses (s.probing m) := by
    have hub : (s.probing m).unitBusy = false := by
      have : (s.probing m).unitBusy = decide ((s.begin m.endsRegion m.hasDelay []).me.seq.rn <
          (s.begin m.endsRegion m.hasDelay []).me.seq.unitBusy.getD s.latch.slot 0) := rfl
      rw [this, State.begin_seq]; exact hunit
    simp only [probeSlot, hprun, if_true, hwait, hub, hover, Bool.or_false, Bool.false_and]
    exact ⟨rfl, rfl⟩
  have happ : slotIn g m .apply (s.begin m.endsRegion m.hasDelay (m.uses (s.probing m))) = t := by
    have hr : ((s.begin m.endsRegion m.hasDelay (m.uses (s.probing m))).inPhase .apply).me.runs g = true :=
      (s.begin_runs g m.endsRegion m.hasDelay _).trans hruns
    have hl : ((s.begin m.endsRegion m.hasDelay (m.uses (s.probing m))).inPhase .apply).latch.trap = none := rfl
    exact apply_pass hr hl hb
  have hall : (s.begin m.endsRegion m.hasDelay (m.uses (s.probing m))).applyAll (slotIn g m) = t := by
    simp only [State.applyAll, happ, hpo]
  have hu' : s.me.misses (m.uses (s.probing m)) = [] := hu
  simp only [runSlot, hsolo, State.issue, hplace, Bool.false_eq_true, if_false, h1, h2, h3, hpr, hprobe.1, hprobe.2, hroom,
    Bool.or_false, hwithin, hu', List.isEmpty_nil, Bool.not_true, hall, ht, hsq, hrq]

end Sys2Proof.Machine
end

