-- ==== Sys2Proof/Laws/Operands.lean ====
section
/-! SUPPORT. Scalar operands and results: what reading and writing them does to the state. -/

namespace Sys2Proof.Machine

/-- A pop leaves everything but the queue registers. -/
theorem State.popQ_spec {s s' : State} {n : Nat} {x : Word × Option Nat} (h : s.popQ n = .ok (x, s')) :
    ∃ e r, s.me.regs.q.getD n [] = e :: r ∧ e.val = some x.1 ∧ e.tag = x.2 ∧
      s' = s.setMe { s.me with regs := { s.me.regs with q := vset s.me.regs.q n r } } := by
  simp only [State.popQ] at h
  cases hq : s.me.regs.q.getD n [] with
  | nil => simp [hq, trapWith] at h
  | cons e r =>
    cases hv : e.val with
    | none => simp [hq, hv, trapWith] at h
    | some v =>
      simp only [hq, hv, Except.ok.injEq, Prod.mk.injEq] at h
      obtain ⟨rfl, rfl⟩ := h
      exact ⟨e, r, rfl, hv, rfl, rfl⟩

/-- A register operand reads the register (01 R17). -/
theorem State.readS_reg (s : State) {a : Nat} (h : a < 24) : s.readS a = .ok (s.me.sreg a, s) := by simp [State.readS, h]

/-- Reading an operand leaves everything but the queue registers. -/
theorem State.readS_spec {s s' : State} {a : Nat} {x : Word} (h : s.readS a = .ok (x, s')) :
    ∃ q, s' = s.setMe { s.me with regs := { s.me.regs with q := q } } := by
  by_cases ha : a < 24
  · rw [State.readS_reg s ha] at h
    simp only [Except.ok.injEq, Prod.mk.injEq] at h
    exact ⟨s.me.regs.q, by rw [← h.2]; exact (s.setMe_self).symm⟩
  · rw [State.readS, if_neg ha] at h
    cases hp : s.popQ (a - 24) with
    | error e => simp [hp, Except.map] at h
    | ok r =>
      obtain ⟨y, u⟩ := r
      simp only [hp, Except.map, Except.ok.injEq, Prod.mk.injEq] at h
      obtain ⟨e, l, _, _, _, hu⟩ := State.popQ_spec hp
      exact ⟨_, h.2 ▸ hu⟩

/-- Reading an operand keeps the latch. -/
theorem State.readS_latch {s s' : State} {a : Nat} {x : Word} (h : s.readS a = .ok (x, s')) : s'.latch = s.latch := by
  obtain ⟨q, rfl⟩ := State.readS_spec h; rfl

/-- Reading operands leaves everything but the queue registers. -/
theorem State.readAll_spec {l : List Nat} {s s' : State} {xs : List Word} (h : s.readAll l = .ok (xs, s')) :
    ∃ q, s' = s.setMe { s.me with regs := { s.me.regs with q := q } } := by
  induction l generalizing s xs with
  | nil =>
    simp only [State.readAll, Except.ok.injEq, Prod.mk.injEq] at h
    exact ⟨s.me.regs.q, by rw [← h.2]; exact (s.setMe_self).symm⟩
  | cons a r ih =>
    unfold State.readAll at h
    cases h1 : s.readS a with
    | error e => simp [h1, bind, Except.bind] at h
    | ok p =>
      obtain ⟨x, s1⟩ := p
      simp only [h1, bind, Except.bind] at h
      cases h2 : s1.readAll r with
      | error e => simp [h2] at h
      | ok p2 =>
        obtain ⟨ys, s2⟩ := p2
        simp only [h2, pure, Except.pure, Except.ok.injEq, Prod.mk.injEq] at h
        obtain ⟨q1, rfl⟩ := State.readS_spec h1
        obtain ⟨q2, hq⟩ := ih (h.2 ▸ h2)
        exact ⟨q2, by rw [hq]; simp⟩

/-- Reading operands keeps the latch. -/
theorem State.readAll_latch {s s' : State} {l : List Nat} {xs : List Word} (h : s.readAll l = .ok (xs, s')) : s'.latch = s.latch := by
  obtain ⟨q, rfl⟩ := State.readAll_spec h; rfl

/-- A result for a register other than s0 is pending (01 R13). -/
theorem State.writeS_reg (s : State) {d : Nat} (l : Nat) (v : Word) (h0 : d ≠ 0) (h : d < 24) :
    s.writeS d l v = .ok (s.addPend l (.scalar d v)) := by simp [State.writeS, h0, h]

/-- A result for s0 is discarded (01 R17). -/
theorem State.writeS_zero (s : State) (l : Nat) (v : Word) : s.writeS 0 l v = .ok s := by simp [State.writeS]

/-- A result changes the queue registers and the pending writes alone. -/
theorem State.writeS_spec {s t : State} {d l : Nat} {v : Word} (h : s.writeS d l v = .ok t) :
    ∃ q n p, t = s.setMe { s.me with regs := { s.me.regs with q := q, nextQ := n }, seq := { s.me.seq with pend := s.me.seq.pend ++ p } } := by
  by_cases h0 : d = 0
  · subst h0
    rw [State.writeS_zero] at h
    exact ⟨s.me.regs.q, s.me.regs.nextQ, [], by rw [← Except.ok.inj h, List.append_nil]; exact (s.setMe_self).symm⟩
  · by_cases h1 : d < 24
    · rw [State.writeS_reg s l v h0 h1] at h
      exact ⟨s.me.regs.q, s.me.regs.nextQ, _, (Except.ok.inj h).symm⟩
    · simp only [State.writeS, h0, h1, if_false, State.reserve] at h
      by_cases h2 : 4 ≤ (s.me.regs.q.getD (d - 24) []).length
      · simp [h2, trapWith] at h
      · simp only [h2, if_false, Except.ok.injEq] at h
        refine ⟨vset s.me.regs.q (d - 24) (s.me.regs.q.getD (d - 24) [] ++ [{ id := s.me.regs.nextQ }]), s.me.regs.nextQ + 1,
          [⟨s.me.seq.rn + l - 1, s.latch.slot, .push (d - 24) s.me.regs.nextQ v none⟩], ?_⟩
        rw [← h, State.addPend]
        simp only [State.setMe_me, State.setMe_setMe, State.setMe_latch]

/-- A result keeps the latch. -/
theorem State.writeS_latch {s t : State} {d l : Nat} {v : Word} (h : s.writeS d l v = .ok t) : t.latch = s.latch := by
  obtain ⟨q, n, p, rfl⟩ := State.writeS_spec h; rfl

/-- A lone instruction with nothing but an effect. -/
theorem runSlot_plain {g : Guard} {body : Body} {s t : State} (hs : s.ready g) (hb : body (s.opened g false false []) = .ok t)
    (ht : t.latch = (s.opened g false false []).latch) : runSlot g { body := body } s = .next t.commit := by
  apply runSlot_solo (m := { body := body }) hs rfl rfl rfl (fun q h => nomatch h) rfl hb <;> (try rw [State.rollbackStart]) <;> rw [ht] <;> rfl

end Sys2Proof.Machine
end

