-- ==== Sys2Proof/Laws/Commit.lean ====
section
/-! SUPPORT. The end of a cycle and of a bundle: writes that land, the fetch that follows. -/

namespace Sys2Proof.Machine

/-! ### The end of a cycle (01 R13, R16) -/

@[simp] theorem Core.landSlot_nil (k : Core) (n : Nat) : k.landSlot [] n = k := rfl

/-- Eight slots without a write. -/
theorem Core.landSlots_nil (k : Core) : (List.range 8).foldl (fun c n => c.landSlot [] n) k = k := rfl

/-- Eight slots with one write, in one of them. -/
theorem Core.landSlots_one (k : Core) (p : Pend) (h : p.slot < 8) :
    (List.range 8).foldl (fun c n => c.landSlot [p] n) k = k.land p.w := by
  have hs : ∀ (c : Core) (n : Nat), c.landSlot [p] n = if p.slot = n then c.land p.w else c := by
    intro c n
    unfold Core.landSlot
    by_cases hn : p.slot = n <;> simp [hn]
  have hl : List.range 8 = [0, 1, 2, 3, 4, 5, 6, 7] := rfl
  simp only [hl, List.foldl, hs]
  have : p.slot = 0 ∨ p.slot = 1 ∨ p.slot = 2 ∨ p.slot = 3 ∨ p.slot = 4 ∨ p.slot = 5 ∨ p.slot = 6 ∨ p.slot = 7 := by omega
  rcases this with h | h | h | h | h | h | h | h <;> simp [h]

/-- A cycle that nothing lands in: the core's clock counts on. -/
theorem Core.endCycle_quiet (k : Core) (hp : ∀ p ∈ k.seq.pend, k.seq.rn < p.due) (hl : k.seq.landings = []) :
    k.endCycle = { k with seq := { k.seq with
      rn := k.seq.rn + 1
      passCycles := if k.rpl && (k.seq.passOpen || k.seq.mode = .running) then k.seq.passCycles + 1 else k.seq.passCycles } } := by
  have h1 : (k.seq.pend.filter fun p => decide (p.due ≤ k.seq.rn)) = [] :=
    List.filter_eq_nil_iff.2 fun p h => by have := hp p h; simp; omega
  have h2 : (k.seq.pend.filter fun p => decide (k.seq.rn < p.due)) = k.seq.pend :=
    List.filter_eq_self.2 fun p h => by simp [hp p h]
  simp only [Core.endCycle, hl, List.filter_nil, List.flatMap_nil, List.append_nil, h1, h2, sortOn, List.foldr_nil, Core.landSlots_nil]

/-- A write is no flag write. -/
def Write.noFlag : Write → Prop
  | .flags _ _ => False
  | _ => True

/-- A cycle in which one write is due, nothing else being in flight: it lands. -/
theorem Core.endCycle_one (k : Core) (p : Pend) (hp : k.seq.pend = [p]) (hd : p.due ≤ k.seq.rn) (hs : p.slot < 8)
    (hl : k.seq.landings = []) (hw : p.w.noFlag) :
    k.endCycle = { k.land p.w with seq := { (k.land p.w).seq with
      pend := [], landings := [], rn := k.seq.rn + 1
      passCycles := if k.rpl && (k.seq.passOpen || k.seq.mode = .running) then k.seq.passCycles + 1 else k.seq.passCycles } } := by
  obtain ⟨due, slot, w⟩ := p
  have h1 : ¬ k.seq.rn < due := by simp only at hd; omega
  simp only at hs hd hw
  have h3 : (List.range 8).foldl (fun c n => c.landSlot [(⟨due, slot, w⟩ : Pend)] n) k = k.land w := Core.landSlots_one k _ hs
  cases w <;> first
    | exact hw.elim
    | (simp only [Core.endCycle, hl, hp, List.filter_nil, List.flatMap_nil, List.append_nil, List.filter_cons, hd, decide_true, if_true,
        Bool.not_false, h3, sortOn, List.foldr_nil, Core.landSlots_nil, h1, decide_false, if_false, Bool.false_eq_true])

/-! ### The end of a bundle -/

/-- The fields of a core that a bundle's end sets before the cycle ends; `modes` are the waits that the bundle asks for. -/
def Core.closing (k : Core) (delay : Bool) (modes : List RunMode) : Core :=
  { k with seq := { k.seq with iterCycles := if k.rpl then k.seq.iterCycles else k.seq.iterCycles + 1
                               delayLeft := if delay then 2 else k.seq.delayLeft - 1
                               wait := []
                               waitHonour := false
                               passOpen := k.rpl
                               next := modes } }

/-- The end of a bundle that has neither discarded entries nor consumed poison, on a core without late landings or a rollback, with no granted
request left unused. -/
theorem State.commit_plain (s : State) (hq : s.latch.qclr = []) (hp : s.latch.poisoned = none) (hl : s.me.seq.landings = [])
    (hr : s.me.seq.rollback = none) (hw : s.me.seq.wait = []) (hc : ∀ n, s.latch.control ≠ .softTrap n) :
    s.commit = { s.setMe ((s.me.closing s.latch.hasDelay s.latch.modes).close s.latch.control) with
      latch := { slot := s.latch.slot, verdict := .issued } } := by
  have hlate : (s.me.closing s.latch.hasDelay s.latch.modes).lateLanding = false := by simp [Core.lateLanding, Core.closing, hl]
  have hcl : ∀ k : Core, k = s.me →
      ({ (if k.rpl then k else { k with seq := { k.seq with iterCycles := k.seq.iterCycles + 1 } }) with
        seq := { (if k.rpl then k else { k with seq := { k.seq with iterCycles := k.seq.iterCycles + 1 } }).seq with
          delayLeft := if s.latch.hasDelay then 2 else
            (if k.rpl then k else { k with seq := { k.seq with iterCycles := k.seq.iterCycles + 1 } }).seq.delayLeft - 1
          wait := [], waitHonour := false
          passOpen := (if k.rpl then k else { k with seq := { k.seq with iterCycles := k.seq.iterCycles + 1 } }).rpl
          next := s.latch.modes } } : Core) = s.me.closing s.latch.hasDelay s.latch.modes := by
    rintro k rfl
    unfold Core.closing
    cases h : s.me.rpl <;> simp [h, Core.rpl] <;> simpa [Core.rpl] using h
  have hg : s.giveUnspent s.latch.spent = s := by simp only [State.giveUnspent, hw, List.foldl_nil]
  unfold State.commit
  simp only [hq, hp, Core.qclr, List.foldl, hcl s.me rfl, hlate, hg, Bool.false_eq_true, if_false]
  cases h : s.latch.control with
  | softTrap n => exact absurd h (hc n)
  | _ => simp only [State.closeBundle, State.unpinGone, State.onCore, State.core, State.setMe, Fin.getElem_fin, Vector.getElem_set_self,
      Core.closing, hr, Vector.set_set, State.setCore]

/-- Sequential fetch on a core without loops or a pending transfer. -/
theorem Core.natural_plain (k : Core) (hl : k.seq.loops = []) (ht : k.seq.transfer = none) (hr : k.seq.rollback = none)
    (hp : k.seq.pc.toNat < 8191) :
    k.natural = { k with seq := { k.seq with pc := k.seq.pc + 1 } } := by
  have hpc : BitVec.ofNat 13 (k.seq.pc.toNat + 1) = k.seq.pc + 1 := by
    apply BitVec.eq_of_toNat_eq; simp
  have hlt : k.seq.pc.toNat + 1 < 8192 := by omega
  simp only [Core.natural, ht, Core.loopEnd, hl, Core.loopEnd.plain, closeAt, List.foldl_nil, List.any_nil, Bool.false_eq_true, if_false,
    List.isEmpty_nil, if_true, Core.fetchTo, hlt, hr, hpc]

end Sys2Proof.Machine
end

