-- ==== Sys2Proof/Laws/Effect.lean ====
section
/-! SUPPORT. The state in which an instruction takes effect, its operands being read: what of it is as in the state where it issues. -/

namespace Sys2Proof.Machine

/-! ### The handle cache -/

theorem Table.get_append {α : Type} (a b : Table α) (h : Nat) : Table.get (a ++ b) h = (Table.get a h).or (Table.get b h) := by
  unfold Table.get
  rw [List.find?_append]
  cases a.find? fun p => decide (p.1 = h) <;> rfl

theorem Table.get_filter_key {α : Type} (t : Table α) (p : Nat → Bool) (h : Nat) :
    Table.get (t.filter fun x => p x.1) h = if p h then Table.get t h else none := by
  induction t with
  | nil => simp [Table.get]
  | cons x r ih =>
    unfold Table.get at *
    by_cases hx : x.1 = h
    · by_cases hp : p x.1
      · have hh : p h = true := hx ▸ hp
        simp [List.filter_cons, List.find?_cons, hp, hx, hh]
      · have hh : p h = false := by simpa [hx] using hp
        rw [List.filter_cons, if_neg hp, ih]
        simp [hh]
    · by_cases hp : p x.1
      · simp only [List.filter_cons, hp, if_true, List.find?_cons, hx, decide_false]
        exact ih
      · rw [List.filter_cons, if_neg hp, ih]
        simp [List.find?_cons, hx]

/-- The order of the handle cache changes what no lookup finds (11 R227). -/
theorem Core.touch_get (k : Core) (u : List Nat) (h : Nat) :
    Table.get (k.touch u).sto.hcache h = Table.get k.sto.hcache h := by
  unfold Core.touch
  split
  · rfl
  · simp only [Table.get_append, Table.get_filter_key (p := fun x => u.contains x),
      Table.get_filter_key (p := fun x => !u.contains x)]
    cases u.contains h <;> simp

/-! ### States alike -/

/-- Two states that differ in the queue registers, the order of the handle cache and the entry region of the stepped core, and in the
latch, alone. -/
def State.alike (s t : State) : Prop :=
  ∃ q hc er l, (∀ h, Table.get hc h = Table.get s.me.sto.hcache h) ∧
    t = { s.setMe { s.me with regs := { s.me.regs with q := q }, sto := { s.me.sto with hcache := hc },
                              seq := { s.me.seq with entryRegion := er } } with latch := l }

theorem State.alike_opened (s : State) (g : Guard) (e d : Bool) (u : List Nat) : s.alike (s.opened g e d u) := by
  refine ⟨s.me.regs.q, ((if e then { s.me with seq := { s.me.seq with entryRegion := false } } else s.me).touch u).sto.hcache,
    if e then false else s.me.seq.entryRegion, (s.opened g e d u).latch, ?_, ?_⟩
  · intro h
    rw [Core.touch_get]
    split <;> rfl
  · simp only [State.opened, State.begin, State.inPhase, State.noteIter, Core.touch]
    cases e <;> cases u <;> rfl

theorem State.opened_latch (s : State) (g : Guard) (e d : Bool) (u : List Nat) :
    (s.opened g e d u).latch = { phase := .apply, slot := s.latch.slot, hasDelay := d, iter := s.me.iterOf g } := by
  have h : (s.opened g e d u).latch =
    { phase := .apply, slot := s.latch.slot, hasDelay := d, iter := (s.begin e d u).me.iterOf g } := rfl
  rw [h]
  simp only [Core.iterOf, Core.passNo, State.begin_seq]

theorem State.alike_readS {s t u : State} {a : Nat} {x : Word} (h : s.alike t) (hr : t.readS a = .ok (x, u)) : s.alike u := by
  obtain ⟨q, hc, er, l, hg, rfl⟩ := h
  obtain ⟨q', rfl⟩ := State.readS_spec hr
  exact ⟨q', hc, er, l, hg, by simp only [State.me, State.setMe, Vector.set_set, Fin.getElem_fin, Vector.getElem_set_self]⟩

theorem State.alike_readAll {s t u : State} {l : List Nat} {xs : List Word} (h : s.alike t) (hr : t.readAll l = .ok (xs, u)) :
    s.alike u := by
  obtain ⟨q, hc, er, la, hg, rfl⟩ := h
  obtain ⟨q', rfl⟩ := State.readAll_spec hr
  exact ⟨q', hc, er, la, hg, by simp only [State.me, State.setMe, Vector.set_set, Fin.getElem_fin, Vector.getElem_set_self]⟩

section
variable {s t : State} (h : s.alike t)
include h

theorem State.alike.me : ∃ q hc er, (∀ h, Table.get hc h = Table.get s.me.sto.hcache h) ∧
    t.me = { s.me with regs := { s.me.regs with q := q }, sto := { s.me.sto with hcache := hc }, seq := { s.me.seq with entryRegion := er } } := by
  obtain ⟨q, hc, er, l, hg, rfl⟩ := h
  exact ⟨q, hc, er, hg, by simp only [State.me, State.setMe, Fin.getElem_fin, Vector.getElem_set_self]⟩

theorem State.alike.clock : t.clock = s.clock := by obtain ⟨q, hc, er, l, hg, rfl⟩ := h; rfl
theorem State.alike.cur : t.cur = s.cur := by obtain ⟨q, hc, er, l, hg, rfl⟩ := h; rfl
theorem State.alike.free : t.free = s.free := by obtain ⟨q, hc, er, l, hg, rfl⟩ := h; rfl
theorem State.alike.msgs : t.msgs = s.msgs := by obtain ⟨q, hc, er, l, hg, rfl⟩ := h; rfl
theorem State.alike.nextMsg : t.nextMsg = s.nextMsg := by obtain ⟨q, hc, er, l, hg, rfl⟩ := h; rfl
theorem State.alike.launches : t.launches = s.launches := by obtain ⟨q, hc, er, l, hg, rfl⟩ := h; rfl
theorem State.alike.ctxs : t.ctxs = s.ctxs := by obtain ⟨q, hc, er, l, hg, rfl⟩ := h; rfl
theorem State.alike.groups : t.groups = s.groups := by obtain ⟨q, hc, er, l, hg, rfl⟩ := h; rfl
theorem State.alike.dies : t.dies = s.dies := by obtain ⟨q, hc, er, l, hg, rfl⟩ := h; rfl
theorem State.alike.faces : t.faces = s.faces := by obtain ⟨q, hc, er, l, hg, rfl⟩ := h; rfl
theorem State.alike.vec : t.me.vec = s.me.vec := by obtain ⟨q, hc, er, hg, hm⟩ := h.me; rw [hm]
theorem State.alike.sys : t.me.sys = s.me.sys := by obtain ⟨q, hc, er, hg, hm⟩ := h.me; rw [hm]
theorem State.alike.eng : t.me.eng = s.me.eng := by obtain ⟨q, hc, er, hg, hm⟩ := h.me; rw [hm]
theorem State.alike.run : t.me.run = s.me.run := by obtain ⟨q, hc, er, hg, hm⟩ := h.me; rw [hm]
theorem State.alike.regsS : t.me.regs.s = s.me.regs.s := by obtain ⟨q, hc, er, hg, hm⟩ := h.me; rw [hm]
theorem State.alike.regsP : t.me.regs.p = s.me.regs.p := by obtain ⟨q, hc, er, hg, hm⟩ := h.me; rw [hm]
theorem State.alike.nextQ : t.me.regs.nextQ = s.me.regs.nextQ := by obtain ⟨q, hc, er, hg, hm⟩ := h.me; rw [hm]
theorem State.alike.pc : t.me.seq.pc = s.me.seq.pc := by obtain ⟨q, hc, er, hg, hm⟩ := h.me; rw [hm]
theorem State.alike.rn : t.me.seq.rn = s.me.seq.rn := by obtain ⟨q, hc, er, hg, hm⟩ := h.me; rw [hm]
theorem State.alike.pend : t.me.seq.pend = s.me.seq.pend := by obtain ⟨q, hc, er, hg, hm⟩ := h.me; rw [hm]
theorem State.alike.landings : t.me.seq.landings = s.me.seq.landings := by obtain ⟨q, hc, er, hg, hm⟩ := h.me; rw [hm]
theorem State.alike.loops : t.me.seq.loops = s.me.seq.loops := by obtain ⟨q, hc, er, hg, hm⟩ := h.me; rw [hm]
theorem State.alike.spad : t.me.sto.spad = s.me.sto.spad := by obtain ⟨q, hc, er, hg, hm⟩ := h.me; rw [hm]
theorem State.alike.poisonList : t.me.sto.poison = s.me.sto.poison := by obtain ⟨q, hc, er, hg, hm⟩ := h.me; rw [hm]
theorem State.alike.tags : t.me.sto.tags = s.me.sto.tags := by obtain ⟨q, hc, er, hg, hm⟩ := h.me; rw [hm]
theorem State.alike.rplOff : t.me.seq.rplOff = s.me.seq.rplOff := by obtain ⟨q, hc, er, hg, hm⟩ := h.me; rw [hm]
theorem State.alike.rpl : t.me.rpl = s.me.rpl := by simp only [Core.rpl, h.loops, h.rplOff]
theorem State.alike.holds : t.me.holds = s.me.holds := by simp only [Core.holds, h.rpl, h.sys]
theorem State.alike.sreg (n : Nat) : t.me.sreg n = s.me.sreg n := by simp only [Core.sreg, h.regsS]
theorem State.alike.pred (n : Nat) : t.me.pred n = s.me.pred n := by simp only [Core.pred, h.regsP]
theorem State.alike.ctx : t.me.ctx = s.me.ctx := by simp only [Core.ctx, h.run]
theorem State.alike.bytes (a n : Nat) : t.me.bytes a n = s.me.bytes a n := by simp only [Core.bytes, Core.byte, h.eng, h.spad]
theorem State.alike.poison : t.me.poison = s.me.poison := by simp only [Core.poison, h.eng, h.poisonList]

theorem State.alike.tableEntry (n : Nat) : t.tableEntry t.me n = s.tableEntry s.me n := by
  simp only [State.tableEntry, State.pageOf, h.run, h.ctxs, h.launches]

theorem State.alike.entry (n : Nat) : t.entry t.me n = s.entry s.me n := by
  have hg : Table.get t.me.sto.hcache n = Table.get s.me.sto.hcache n := by
    obtain ⟨q, hc, er, hg, hm⟩ := h.me
    rw [hm]; exact hg n
  simp only [State.entry, hg, h.tableEntry]

end

end Sys2Proof.Machine
end

