-- ==== Sys2Proof/Laws/Memory.lean ====
section
/-! SUPPORT. Memories: every write keeps the canonical form; what a byte reads after a write. -/

namespace Sys2Proof.Machine

/-- An address above the bound of a memory's form. -/
def aboveBound (lo : Option Nat) (x : Nat) : Prop := ∀ l, lo = some l → l < x

theorem Memory.okFrom_cons (lo : Option Nat) (a : Nat) (b : Byte) (r : Memory) :
    Memory.okFrom lo ((a, b) :: r) = true ↔ aboveBound lo a ∧ b ≠ 0 ∧ Memory.okFrom (some a) r = true := by
  cases lo <;> simp [Memory.okFrom, aboveBound, and_assoc]

theorem Memory.okFrom_weaken {lo lo' : Option Nat} {m : Memory} (h : Memory.okFrom lo m = true)
    (hl : ∀ x, aboveBound lo x → aboveBound lo' x) : Memory.okFrom lo' m = true := by
  cases m with
  | nil => rfl
  | cons c r =>
    obtain ⟨a, b⟩ := c
    rw [Memory.okFrom_cons] at h ⊢
    exact ⟨hl a h.1, h.2⟩

theorem Memory.okFrom_tail {lo : Option Nat} {a : Nat} {r : Memory} (h : Memory.okFrom (some a) r = true) (ha : aboveBound lo a) :
    Memory.okFrom lo r = true :=
  Memory.okFrom_weaken h fun _ hx l hl => Nat.lt_trans (ha l hl) (hx a rfl)

/-- Writing one byte keeps the canonical form. -/
theorem Memory.okFrom_write {lo : Option Nat} {m : Memory} {x : Nat} {v : Byte} (h : Memory.okFrom lo m = true)
    (hx : aboveBound lo x) : Memory.okFrom lo (m.write x v) = true := by
  induction m generalizing lo with
  | nil =>
    unfold Memory.write
    split
    · rfl
    · exact (Memory.okFrom_cons ..).2 ⟨hx, ‹_›, rfl⟩
  | cons c r ih =>
    obtain ⟨a, b⟩ := c
    have h' := (Memory.okFrom_cons lo a b r).1 h
    unfold Memory.write
    split
    · subst_vars
      split
      · exact Memory.okFrom_tail h'.2.2 hx
      · exact (Memory.okFrom_cons ..).2 ⟨hx, ‹_›, h'.2.2⟩
    · split
      · split
        · exact h
        · refine (Memory.okFrom_cons ..).2 ⟨hx, ‹_›, (Memory.okFrom_cons ..).2 ⟨?_, h'.2⟩⟩
          rintro l ⟨⟩; assumption
      · refine (Memory.okFrom_cons ..).2 ⟨h'.1, h'.2.1, ih h'.2.2 ?_⟩
        rintro l ⟨⟩; omega

@[simp] theorem Memory.wf_nil : Memory.wf [] = true := rfl

/-- Writing one byte keeps the canonical form. -/
theorem Memory.wf_write {m : Memory} (h : m.wf = true) (x : Nat) (v : Byte) : (m.write x v).wf = true :=
  Memory.okFrom_write h fun _ hl => by cases hl

/-- Writing bytes upwards keeps the canonical form. -/
theorem Memory.wf_writeN {m : Memory} (h : m.wf = true) (a : Nat) (bs : List Byte) : (m.writeN a bs).wf = true := by
  induction bs generalizing m a with
  | nil => exact h
  | cons b r ih => exact ih (Memory.wf_write h a b) (a + 1)

/-- Writing listed cells keeps the canonical form. -/
theorem Memory.wf_writeCells {m : Memory} (h : m.wf = true) (cs : List Host.Cell) : (m.writeCells cs).wf = true := by
  induction cs generalizing m with
  | nil => exact h
  | cons c r ih => exact ih (Memory.wf_write h c.1 c.2)

/-- Keeping a part of the cells keeps the canonical form. -/
theorem Memory.wf_filter {m : Memory} (h : m.wf = true) (p : Host.Cell → Bool) : Memory.wf (m.filter p) = true := by
  have aux : ∀ (lo : Option Nat) (m : Memory), Memory.okFrom lo m = true → Memory.okFrom lo (m.filter p) = true := by
    intro lo m
    induction m generalizing lo with
    | nil => exact fun h => h
    | cons c r ih =>
      obtain ⟨a, b⟩ := c
      intro h
      have h' := (Memory.okFrom_cons lo a b r).1 h
      rw [List.filter_cons]
      split
      · exact (Memory.okFrom_cons ..).2 ⟨h'.1, h'.2.1, ih _ h'.2.2⟩
      · exact Memory.okFrom_tail (ih _ h'.2.2) h'.1
  exact aux _ _ h

/-- Below everything listed a memory reads zero. -/
theorem Memory.read_below {lo x : Nat} {m : Memory} (h : Memory.okFrom (some lo) m = true) (hx : x ≤ lo) : m.read x = 0 := by
  cases m with
  | nil => rfl
  | cons c r =>
    obtain ⟨a, b⟩ := c
    have ha := ((Memory.okFrom_cons (some lo) a b r).1 h).1 lo rfl
    have hne : ¬ a = x := by omega
    have hlt : x < a := by omega
    simp [Memory.read, hne, hlt]

/-- A byte reads as the value just written to it. -/
theorem Memory.read_write_same {m : Memory} (h : m.wf = true) (x : Nat) (v : Byte) : (m.write x v).read x = v := by
  have aux : ∀ (lo : Option Nat) (m : Memory), Memory.okFrom lo m = true → (m.write x v).read x = v := by
    intro lo m
    induction m generalizing lo with
    | nil =>
      intro _
      unfold Memory.write
      split
      · subst_vars; rfl
      · simp [Memory.read]
    | cons c r ih =>
      obtain ⟨a, b⟩ := c
      intro h
      have h' := (Memory.okFrom_cons lo a b r).1 h
      unfold Memory.write
      split
      · subst_vars
        split
        · subst_vars; exact Memory.read_below h'.2.2 (Nat.le_refl _)
        · simp [Memory.read]
      · split
        · split
          · subst_vars
            have : ¬ a = x := by omega
            simp [Memory.read, *]
          · simp [Memory.read]
        · simp only [Memory.read]
          rw [if_neg (by assumption), if_neg (by assumption)]
          exact ih _ h'.2.2
  exact aux none m h

/-- A byte elsewhere reads as before. -/
theorem Memory.read_write_ne {m : Memory} (h : m.wf = true) (x y : Nat) (v : Byte) (hy : y ≠ x) :
    (m.write x v).read y = m.read y := by
  have aux : ∀ (lo : Option Nat) (m : Memory), Memory.okFrom lo m = true → (m.write x v).read y = m.read y := by
    intro lo m
    induction m generalizing lo with
    | nil =>
      intro _
      have : ¬ x = y := fun e => hy e.symm
      unfold Memory.write
      split
      · rfl
      · simp [Memory.read, this]
    | cons c r ih =>
      obtain ⟨a, b⟩ := c
      intro h
      have h' := (Memory.okFrom_cons lo a b r).1 h
      unfold Memory.write
      split
      · subst_vars
        have ha : ¬ a = y := fun e => hy e.symm
        split
        · by_cases hlt : y < a
          · rw [Memory.read_below h'.2.2 (Nat.le_of_lt hlt)]; simp [Memory.read, ha, hlt]
          · simp [Memory.read, ha, hlt]
        · simp [Memory.read, ha]
      · split
        · split
          · rfl
          · have hxy : ¬ x = y := fun e => hy e.symm
            by_cases hlt : y < x
            · have h1 : ¬ a = y := by omega
              have h2 : y < a := by omega
              simp [Memory.read, hxy, hlt, h1, h2]
            · simp [Memory.read, hxy, hlt]
        · simp only [Memory.read]; rw [ih _ h'.2.2]
  exact aux none m h

/-- A byte outside a run of written bytes reads as before. -/
theorem Memory.read_writeN_out {m : Memory} (h : m.wf = true) (a : Nat) (bs : List Byte) (y : Nat) (hy : y < a ∨ a + bs.length ≤ y) :
    (m.writeN a bs).read y = m.read y := by
  induction bs generalizing m a with
  | nil => rfl
  | cons b r ih =>
    simp only [List.length_cons] at hy
    rw [Memory.writeN, ih (Memory.wf_write h a b) (a + 1) (by omega), Memory.read_write_ne h a y b (by omega)]

/-- A byte within a run of written bytes reads as written. -/
theorem Memory.read_writeN_in {m : Memory} (h : m.wf = true) (a : Nat) (bs : List Byte) (i : Nat) (hi : i < bs.length) :
    (m.writeN a bs).read (a + i) = bs[i] := by
  induction bs generalizing m a i with
  | nil => simp at hi
  | cons b r ih =>
    cases i with
    | zero =>
      rw [Memory.writeN, Memory.read_writeN_out (Memory.wf_write h a b) _ _ _ (by omega)]
      exact Memory.read_write_same h a b
    | succ i =>
      have := ih (Memory.wf_write h a b) (a + 1) i (by simpa using hi)
      rw [Memory.writeN]
      simpa [Nat.add_assoc, Nat.add_comm 1 i] using this

/-- A byte that no listed cell names reads as before. -/
theorem Memory.read_writeCells_out {m : Memory} (h : m.wf = true) (cs : List Host.Cell) (y : Nat) (hy : ∀ c ∈ cs, c.1 ≠ y) :
    (m.writeCells cs).read y = m.read y := by
  induction cs generalizing m with
  | nil => rfl
  | cons c r ih =>
    rw [Memory.writeCells, ih (Memory.wf_write h c.1 c.2) fun d hd => hy d (by simp [hd]),
      Memory.read_write_ne h c.1 y c.2 fun e => hy c (by simp) e.symm]

end Sys2Proof.Machine
end

