-- ==== Sys2Proof/Laws/PerInstr.lean ====
section
/-! SUPPORT. Encoding and decoding agree on every well-formed instruction (02 R31 to R48), one lemma for each constructor. -/

namespace Sys2Proof

theorem fb_eq {n : Nat} {w lo : Nat} {x : BitVec n} (h : w / 2 ^ lo % 2 ^ n = x.toNat) : fb w lo n = x :=
  BitVec.eq_of_toNat_eq (by rw [fb, BitVec.toNat_ofNat, h])

theorem guardOf_eq {w : Nat} {g : Guard} (h : w / 2 ^ 24 % 2 ^ 1 = g.neg.toNat) (k : w / 2 ^ 21 % 2 ^ 3 = g.pred.toNat) :
    guardOf w = g := by
  cases g
  rw [guardOf, fb_eq h, fb_eq k]

theorem fb_at {n w lo : Nat} {x : BitVec n} (hi r : Nat) (hr : r < 2 ^ lo) (h : (hi * 2 ^ n + x.toNat) * 2 ^ lo + r = w) :
    fb w lo n = x := by
  apply BitVec.eq_of_toNat_eq
  rw [fb, BitVec.toNat_ofNat, ← h, Nat.add_comm, Nat.add_mul_div_right _ _ (Nat.two_pow_pos lo), Nat.div_eq_of_lt hr,
    Nat.zero_add, Nat.add_comm, Nat.add_mul_mod_self_right, Nat.mod_eq_of_lt x.isLt]

theorem optOf_eq {w r : Nat} {e : EngOpt} (h : encOpt e + r * 2 ^ 13 + w % 8 = w) : optOf w = e := by
  cases e
  simp only [encOpt] at h
  simp only [optOf, EngOpt.mk.injEq]
  refine ⟨?_, ?_, ?_, ?_, ?_, ?_, ?_, ?_, ?_⟩ <;> exact fb_eq (by omega)

theorem encOpt_lt (e : EngOpt) : encOpt e < 2 ^ 13 ∧ encOpt e % 8 = 0 := by
  simp only [encOpt]
  omega

theorem checkWf_of {e : Except DecodeErr Instr} {i : Instr} (h : e = .ok i) (k : i.wf = true) : checkWf e = .ok i := by
  rw [h]
  exact if_pos k

/-- Decoding the encoding of a well-formed instruction in its slot's class gives it back; an event has no word. -/
def Laws.Encoding.Statement (i : Instr) : Prop :=
  ∀ c, i.slotClass = some c → i.wf = true → encode i < 2 ^ 32 ∧ decodeSlot c (encode i) = .ok i

theorem mk_sa {i : Instr} (hc : i.slotClass = some .sa) (h : i.wf = true → encode i < 2 ^ 32 ∧ rawScalar (encode i) = .ok i) :
    Laws.Encoding.Statement i := by
  intro c k wf
  rw [hc] at k
  cases k
  exact ⟨(h wf).1, checkWf_of (h wf).2 wf⟩

theorem mk_vector {i : Instr} (hc : i.slotClass = some .vector) (h : i.wf = true → encode i < 2 ^ 32 ∧ rawVector (encode i) = .ok i) :
    Laws.Encoding.Statement i := by
  intro c k wf
  rw [hc] at k
  cases k
  exact ⟨(h wf).1, checkWf_of (h wf).2 wf⟩

theorem mk_fn {i : Instr} (hc : i.slotClass = some .fn) (h : i.wf = true → encode i < 2 ^ 32 ∧ rawFn (encode i) = .ok i) :
    Laws.Encoding.Statement i := by
  intro c k wf
  rw [hc] at k
  cases k
  exact ⟨(h wf).1, checkWf_of (h wf).2 wf⟩

theorem mk_mem {i : Instr} (hc : i.slotClass = some .mem) (h : i.wf = true → encode i < 2 ^ 32 ∧ rawMem (encode i) = .ok i) :
    Laws.Encoding.Statement i := by
  intro c k wf
  rw [hc] at k
  cases k
  exact ⟨(h wf).1, checkWf_of (h wf).2 wf⟩

theorem Laws.Encoding.nop : Laws.Encoding.Statement .nop := by
  intro cc hc _
  cases hc
  exact ⟨by decide, by rfl⟩

theorem layout0 {op word : Nat} (g : Guard) (d : BitVec 5) (a : BitVec 5) (b : BitVec 5) (ho : op < 128)
    (hw : op * 2 ^ 25 + (g.neg.toNat * 2 ^ 24 + g.pred.toNat * 2 ^ 21) + 0 + (d.toNat * 2 ^ 16 + (a.toNat * 2 ^ 11 + (b.toNat * 2 ^ 6 + 0))) = word) :
    word < 2 ^ 32 ∧ fld word 25 7 = op ∧ (fld word 0 6 = 0) ∧ guardOf word = g ∧ fb word 16 5 = d ∧ fb word 11 5 = a ∧ fb word 6 5 = b := by
  exact ⟨by omega, by unfold fld; omega, by unfold fld; omega, guardOf_eq (by omega) (by omega), fb_eq (by omega), fb_eq (by omega), fb_eq (by omega)⟩

theorem rawScalar_add {word : Nat} (h : fld word 25 7 = 1) :
    rawScalar word = if fld word 0 6 = 0 then .ok (.add (guardOf word) (fb word 16 5) (fb word 11 5) (fb word 6 5)) else .error .reserved := by
  unfold rawScalar
  rw [h]
  rfl

theorem Laws.Encoding.add (g : Guard) (d : BitVec 5) (a : BitVec 5) (b : BitVec 5) : Laws.Encoding.Statement (.add g d a b) := by
  obtain ⟨hl, ho, h0, h1, h2, h3, h4⟩ := layout0 g d a b (op := 1) (by decide) rfl
  exact mk_sa rfl fun _ => ⟨hl, (rawScalar_add ho).trans (by rw [if_pos h0, h1, h2, h3, h4])⟩

theorem rawScalar_sub {word : Nat} (h : fld word 25 7 = 2) :
    rawScalar word = if fld word 0 6 = 0 then .ok (.sub (guardOf word) (fb word 16 5) (fb word 11 5) (fb word 6 5)) else .error .reserved := by
  unfold rawScalar
  rw [h]
  rfl

theorem Laws.Encoding.sub (g : Guard) (d : BitVec 5) (a : BitVec 5) (b : BitVec 5) : Laws.Encoding.Statement (.sub g d a b) := by
  obtain ⟨hl, ho, h0, h1, h2, h3, h4⟩ := layout0 g d a b (op := 2) (by decide) rfl
  exact mk_sa rfl fun _ => ⟨hl, (rawScalar_sub ho).trans (by rw [if_pos h0, h1, h2, h3, h4])⟩

theorem rawScalar_mul {word : Nat} (h : fld word 25 7 = 3) :
    rawScalar word = if fld word 0 6 = 0 then .ok (.mul (guardOf word) (fb word 16 5) (fb word 11 5) (fb word 6 5)) else .error .reserved := by
  unfold rawScalar
  rw [h]
  rfl

theorem Laws.Encoding.mul (g : Guard) (d : BitVec 5) (a : BitVec 5) (b : BitVec 5) : Laws.Encoding.Statement (.mul g d a b) := by
  obtain ⟨hl, ho, h0, h1, h2, h3, h4⟩ := layout0 g d a b (op := 3) (by decide) rfl
  exact mk_sa rfl fun _ => ⟨hl, (rawScalar_mul ho).trans (by rw [if_pos h0, h1, h2, h3, h4])⟩

theorem rawScalar_mulh {word : Nat} (h : fld word 25 7 = 4) :
    rawScalar word = if fld word 0 6 = 0 then .ok (.mulh (guardOf word) (fb word 16 5) (fb word 11 5) (fb word 6 5)) else .error .reserved := by
  unfold rawScalar
  rw [h]
  rfl

theorem Laws.Encoding.mulh (g : Guard) (d : BitVec 5) (a : BitVec 5) (b : BitVec 5) : Laws.Encoding.Statement (.mulh g d a b) := by
  obtain ⟨hl, ho, h0, h1, h2, h3, h4⟩ := layout0 g d a b (op := 4) (by decide) rfl
  exact mk_sa rfl fun _ => ⟨hl, (rawScalar_mulh ho).trans (by rw [if_pos h0, h1, h2, h3, h4])⟩

theorem rawScalar_mulhu {word : Nat} (h : fld word 25 7 = 5) :
    rawScalar word = if fld word 0 6 = 0 then .ok (.mulhu (guardOf word) (fb word 16 5) (fb word 11 5) (fb word 6 5)) else .error .reserved := by
  unfold rawScalar
  rw [h]
  rfl

theorem Laws.Encoding.mulhu (g : Guard) (d : BitVec 5) (a : BitVec 5) (b : BitVec 5) : Laws.Encoding.Statement (.mulhu g d a b) := by
  obtain ⟨hl, ho, h0, h1, h2, h3, h4⟩ := layout0 g d a b (op := 5) (by decide) rfl
  exact mk_sa rfl fun _ => ⟨hl, (rawScalar_mulhu ho).trans (by rw [if_pos h0, h1, h2, h3, h4])⟩

theorem rawScalar_div {word : Nat} (h : fld word 25 7 = 6) :
    rawScalar word = if fld word 0 6 = 0 then .ok (.div (guardOf word) (fb word 16 5) (fb word 11 5) (fb word 6 5)) else if fld word 0 6 = 1 then .ok (.divU (guardOf word) (fb word 16 5) (fb word 11 5) (fb word 6 5)) else .error .reserved := by
  unfold rawScalar
  rw [h]
  rfl

theorem Laws.Encoding.div (g : Guard) (d : BitVec 5) (a : BitVec 5) (b : BitVec 5) : Laws.Encoding.Statement (.div g d a b) := by
  obtain ⟨hl, ho, h0, h1, h2, h3, h4⟩ := layout0 g d a b (op := 6) (by decide) rfl
  exact mk_sa rfl fun _ => ⟨hl, (rawScalar_div ho).trans (by rw [if_pos h0, h1, h2, h3, h4])⟩

theorem layout1 {op word : Nat} (g : Guard) (d : BitVec 5) (a : BitVec 5) (b : BitVec 5) (ho : op < 128)
    (hw : op * 2 ^ 25 + (g.neg.toNat * 2 ^ 24 + g.pred.toNat * 2 ^ 21) + 1 + (d.toNat * 2 ^ 16 + (a.toNat * 2 ^ 11 + (b.toNat * 2 ^ 6 + 0))) = word) :
    word < 2 ^ 32 ∧ fld word 25 7 = op ∧ ¬(fld word 0 6 = 0) ∧ (fld word 0 6 = 1) ∧ guardOf word = g ∧ fb word 16 5 = d ∧ fb word 11 5 = a ∧ fb word 6 5 = b := by
  exact ⟨by omega, by unfold fld; omega, by unfold fld; omega, by unfold fld; omega, guardOf_eq (by omega) (by omega), fb_eq (by omega), fb_eq (by omega), fb_eq (by omega)⟩

theorem rawScalar_divU {word : Nat} (h : fld word 25 7 = 6) :
    rawScalar word = if fld word 0 6 = 0 then .ok (.div (guardOf word) (fb word 16 5) (fb word 11 5) (fb word 6 5)) else if fld word 0 6 = 1 then .ok (.divU (guardOf word) (fb word 16 5) (fb word 11 5) (fb word 6 5)) else .error .reserved := by
  unfold rawScalar
  rw [h]
  rfl

theorem Laws.Encoding.divU (g : Guard) (d : BitVec 5) (a : BitVec 5) (b : BitVec 5) : Laws.Encoding.Statement (.divU g d a b) := by
  obtain ⟨hl, ho, h0, h1, h2, h3, h4, h5⟩ := layout1 g d a b (op := 6) (by decide) rfl
  exact mk_sa rfl fun _ => ⟨hl, (rawScalar_divU ho).trans (by rw [if_neg h0, if_pos h1, h2, h3, h4, h5])⟩

theorem rawScalar_rem {word : Nat} (h : fld word 25 7 = 7) :
    rawScalar word = if fld word 0 6 = 0 then .ok (.rem (guardOf word) (fb word 16 5) (fb word 11 5) (fb word 6 5)) else if fld word 0 6 = 1 then .ok (.remU (guardOf word) (fb word 16 5) (fb word 11 5) (fb word 6 5)) else .error .reserved := by
  unfold rawScalar
  rw [h]
  rfl

theorem Laws.Encoding.rem (g : Guard) (d : BitVec 5) (a : BitVec 5) (b : BitVec 5) : Laws.Encoding.Statement (.rem g d a b) := by
  obtain ⟨hl, ho, h0, h1, h2, h3, h4⟩ := layout0 g d a b (op := 7) (by decide) rfl
  exact mk_sa rfl fun _ => ⟨hl, (rawScalar_rem ho).trans (by rw [if_pos h0, h1, h2, h3, h4])⟩

theorem rawScalar_remU {word : Nat} (h : fld word 25 7 = 7) :
    rawScalar word = if fld word 0 6 = 0 then .ok (.rem (guardOf word) (fb word 16 5) (fb word 11 5) (fb word 6 5)) else if fld word 0 6 = 1 then .ok (.remU (guardOf word) (fb word 16 5) (fb word 11 5) (fb word 6 5)) else .error .reserved := by
  unfold rawScalar
  rw [h]
  rfl

theorem Laws.Encoding.remU (g : Guard) (d : BitVec 5) (a : BitVec 5) (b : BitVec 5) : Laws.Encoding.Statement (.remU g d a b) := by
  obtain ⟨hl, ho, h0, h1, h2, h3, h4, h5⟩ := layout1 g d a b (op := 7) (by decide) rfl
  exact mk_sa rfl fun _ => ⟨hl, (rawScalar_remU ho).trans (by rw [if_neg h0, if_pos h1, h2, h3, h4, h5])⟩

theorem rawScalar_and {word : Nat} (h : fld word 25 7 = 8) :
    rawScalar word = if fld word 0 6 = 0 then .ok (.and (guardOf word) (fb word 16 5) (fb word 11 5) (fb word 6 5)) else .error .reserved := by
  unfold rawScalar
  rw [h]
  rfl

theorem Laws.Encoding.and (g : Guard) (d : BitVec 5) (a : BitVec 5) (b : BitVec 5) : Laws.Encoding.Statement (.and g d a b) := by
  obtain ⟨hl, ho, h0, h1, h2, h3, h4⟩ := layout0 g d a b (op := 8) (by decide) rfl
  exact mk_sa rfl fun _ => ⟨hl, (rawScalar_and ho).trans (by rw [if_pos h0, h1, h2, h3, h4])⟩

theorem rawScalar_or {word : Nat} (h : fld word 25 7 = 9) :
    rawScalar word = if fld word 0 6 = 0 then .ok (.or (guardOf word) (fb word 16 5) (fb word 11 5) (fb word 6 5)) else .error .reserved := by
  unfold rawScalar
  rw [h]
  rfl

theorem Laws.Encoding.or (g : Guard) (d : BitVec 5) (a : BitVec 5) (b : BitVec 5) : Laws.Encoding.Statement (.or g d a b) := by
  obtain ⟨hl, ho, h0, h1, h2, h3, h4⟩ := layout0 g d a b (op := 9) (by decide) rfl
  exact mk_sa rfl fun _ => ⟨hl, (rawScalar_or ho).trans (by rw [if_pos h0, h1, h2, h3, h4])⟩

theorem rawScalar_xor {word : Nat} (h : fld word 25 7 = 10) :
    rawScalar word = if fld word 0 6 = 0 then .ok (.xor (guardOf word) (fb word 16 5) (fb word 11 5) (fb word 6 5)) else .error .reserved := by
  unfold rawScalar
  rw [h]
  rfl

theorem Laws.Encoding.xor (g : Guard) (d : BitVec 5) (a : BitVec 5) (b : BitVec 5) : Laws.Encoding.Statement (.xor g d a b) := by
  obtain ⟨hl, ho, h0, h1, h2, h3, h4⟩ := layout0 g d a b (op := 10) (by decide) rfl
  exact mk_sa rfl fun _ => ⟨hl, (rawScalar_xor ho).trans (by rw [if_pos h0, h1, h2, h3, h4])⟩

theorem rawScalar_shl {word : Nat} (h : fld word 25 7 = 11) :
    rawScalar word = if fld word 0 6 = 0 then .ok (.shl (guardOf word) (fb word 16 5) (fb word 11 5) (fb word 6 5)) else .error .reserved := by
  unfold rawScalar
  rw [h]
  rfl

theorem Laws.Encoding.shl (g : Guard) (d : BitVec 5) (a : BitVec 5) (b : BitVec 5) : Laws.Encoding.Statement (.shl g d a b) := by
  obtain ⟨hl, ho, h0, h1, h2, h3, h4⟩ := layout0 g d a b (op := 11) (by decide) rfl
  exact mk_sa rfl fun _ => ⟨hl, (rawScalar_shl ho).trans (by rw [if_pos h0, h1, h2, h3, h4])⟩

theorem rawScalar_shr {word : Nat} (h : fld word 25 7 = 12) :
    rawScalar word = if fld word 0 6 = 0 then .ok (.shr (guardOf word) (fb word 16 5) (fb word 11 5) (fb word 6 5)) else .error .reserved := by
  unfold rawScalar
  rw [h]
  rfl

theorem Laws.Encoding.shr (g : Guard) (d : BitVec 5) (a : BitVec 5) (b : BitVec 5) : Laws.Encoding.Statement (.shr g d a b) := by
  obtain ⟨hl, ho, h0, h1, h2, h3, h4⟩ := layout0 g d a b (op := 12) (by decide) rfl
  exact mk_sa rfl fun _ => ⟨hl, (rawScalar_shr ho).trans (by rw [if_pos h0, h1, h2, h3, h4])⟩

theorem rawScalar_sar {word : Nat} (h : fld word 25 7 = 13) :
    rawScalar word = if fld word 0 6 = 0 then .ok (.sar (guardOf word) (fb word 16 5) (fb word 11 5) (fb word 6 5)) else .error .reserved := by
  unfold rawScalar
  rw [h]
  rfl

theorem Laws.Encoding.sar (g : Guard) (d : BitVec 5) (a : BitVec 5) (b : BitVec 5) : Laws.Encoding.Statement (.sar g d a b) := by
  obtain ⟨hl, ho, h0, h1, h2, h3, h4⟩ := layout0 g d a b (op := 13) (by decide) rfl
  exact mk_sa rfl fun _ => ⟨hl, (rawScalar_sar ho).trans (by rw [if_pos h0, h1, h2, h3, h4])⟩

theorem rawScalar_rotl {word : Nat} (h : fld word 25 7 = 14) :
    rawScalar word = if fld word 0 6 = 0 then .ok (.rotl (guardOf word) (fb word 16 5) (fb word 11 5) (fb word 6 5)) else .error .reserved := by
  unfold rawScalar
  rw [h]
  rfl

theorem Laws.Encoding.rotl (g : Guard) (d : BitVec 5) (a : BitVec 5) (b : BitVec 5) : Laws.Encoding.Statement (.rotl g d a b) := by
  obtain ⟨hl, ho, h0, h1, h2, h3, h4⟩ := layout0 g d a b (op := 14) (by decide) rfl
  exact mk_sa rfl fun _ => ⟨hl, (rawScalar_rotl ho).trans (by rw [if_pos h0, h1, h2, h3, h4])⟩

theorem rawScalar_min {word : Nat} (h : fld word 25 7 = 15) :
    rawScalar word = if fld word 0 6 = 0 then .ok (.min (guardOf word) (fb word 16 5) (fb word 11 5) (fb word 6 5)) else .error .reserved := by
  unfold rawScalar
  rw [h]
  rfl

theorem Laws.Encoding.min (g : Guard) (d : BitVec 5) (a : BitVec 5) (b : BitVec 5) : Laws.Encoding.Statement (.min g d a b) := by
  obtain ⟨hl, ho, h0, h1, h2, h3, h4⟩ := layout0 g d a b (op := 15) (by decide) rfl
  exact mk_sa rfl fun _ => ⟨hl, (rawScalar_min ho).trans (by rw [if_pos h0, h1, h2, h3, h4])⟩

theorem rawScalar_max {word : Nat} (h : fld word 25 7 = 16) :
    rawScalar word = if fld word 0 6 = 0 then .ok (.max (guardOf word) (fb word 16 5) (fb word 11 5) (fb word 6 5)) else .error .reserved := by
  unfold rawScalar
  rw [h]
  rfl

theorem Laws.Encoding.max (g : Guard) (d : BitVec 5) (a : BitVec 5) (b : BitVec 5) : Laws.Encoding.Statement (.max g d a b) := by
  obtain ⟨hl, ho, h0, h1, h2, h3, h4⟩ := layout0 g d a b (op := 16) (by decide) rfl
  exact mk_sa rfl fun _ => ⟨hl, (rawScalar_max ho).trans (by rw [if_pos h0, h1, h2, h3, h4])⟩

theorem rawScalar_minu {word : Nat} (h : fld word 25 7 = 17) :
    rawScalar word = if fld word 0 6 = 0 then .ok (.minu (guardOf word) (fb word 16 5) (fb word 11 5) (fb word 6 5)) else .error .reserved := by
  unfold rawScalar
  rw [h]
  rfl

theorem Laws.Encoding.minu (g : Guard) (d : BitVec 5) (a : BitVec 5) (b : BitVec 5) : Laws.Encoding.Statement (.minu g d a b) := by
  obtain ⟨hl, ho, h0, h1, h2, h3, h4⟩ := layout0 g d a b (op := 17) (by decide) rfl
  exact mk_sa rfl fun _ => ⟨hl, (rawScalar_minu ho).trans (by rw [if_pos h0, h1, h2, h3, h4])⟩

theorem rawScalar_maxu {word : Nat} (h : fld word 25 7 = 18) :
    rawScalar word = if fld word 0 6 = 0 then .ok (.maxu (guardOf word) (fb word 16 5) (fb word 11 5) (fb word 6 5)) else .error .reserved := by
  unfold rawScalar
  rw [h]
  rfl

theorem Laws.Encoding.maxu (g : Guard) (d : BitVec 5) (a : BitVec 5) (b : BitVec 5) : Laws.Encoding.Statement (.maxu g d a b) := by
  obtain ⟨hl, ho, h0, h1, h2, h3, h4⟩ := layout0 g d a b (op := 18) (by decide) rfl
  exact mk_sa rfl fun _ => ⟨hl, (rawScalar_maxu ho).trans (by rw [if_pos h0, h1, h2, h3, h4])⟩

theorem layout2 {op word : Nat} (g : Guard) (d : BitVec 5) (a : BitVec 5) (ho : op < 128)
    (hw : op * 2 ^ 25 + (g.neg.toNat * 2 ^ 24 + g.pred.toNat * 2 ^ 21) + 0 + (d.toNat * 2 ^ 16 + (a.toNat * 2 ^ 11 + 0)) = word) :
    word < 2 ^ 32 ∧ fld word 25 7 = op ∧ (fld word 0 11 = 0) ∧ guardOf word = g ∧ fb word 16 5 = d ∧ fb word 11 5 = a := by
  exact ⟨by omega, by unfold fld; omega, by unfold fld; omega, guardOf_eq (by omega) (by omega), fb_eq (by omega), fb_eq (by omega)⟩

theorem rawScalar_clz {word : Nat} (h : fld word 25 7 = 19) :
    rawScalar word = if fld word 0 11 = 0 then .ok (.clz (guardOf word) (fb word 16 5) (fb word 11 5)) else .error .reserved := by
  unfold rawScalar
  rw [h]
  rfl

theorem Laws.Encoding.clz (g : Guard) (d : BitVec 5) (a : BitVec 5) : Laws.Encoding.Statement (.clz g d a) := by
  obtain ⟨hl, ho, h0, h1, h2, h3⟩ := layout2 g d a (op := 19) (by decide) rfl
  exact mk_sa rfl fun _ => ⟨hl, (rawScalar_clz ho).trans (by rw [if_pos h0, h1, h2, h3])⟩

theorem rawScalar_popc {word : Nat} (h : fld word 25 7 = 20) :
    rawScalar word = if fld word 0 11 = 0 then .ok (.popc (guardOf word) (fb word 16 5) (fb word 11 5)) else .error .reserved := by
  unfold rawScalar
  rw [h]
  rfl

theorem Laws.Encoding.popc (g : Guard) (d : BitVec 5) (a : BitVec 5) : Laws.Encoding.Statement (.popc g d a) := by
  obtain ⟨hl, ho, h0, h1, h2, h3⟩ := layout2 g d a (op := 20) (by decide) rfl
  exact mk_sa rfl fun _ => ⟨hl, (rawScalar_popc ho).trans (by rw [if_pos h0, h1, h2, h3])⟩

theorem layout3 {op word : Nat} (g : Guard) (d : BitVec 5) (a : BitVec 5) (b : BitVec 5) (k : BitVec 3) (ho : op < 128)
    (hw : op * 2 ^ 25 + (g.neg.toNat * 2 ^ 24 + g.pred.toNat * 2 ^ 21) + 0 + (d.toNat * 2 ^ 16 + (a.toNat * 2 ^ 11 + (b.toNat * 2 ^ 6 + (k.toNat * 2 ^ 0 + 0)))) = word) :
    word < 2 ^ 32 ∧ fld word 25 7 = op ∧ (fld word 3 3 = 0) ∧ guardOf word = g ∧ fb word 16 5 = d ∧ fb word 11 5 = a ∧ fb word 6 5 = b ∧ fb word 0 3 = k := by
  exact ⟨by omega, by unfold fld; omega, by unfold fld; omega, guardOf_eq (by omega) (by omega), fb_eq (by omega), fb_eq (by omega), fb_eq (by omega), fb_eq (by omega)⟩

theorem rawScalar_sel {word : Nat} (h : fld word 25 7 = 21) :
    rawScalar word = if fld word 3 3 = 0 then .ok (.sel (guardOf word) (fb word 16 5) (fb word 11 5) (fb word 6 5) (fb word 0 3)) else .error .reserved := by
  unfold rawScalar
  rw [h]
  rfl

theorem Laws.Encoding.sel (g : Guard) (d : BitVec 5) (a : BitVec 5) (b : BitVec 5) (k : BitVec 3) : Laws.Encoding.Statement (.sel g d a b k) := by
  obtain ⟨hl, ho, h0, h1, h2, h3, h4, h5⟩ := layout3 g d a b k (op := 21) (by decide) rfl
  exact mk_sa rfl fun _ => ⟨hl, (rawScalar_sel ho).trans (by rw [if_pos h0, h1, h2, h3, h4, h5])⟩

theorem layout4 {op word : Nat} (g : Guard) (d : BitVec 5) (a : BitVec 5) (i : BitVec 11) (ho : op < 128)
    (hw : op * 2 ^ 25 + (g.neg.toNat * 2 ^ 24 + g.pred.toNat * 2 ^ 21) + 0 + (d.toNat * 2 ^ 16 + (a.toNat * 2 ^ 11 + (i.toNat * 2 ^ 0 + 0))) = word) :
    word < 2 ^ 32 ∧ fld word 25 7 = op ∧ guardOf word = g ∧ fb word 16 5 = d ∧ fb word 11 5 = a ∧ fb word 0 11 = i := by
  exact ⟨by omega, by unfold fld; omega, guardOf_eq (by omega) (by omega), fb_eq (by omega), fb_eq (by omega), fb_eq (by omega)⟩

theorem rawScalar_addi {word : Nat} (h : fld word 25 7 = 24) :
    rawScalar word = .ok (.addi (guardOf word) (fb word 16 5) (fb word 11 5) (fb word 0 11)) := by
  unfold rawScalar
  rw [h]
  rfl

theorem Laws.Encoding.addi (g : Guard) (d : BitVec 5) (a : BitVec 5) (i : BitVec 11) : Laws.Encoding.Statement (.addi g d a i) := by
  obtain ⟨hl, ho, h0, h1, h2, h3⟩ := layout4 g d a i (op := 24) (by decide) rfl
  exact mk_sa rfl fun _ => ⟨hl, (rawScalar_addi ho).trans (by rw [h0, h1, h2, h3])⟩

theorem rawScalar_andi {word : Nat} (h : fld word 25 7 = 25) :
    rawScalar word = .ok (.andi (guardOf word) (fb word 16 5) (fb word 11 5) (fb word 0 11)) := by
  unfold rawScalar
  rw [h]
  rfl

theorem Laws.Encoding.andi (g : Guard) (d : BitVec 5) (a : BitVec 5) (i : BitVec 11) : Laws.Encoding.Statement (.andi g d a i) := by
  obtain ⟨hl, ho, h0, h1, h2, h3⟩ := layout4 g d a i (op := 25) (by decide) rfl
  exact mk_sa rfl fun _ => ⟨hl, (rawScalar_andi ho).trans (by rw [h0, h1, h2, h3])⟩

theorem rawScalar_ori {word : Nat} (h : fld word 25 7 = 26) :
    rawScalar word = .ok (.ori (guardOf word) (fb word 16 5) (fb word 11 5) (fb word 0 11)) := by
  unfold rawScalar
  rw [h]
  rfl

theorem Laws.Encoding.ori (g : Guard) (d : BitVec 5) (a : BitVec 5) (i : BitVec 11) : Laws.Encoding.Statement (.ori g d a i) := by
  obtain ⟨hl, ho, h0, h1, h2, h3⟩ := layout4 g d a i (op := 26) (by decide) rfl
  exact mk_sa rfl fun _ => ⟨hl, (rawScalar_ori ho).trans (by rw [h0, h1, h2, h3])⟩

theorem rawScalar_xori {word : Nat} (h : fld word 25 7 = 27) :
    rawScalar word = .ok (.xori (guardOf word) (fb word 16 5) (fb word 11 5) (fb word 0 11)) := by
  unfold rawScalar
  rw [h]
  rfl

theorem Laws.Encoding.xori (g : Guard) (d : BitVec 5) (a : BitVec 5) (i : BitVec 11) : Laws.Encoding.Statement (.xori g d a i) := by
  obtain ⟨hl, ho, h0, h1, h2, h3⟩ := layout4 g d a i (op := 27) (by decide) rfl
  exact mk_sa rfl fun _ => ⟨hl, (rawScalar_xori ho).trans (by rw [h0, h1, h2, h3])⟩

theorem layout5 {op word : Nat} (g : Guard) (d : BitVec 5) (a : BitVec 5) (i : BitVec 6) (ho : op < 128)
    (hw : op * 2 ^ 25 + (g.neg.toNat * 2 ^ 24 + g.pred.toNat * 2 ^ 21) + 0 + (d.toNat * 2 ^ 16 + (a.toNat * 2 ^ 11 + (i.toNat * 2 ^ 0 + 0))) = word) :
    word < 2 ^ 32 ∧ fld word 25 7 = op ∧ (fld word 6 5 = 0) ∧ guardOf word = g ∧ fb word 16 5 = d ∧ fb word 11 5 = a ∧ fb word 0 6 = i := by
  exact ⟨by omega, by unfold fld; omega, by unfold fld; omega, guardOf_eq (by omega) (by omega), fb_eq (by omega), fb_eq (by omega), fb_eq (by omega)⟩

theorem rawScalar_shli {word : Nat} (h : fld word 25 7 = 28) :
    rawScalar word = if fld word 6 5 = 0 then .ok (.shli (guardOf word) (fb word 16 5) (fb word 11 5) (fb word 0 6)) else .error .reserved := by
  unfold rawScalar
  rw [h]
  rfl

theorem Laws.Encoding.shli (g : Guard) (d : BitVec 5) (a : BitVec 5) (i : BitVec 6) : Laws.Encoding.Statement (.shli g d a i) := by
  obtain ⟨hl, ho, h0, h1, h2, h3, h4⟩ := layout5 g d a i (op := 28) (by decide) rfl
  exact mk_sa rfl fun _ => ⟨hl, (rawScalar_shli ho).trans (by rw [if_pos h0, h1, h2, h3, h4])⟩

theorem rawScalar_shri {word : Nat} (h : fld word 25 7 = 29) :
    rawScalar word = if fld word 6 5 = 0 then .ok (.shri (guardOf word) (fb word 16 5) (fb word 11 5) (fb word 0 6)) else .error .reserved := by
  unfold rawScalar
  rw [h]
  rfl

theorem Laws.Encoding.shri (g : Guard) (d : BitVec 5) (a : BitVec 5) (i : BitVec 6) : Laws.Encoding.Statement (.shri g d a i) := by
  obtain ⟨hl, ho, h0, h1, h2, h3, h4⟩ := layout5 g d a i (op := 29) (by decide) rfl
  exact mk_sa rfl fun _ => ⟨hl, (rawScalar_shri ho).trans (by rw [if_pos h0, h1, h2, h3, h4])⟩

theorem rawScalar_sari {word : Nat} (h : fld word 25 7 = 30) :
    rawScalar word = if fld word 6 5 = 0 then .ok (.sari (guardOf word) (fb word 16 5) (fb word 11 5) (fb word 0 6)) else .error .reserved := by
  unfold rawScalar
  rw [h]
  rfl

theorem Laws.Encoding.sari (g : Guard) (d : BitVec 5) (a : BitVec 5) (i : BitVec 6) : Laws.Encoding.Statement (.sari g d a i) := by
  obtain ⟨hl, ho, h0, h1, h2, h3, h4⟩ := layout5 g d a i (op := 30) (by decide) rfl
  exact mk_sa rfl fun _ => ⟨hl, (rawScalar_sari ho).trans (by rw [if_pos h0, h1, h2, h3, h4])⟩

theorem layout6 {op word : Nat} (g : Guard) (d : BitVec 5) (i : BitVec 16) (ho : op < 128)
    (hw : op * 2 ^ 25 + (g.neg.toNat * 2 ^ 24 + g.pred.toNat * 2 ^ 21) + 0 + (d.toNat * 2 ^ 16 + (i.toNat * 2 ^ 0 + 0)) = word) :
    word < 2 ^ 32 ∧ fld word 25 7 = op ∧ guardOf word = g ∧ fb word 16 5 = d ∧ fb word 0 16 = i := by
  exact ⟨by omega, by unfold fld; omega, guardOf_eq (by omega) (by omega), fb_eq (by omega), fb_eq (by omega)⟩

theorem rawScalar_movi {word : Nat} (h : fld word 25 7 = 32) :
    rawScalar word = .ok (.movi (guardOf word) (fb word 16 5) (fb word 0 16)) := by
  unfold rawScalar
  rw [h]
  rfl

theorem Laws.Encoding.movi (g : Guard) (d : BitVec 5) (i : BitVec 16) : Laws.Encoding.Statement (.movi g d i) := by
  obtain ⟨hl, ho, h0, h1, h2⟩ := layout6 g d i (op := 32) (by decide) rfl
  exact mk_sa rfl fun _ => ⟨hl, (rawScalar_movi ho).trans (by rw [h0, h1, h2])⟩

theorem rawScalar_movhi {word : Nat} (h : fld word 25 7 = 33) :
    rawScalar word = .ok (.movhi (guardOf word) (fb word 16 5) (fb word 0 16)) := by
  unfold rawScalar
  rw [h]
  rfl

theorem Laws.Encoding.movhi (g : Guard) (d : BitVec 5) (i : BitVec 16) : Laws.Encoding.Statement (.movhi g d i) := by
  obtain ⟨hl, ho, h0, h1, h2⟩ := layout6 g d i (op := 33) (by decide) rfl
  exact mk_sa rfl fun _ => ⟨hl, (rawScalar_movhi ho).trans (by rw [h0, h1, h2])⟩

theorem layout7 {op word : Nat} (g : Guard) (d : BitVec 3) (a : BitVec 5) (b : BitVec 5) (ho : op < 128)
    (hw : op * 2 ^ 25 + (g.neg.toNat * 2 ^ 24 + g.pred.toNat * 2 ^ 21) + 0 + (d.toNat * 2 ^ 16 + (a.toNat * 2 ^ 11 + (b.toNat * 2 ^ 6 + 0))) = word) :
    word < 2 ^ 32 ∧ fld word 25 7 = op ∧ (fld word 0 6 = 0 ∧ fld word 19 2 = 0) ∧ guardOf word = g ∧ fb word 16 3 = d ∧ fb word 11 5 = a ∧ fb word 6 5 = b := by
  exact ⟨by omega, by unfold fld; omega, by unfold fld; omega, guardOf_eq (by omega) (by omega), fb_eq (by omega), fb_eq (by omega), fb_eq (by omega)⟩

theorem rawScalar_cmpEq {word : Nat} (h : fld word 25 7 = 40) :
    rawScalar word = if fld word 0 6 = 0 ∧ fld word 19 2 = 0 then .ok (.cmpEq (guardOf word) (fb word 16 3) (fb word 11 5) (fb word 6 5)) else .error .reserved := by
  unfold rawScalar
  rw [h]
  rfl

theorem Laws.Encoding.cmpEq (g : Guard) (d : BitVec 3) (a : BitVec 5) (b : BitVec 5) : Laws.Encoding.Statement (.cmpEq g d a b) := by
  obtain ⟨hl, ho, h0, h1, h2, h3, h4⟩ := layout7 g d a b (op := 40) (by decide) rfl
  exact mk_sa rfl fun _ => ⟨hl, (rawScalar_cmpEq ho).trans (by rw [if_pos h0, h1, h2, h3, h4])⟩

theorem rawScalar_cmpNe {word : Nat} (h : fld word 25 7 = 41) :
    rawScalar word = if fld word 0 6 = 0 ∧ fld word 19 2 = 0 then .ok (.cmpNe (guardOf word) (fb word 16 3) (fb word 11 5) (fb word 6 5)) else .error .reserved := by
  unfold rawScalar
  rw [h]
  rfl

theorem Laws.Encoding.cmpNe (g : Guard) (d : BitVec 3) (a : BitVec 5) (b : BitVec 5) : Laws.Encoding.Statement (.cmpNe g d a b) := by
  obtain ⟨hl, ho, h0, h1, h2, h3, h4⟩ := layout7 g d a b (op := 41) (by decide) rfl
  exact mk_sa rfl fun _ => ⟨hl, (rawScalar_cmpNe ho).trans (by rw [if_pos h0, h1, h2, h3, h4])⟩

theorem rawScalar_cmpLt {word : Nat} (h : fld word 25 7 = 42) :
    rawScalar word = if fld word 0 6 = 0 ∧ fld word 19 2 = 0 then .ok (.cmpLt (guardOf word) (fb word 16 3) (fb word 11 5) (fb word 6 5)) else .error .reserved := by
  unfold rawScalar
  rw [h]
  rfl

theorem Laws.Encoding.cmpLt (g : Guard) (d : BitVec 3) (a : BitVec 5) (b : BitVec 5) : Laws.Encoding.Statement (.cmpLt g d a b) := by
  obtain ⟨hl, ho, h0, h1, h2, h3, h4⟩ := layout7 g d a b (op := 42) (by decide) rfl
  exact mk_sa rfl fun _ => ⟨hl, (rawScalar_cmpLt ho).trans (by rw [if_pos h0, h1, h2, h3, h4])⟩

theorem rawScalar_cmpLtu {word : Nat} (h : fld word 25 7 = 43) :
    rawScalar word = if fld word 0 6 = 0 ∧ fld word 19 2 = 0 then .ok (.cmpLtu (guardOf word) (fb word 16 3) (fb word 11 5) (fb word 6 5)) else .error .reserved := by
  unfold rawScalar
  rw [h]
  rfl

theorem Laws.Encoding.cmpLtu (g : Guard) (d : BitVec 3) (a : BitVec 5) (b : BitVec 5) : Laws.Encoding.Statement (.cmpLtu g d a b) := by
  obtain ⟨hl, ho, h0, h1, h2, h3, h4⟩ := layout7 g d a b (op := 43) (by decide) rfl
  exact mk_sa rfl fun _ => ⟨hl, (rawScalar_cmpLtu ho).trans (by rw [if_pos h0, h1, h2, h3, h4])⟩

theorem rawScalar_cmpGe {word : Nat} (h : fld word 25 7 = 44) :
    rawScalar word = if fld word 0 6 = 0 ∧ fld word 19 2 = 0 then .ok (.cmpGe (guardOf word) (fb word 16 3) (fb word 11 5) (fb word 6 5)) else .error .reserved := by
  unfold rawScalar
  rw [h]
  rfl

theorem Laws.Encoding.cmpGe (g : Guard) (d : BitVec 3) (a : BitVec 5) (b : BitVec 5) : Laws.Encoding.Statement (.cmpGe g d a b) := by
  obtain ⟨hl, ho, h0, h1, h2, h3, h4⟩ := layout7 g d a b (op := 44) (by decide) rfl
  exact mk_sa rfl fun _ => ⟨hl, (rawScalar_cmpGe ho).trans (by rw [if_pos h0, h1, h2, h3, h4])⟩

theorem rawScalar_cmpGeu {word : Nat} (h : fld word 25 7 = 45) :
    rawScalar word = if fld word 0 6 = 0 ∧ fld word 19 2 = 0 then .ok (.cmpGeu (guardOf word) (fb word 16 3) (fb word 11 5) (fb word 6 5)) else .error .reserved := by
  unfold rawScalar
  rw [h]
  rfl

theorem Laws.Encoding.cmpGeu (g : Guard) (d : BitVec 3) (a : BitVec 5) (b : BitVec 5) : Laws.Encoding.Statement (.cmpGeu g d a b) := by
  obtain ⟨hl, ho, h0, h1, h2, h3, h4⟩ := layout7 g d a b (op := 45) (by decide) rfl
  exact mk_sa rfl fun _ => ⟨hl, (rawScalar_cmpGeu ho).trans (by rw [if_pos h0, h1, h2, h3, h4])⟩

theorem layout8 {op word : Nat} (g : Guard) (d : BitVec 3) (a : BitVec 5) (i : BitVec 11) (ho : op < 128)
    (hw : op * 2 ^ 25 + (g.neg.toNat * 2 ^ 24 + g.pred.toNat * 2 ^ 21) + 0 + (d.toNat * 2 ^ 16 + (a.toNat * 2 ^ 11 + (i.toNat * 2 ^ 0 + 0))) = word) :
    word < 2 ^ 32 ∧ fld word 25 7 = op ∧ (fld word 19 2 = 0) ∧ guardOf word = g ∧ fb word 16 3 = d ∧ fb word 11 5 = a ∧ fb word 0 11 = i := by
  exact ⟨by omega, by unfold fld; omega, by unfold fld; omega, guardOf_eq (by omega) (by omega), fb_eq (by omega), fb_eq (by omega), fb_eq (by omega)⟩

theorem rawScalar_cmpiEq {word : Nat} (h : fld word 25 7 = 48) :
    rawScalar word = if fld word 19 2 = 0 then .ok (.cmpiEq (guardOf word) (fb word 16 3) (fb word 11 5) (fb word 0 11)) else .error .reserved := by
  unfold rawScalar
  rw [h]
  rfl

theorem Laws.Encoding.cmpiEq (g : Guard) (d : BitVec 3) (a : BitVec 5) (i : BitVec 11) : Laws.Encoding.Statement (.cmpiEq g d a i) := by
  obtain ⟨hl, ho, h0, h1, h2, h3, h4⟩ := layout8 g d a i (op := 48) (by decide) rfl
  exact mk_sa rfl fun _ => ⟨hl, (rawScalar_cmpiEq ho).trans (by rw [if_pos h0, h1, h2, h3, h4])⟩

theorem rawScalar_cmpiNe {word : Nat} (h : fld word 25 7 = 49) :
    rawScalar word = if fld word 19 2 = 0 then .ok (.cmpiNe (guardOf word) (fb word 16 3) (fb word 11 5) (fb word 0 11)) else .error .reserved := by
  unfold rawScalar
  rw [h]
  rfl

theorem Laws.Encoding.cmpiNe (g : Guard) (d : BitVec 3) (a : BitVec 5) (i : BitVec 11) : Laws.Encoding.Statement (.cmpiNe g d a i) := by
  obtain ⟨hl, ho, h0, h1, h2, h3, h4⟩ := layout8 g d a i (op := 49) (by decide) rfl
  exact mk_sa rfl fun _ => ⟨hl, (rawScalar_cmpiNe ho).trans (by rw [if_pos h0, h1, h2, h3, h4])⟩

theorem rawScalar_cmpiLt {word : Nat} (h : fld word 25 7 = 50) :
    rawScalar word = if fld word 19 2 = 0 then .ok (.cmpiLt (guardOf word) (fb word 16 3) (fb word 11 5) (fb word 0 11)) else .error .reserved := by
  unfold rawScalar
  rw [h]
  rfl

theorem Laws.Encoding.cmpiLt (g : Guard) (d : BitVec 3) (a : BitVec 5) (i : BitVec 11) : Laws.Encoding.Statement (.cmpiLt g d a i) := by
  obtain ⟨hl, ho, h0, h1, h2, h3, h4⟩ := layout8 g d a i (op := 50) (by decide) rfl
  exact mk_sa rfl fun _ => ⟨hl, (rawScalar_cmpiLt ho).trans (by rw [if_pos h0, h1, h2, h3, h4])⟩

theorem rawScalar_cmpiLtu {word : Nat} (h : fld word 25 7 = 51) :
    rawScalar word = if fld word 19 2 = 0 then .ok (.cmpiLtu (guardOf word) (fb word 16 3) (fb word 11 5) (fb word 0 11)) else .error .reserved := by
  unfold rawScalar
  rw [h]
  rfl

theorem Laws.Encoding.cmpiLtu (g : Guard) (d : BitVec 3) (a : BitVec 5) (i : BitVec 11) : Laws.Encoding.Statement (.cmpiLtu g d a i) := by
  obtain ⟨hl, ho, h0, h1, h2, h3, h4⟩ := layout8 g d a i (op := 51) (by decide) rfl
  exact mk_sa rfl fun _ => ⟨hl, (rawScalar_cmpiLtu ho).trans (by rw [if_pos h0, h1, h2, h3, h4])⟩

theorem rawScalar_cmpiGe {word : Nat} (h : fld word 25 7 = 52) :
    rawScalar word = if fld word 19 2 = 0 then .ok (.cmpiGe (guardOf word) (fb word 16 3) (fb word 11 5) (fb word 0 11)) else .error .reserved := by
  unfold rawScalar
  rw [h]
  rfl

theorem Laws.Encoding.cmpiGe (g : Guard) (d : BitVec 3) (a : BitVec 5) (i : BitVec 11) : Laws.Encoding.Statement (.cmpiGe g d a i) := by
  obtain ⟨hl, ho, h0, h1, h2, h3, h4⟩ := layout8 g d a i (op := 52) (by decide) rfl
  exact mk_sa rfl fun _ => ⟨hl, (rawScalar_cmpiGe ho).trans (by rw [if_pos h0, h1, h2, h3, h4])⟩

theorem rawScalar_cmpiGeu {word : Nat} (h : fld word 25 7 = 53) :
    rawScalar word = if fld word 19 2 = 0 then .ok (.cmpiGeu (guardOf word) (fb word 16 3) (fb word 11 5) (fb word 0 11)) else .error .reserved := by
  unfold rawScalar
  rw [h]
  rfl

theorem Laws.Encoding.cmpiGeu (g : Guard) (d : BitVec 3) (a : BitVec 5) (i : BitVec 11) : Laws.Encoding.Statement (.cmpiGeu g d a i) := by
  obtain ⟨hl, ho, h0, h1, h2, h3, h4⟩ := layout8 g d a i (op := 53) (by decide) rfl
  exact mk_sa rfl fun _ => ⟨hl, (rawScalar_cmpiGeu ho).trans (by rw [if_pos h0, h1, h2, h3, h4])⟩

theorem layout9 {op word : Nat} (g : Guard) (d : BitVec 3) (a : BitVec 3) (b : BitVec 3) (ho : op < 128)
    (hw : op * 2 ^ 25 + (g.neg.toNat * 2 ^ 24 + g.pred.toNat * 2 ^ 21) + 0 + (d.toNat * 2 ^ 16 + (a.toNat * 2 ^ 11 + (b.toNat * 2 ^ 6 + 0))) = word) :
    word < 2 ^ 32 ∧ fld word 25 7 = op ∧ (fld word 0 6 = 0 ∧ fld word 9 2 = 0 ∧ fld word 14 2 = 0 ∧ fld word 19 2 = 0) ∧ guardOf word = g ∧ fb word 16 3 = d ∧ fb word 11 3 = a ∧ fb word 6 3 = b := by
  exact ⟨by omega, by unfold fld; omega, by unfold fld; omega, guardOf_eq (by omega) (by omega), fb_eq (by omega), fb_eq (by omega), fb_eq (by omega)⟩

theorem rawScalar_pand {word : Nat} (h : fld word 25 7 = 56) :
    rawScalar word = if fld word 0 6 = 0 ∧ fld word 9 2 = 0 ∧ fld word 14 2 = 0 ∧ fld word 19 2 = 0 then .ok (.pand (guardOf word) (fb word 16 3) (fb word 11 3) (fb word 6 3)) else .error .reserved := by
  unfold rawScalar
  rw [h]
  rfl

theorem Laws.Encoding.pand (g : Guard) (d : BitVec 3) (a : BitVec 3) (b : BitVec 3) : Laws.Encoding.Statement (.pand g d a b) := by
  obtain ⟨hl, ho, h0, h1, h2, h3, h4⟩ := layout9 g d a b (op := 56) (by decide) rfl
  exact mk_sa rfl fun _ => ⟨hl, (rawScalar_pand ho).trans (by rw [if_pos h0, h1, h2, h3, h4])⟩

theorem rawScalar_por {word : Nat} (h : fld word 25 7 = 57) :
    rawScalar word = if fld word 0 6 = 0 ∧ fld word 9 2 = 0 ∧ fld word 14 2 = 0 ∧ fld word 19 2 = 0 then .ok (.por (guardOf word) (fb word 16 3) (fb word 11 3) (fb word 6 3)) else .error .reserved := by
  unfold rawScalar
  rw [h]
  rfl

theorem Laws.Encoding.por (g : Guard) (d : BitVec 3) (a : BitVec 3) (b : BitVec 3) : Laws.Encoding.Statement (.por g d a b) := by
  obtain ⟨hl, ho, h0, h1, h2, h3, h4⟩ := layout9 g d a b (op := 57) (by decide) rfl
  exact mk_sa rfl fun _ => ⟨hl, (rawScalar_por ho).trans (by rw [if_pos h0, h1, h2, h3, h4])⟩

theorem rawScalar_pxor {word : Nat} (h : fld word 25 7 = 58) :
    rawScalar word = if fld word 0 6 = 0 ∧ fld word 9 2 = 0 ∧ fld word 14 2 = 0 ∧ fld word 19 2 = 0 then .ok (.pxor (guardOf word) (fb word 16 3) (fb word 11 3) (fb word 6 3)) else .error .reserved := by
  unfold rawScalar
  rw [h]
  rfl

theorem Laws.Encoding.pxor (g : Guard) (d : BitVec 3) (a : BitVec 3) (b : BitVec 3) : Laws.Encoding.Statement (.pxor g d a b) := by
  obtain ⟨hl, ho, h0, h1, h2, h3, h4⟩ := layout9 g d a b (op := 58) (by decide) rfl
  exact mk_sa rfl fun _ => ⟨hl, (rawScalar_pxor ho).trans (by rw [if_pos h0, h1, h2, h3, h4])⟩

theorem layout10 {op word : Nat} (g : Guard) (d : BitVec 3) (a : BitVec 3) (ho : op < 128)
    (hw : op * 2 ^ 25 + (g.neg.toNat * 2 ^ 24 + g.pred.toNat * 2 ^ 21) + 0 + (d.toNat * 2 ^ 16 + (a.toNat * 2 ^ 11 + 0)) = word) :
    word < 2 ^ 32 ∧ fld word 25 7 = op ∧ (fld word 0 11 = 0 ∧ fld word 14 2 = 0 ∧ fld word 19 2 = 0) ∧ guardOf word = g ∧ fb word 16 3 = d ∧ fb word 11 3 = a := by
  exact ⟨by omega, by unfold fld; omega, by unfold fld; omega, guardOf_eq (by omega) (by omega), fb_eq (by omega), fb_eq (by omega)⟩

theorem rawScalar_pnot {word : Nat} (h : fld word 25 7 = 59) :
    rawScalar word = if fld word 0 11 = 0 ∧ fld word 14 2 = 0 ∧ fld word 19 2 = 0 then .ok (.pnot (guardOf word) (fb word 16 3) (fb word 11 3)) else .error .reserved := by
  unfold rawScalar
  rw [h]
  rfl

theorem Laws.Encoding.pnot (g : Guard) (d : BitVec 3) (a : BitVec 3) : Laws.Encoding.Statement (.pnot g d a) := by
  obtain ⟨hl, ho, h0, h1, h2, h3⟩ := layout10 g d a (op := 59) (by decide) rfl
  exact mk_sa rfl fun _ => ⟨hl, (rawScalar_pnot ho).trans (by rw [if_pos h0, h1, h2, h3])⟩

theorem rawScalar_pmovPp {word : Nat} (h : fld word 25 7 = 60) :
    rawScalar word = if fld word 0 11 = 0 ∧ fld word 14 2 = 0 ∧ fld word 19 2 = 0 then .ok (.pmovPp (guardOf word) (fb word 16 3) (fb word 11 3)) else if fld word 0 11 = 1 ∧ fld word 19 2 = 0 then .ok (.pmovPs (guardOf word) (fb word 16 3) (fb word 11 5)) else if fld word 0 11 = 2 ∧ fld word 14 2 = 0 then .ok (.pmovSp (guardOf word) (fb word 16 5) (fb word 11 3)) else .error .reserved := by
  unfold rawScalar
  rw [h]
  rfl

theorem Laws.Encoding.pmovPp (g : Guard) (d : BitVec 3) (a : BitVec 3) : Laws.Encoding.Statement (.pmovPp g d a) := by
  obtain ⟨hl, ho, h0, h1, h2, h3⟩ := layout10 g d a (op := 60) (by decide) rfl
  exact mk_sa rfl fun _ => ⟨hl, (rawScalar_pmovPp ho).trans (by rw [if_pos h0, h1, h2, h3])⟩

theorem layout11 {op word : Nat} (g : Guard) (d : BitVec 3) (a : BitVec 5) (ho : op < 128)
    (hw : op * 2 ^ 25 + (g.neg.toNat * 2 ^ 24 + g.pred.toNat * 2 ^ 21) + 1 + (d.toNat * 2 ^ 16 + (a.toNat * 2 ^ 11 + 0)) = word) :
    word < 2 ^ 32 ∧ fld word 25 7 = op ∧ ¬(fld word 0 11 = 0 ∧ fld word 14 2 = 0 ∧ fld word 19 2 = 0) ∧ (fld word 0 11 = 1 ∧ fld word 19 2 = 0) ∧ guardOf word = g ∧ fb word 16 3 = d ∧ fb word 11 5 = a := by
  exact ⟨by omega, by unfold fld; omega, by unfold fld; omega, by unfold fld; omega, guardOf_eq (by omega) (by omega), fb_eq (by omega), fb_eq (by omega)⟩

theorem rawScalar_pmovPs {word : Nat} (h : fld word 25 7 = 60) :
    rawScalar word = if fld word 0 11 = 0 ∧ fld word 14 2 = 0 ∧ fld word 19 2 = 0 then .ok (.pmovPp (guardOf word) (fb word 16 3) (fb word 11 3)) else if fld word 0 11 = 1 ∧ fld word 19 2 = 0 then .ok (.pmovPs (guardOf word) (fb word 16 3) (fb word 11 5)) else if fld word 0 11 = 2 ∧ fld word 14 2 = 0 then .ok (.pmovSp (guardOf word) (fb word 16 5) (fb word 11 3)) else .error .reserved := by
  unfold rawScalar
  rw [h]
  rfl

theorem Laws.Encoding.pmovPs (g : Guard) (d : BitVec 3) (a : BitVec 5) : Laws.Encoding.Statement (.pmovPs g d a) := by
  obtain ⟨hl, ho, h0, h1, h2, h3, h4⟩ := layout11 g d a (op := 60) (by decide) rfl
  exact mk_sa rfl fun _ => ⟨hl, (rawScalar_pmovPs ho).trans (by rw [if_neg h0, if_pos h1, h2, h3, h4])⟩

theorem layout12 {op word : Nat} (g : Guard) (d : BitVec 5) (a : BitVec 3) (ho : op < 128)
    (hw : op * 2 ^ 25 + (g.neg.toNat * 2 ^ 24 + g.pred.toNat * 2 ^ 21) + 2 + (d.toNat * 2 ^ 16 + (a.toNat * 2 ^ 11 + 0)) = word) :
    word < 2 ^ 32 ∧ fld word 25 7 = op ∧ ¬(fld word 0 11 = 0 ∧ fld word 14 2 = 0 ∧ fld word 19 2 = 0) ∧ ¬(fld word 0 11 = 1 ∧ fld word 19 2 = 0) ∧ (fld word 0 11 = 2 ∧ fld word 14 2 = 0) ∧ guardOf word = g ∧ fb word 16 5 = d ∧ fb word 11 3 = a := by
  exact ⟨by omega, by unfold fld; omega, by unfold fld; omega, by unfold fld; omega, by unfold fld; omega, guardOf_eq (by omega) (by omega), fb_eq (by omega), fb_eq (by omega)⟩

theorem rawScalar_pmovSp {word : Nat} (h : fld word 25 7 = 60) :
    rawScalar word = if fld word 0 11 = 0 ∧ fld word 14 2 = 0 ∧ fld word 19 2 = 0 then .ok (.pmovPp (guardOf word) (fb word 16 3) (fb word 11 3)) else if fld word 0 11 = 1 ∧ fld word 19 2 = 0 then .ok (.pmovPs (guardOf word) (fb word 16 3) (fb word 11 5)) else if fld word 0 11 = 2 ∧ fld word 14 2 = 0 then .ok (.pmovSp (guardOf word) (fb word 16 5) (fb word 11 3)) else .error .reserved := by
  unfold rawScalar
  rw [h]
  rfl

theorem Laws.Encoding.pmovSp (g : Guard) (d : BitVec 5) (a : BitVec 3) : Laws.Encoding.Statement (.pmovSp g d a) := by
  obtain ⟨hl, ho, h0, h1, h2, h3, h4, h5⟩ := layout12 g d a (op := 60) (by decide) rfl
  exact mk_sa rfl fun _ => ⟨hl, (rawScalar_pmovSp ho).trans (by rw [if_neg h0, if_neg h1, if_pos h2, h3, h4, h5])⟩

theorem rawScalar_qpeek {word : Nat} (h : fld word 25 7 = 61) :
    rawScalar word = if fld word 0 11 = 0 then .ok (.qpeek (guardOf word) (fb word 16 5) (fb word 11 5)) else .error .reserved := by
  unfold rawScalar
  rw [h]
  rfl

theorem Laws.Encoding.qpeek (g : Guard) (d : BitVec 5) (a : BitVec 5) : Laws.Encoding.Statement (.qpeek g d a) := by
  obtain ⟨hl, ho, h0, h1, h2, h3⟩ := layout2 g d a (op := 61) (by decide) rfl
  exact mk_sa rfl fun _ => ⟨hl, (rawScalar_qpeek ho).trans (by rw [if_pos h0, h1, h2, h3])⟩

theorem rawScalar_qcnt {word : Nat} (h : fld word 25 7 = 62) :
    rawScalar word = if fld word 0 11 = 0 then .ok (.qcnt (guardOf word) (fb word 16 5) (fb word 11 5)) else .error .reserved := by
  unfold rawScalar
  rw [h]
  rfl

theorem Laws.Encoding.qcnt (g : Guard) (d : BitVec 5) (a : BitVec 5) : Laws.Encoding.Statement (.qcnt g d a) := by
  obtain ⟨hl, ho, h0, h1, h2, h3⟩ := layout2 g d a (op := 62) (by decide) rfl
  exact mk_sa rfl fun _ => ⟨hl, (rawScalar_qcnt ho).trans (by rw [if_pos h0, h1, h2, h3])⟩

theorem layout13 {op word : Nat} (g : Guard) (a : BitVec 5) (ho : op < 128)
    (hw : op * 2 ^ 25 + (g.neg.toNat * 2 ^ 24 + g.pred.toNat * 2 ^ 21) + 0 + (a.toNat * 2 ^ 11 + 0) = word) :
    word < 2 ^ 32 ∧ fld word 25 7 = op ∧ (fld word 0 11 = 0 ∧ fld word 16 5 = 0) ∧ guardOf word = g ∧ fb word 11 5 = a := by
  exact ⟨by omega, by unfold fld; omega, by unfold fld; omega, guardOf_eq (by omega) (by omega), fb_eq (by omega)⟩

theorem rawScalar_qclr {word : Nat} (h : fld word 25 7 = 63) :
    rawScalar word = if fld word 0 11 = 0 ∧ fld word 16 5 = 0 then .ok (.qclr (guardOf word) (fb word 11 5)) else .error .reserved := by
  unfold rawScalar
  rw [h]
  rfl

theorem Laws.Encoding.qclr (g : Guard) (a : BitVec 5) : Laws.Encoding.Statement (.qclr g a) := by
  obtain ⟨hl, ho, h0, h1, h2⟩ := layout13 g a (op := 63) (by decide) rfl
  exact mk_sa rfl fun _ => ⟨hl, (rawScalar_qclr ho).trans (by rw [if_pos h0, h1, h2])⟩

theorem layout14 {op word : Nat} (g : Guard) (o : BitVec 21) (ho : op < 128)
    (hw : op * 2 ^ 25 + (g.neg.toNat * 2 ^ 24 + g.pred.toNat * 2 ^ 21) + 0 + (o.toNat * 2 ^ 0 + 0) = word) :
    word < 2 ^ 32 ∧ fld word 25 7 = op ∧ guardOf word = g ∧ fb word 0 21 = o := by
  exact ⟨by omega, by unfold fld; omega, guardOf_eq (by omega) (by omega), fb_eq (by omega)⟩

theorem rawScalar_br {word : Nat} (h : fld word 25 7 = 64) :
    rawScalar word = .ok (.br (guardOf word) (fb word 0 21)) := by
  unfold rawScalar
  rw [h]
  rfl

theorem Laws.Encoding.br (g : Guard) (o : BitVec 21) : Laws.Encoding.Statement (.br g o) := by
  obtain ⟨hl, ho, h0, h1⟩ := layout14 g o (op := 64) (by decide) rfl
  exact mk_sa rfl fun _ => ⟨hl, (rawScalar_br ho).trans (by rw [h0, h1])⟩

theorem rawScalar_call {word : Nat} (h : fld word 25 7 = 65) :
    rawScalar word = .ok (.call (guardOf word) (fb word 0 21)) := by
  unfold rawScalar
  rw [h]
  rfl

theorem Laws.Encoding.call (g : Guard) (o : BitVec 21) : Laws.Encoding.Statement (.call g o) := by
  obtain ⟨hl, ho, h0, h1⟩ := layout14 g o (op := 65) (by decide) rfl
  exact mk_sa rfl fun _ => ⟨hl, (rawScalar_call ho).trans (by rw [h0, h1])⟩

theorem rawScalar_ret {word : Nat} (h : fld word 25 7 = 66) :
    rawScalar word = if fld word 0 11 = 0 ∧ fld word 16 5 = 0 then .ok (.ret (guardOf word) (fb word 11 5)) else .error .reserved := by
  unfold rawScalar
  rw [h]
  rfl

theorem Laws.Encoding.ret (g : Guard) (a : BitVec 5) : Laws.Encoding.Statement (.ret g a) := by
  obtain ⟨hl, ho, h0, h1, h2⟩ := layout13 g a (op := 66) (by decide) rfl
  exact mk_sa rfl fun _ => ⟨hl, (rawScalar_ret ho).trans (by rw [if_pos h0, h1, h2])⟩

theorem rawScalar_jmp {word : Nat} (h : fld word 25 7 = 67) :
    rawScalar word = if fld word 0 11 = 0 then .ok (.jmp (guardOf word) (fb word 16 5) (fb word 11 5)) else .error .reserved := by
  unfold rawScalar
  rw [h]
  rfl

theorem Laws.Encoding.jmp (g : Guard) (d : BitVec 5) (a : BitVec 5) : Laws.Encoding.Statement (.jmp g d a) := by
  obtain ⟨hl, ho, h0, h1, h2, h3⟩ := layout2 g d a (op := 67) (by decide) rfl
  exact mk_sa rfl fun _ => ⟨hl, (rawScalar_jmp ho).trans (by rw [if_pos h0, h1, h2, h3])⟩

theorem layout15 {op word : Nat} (g : Guard) (l : BitVec 13) (c : BitVec 5) (ho : op < 128)
    (hw : op * 2 ^ 25 + (g.neg.toNat * 2 ^ 24 + g.pred.toNat * 2 ^ 21) + 0 + (l.toNat * 2 ^ 8 + (c.toNat * 2 ^ 0 + 0)) = word) :
    word < 2 ^ 32 ∧ fld word 25 7 = op ∧ (fld word 5 3 = 0) ∧ guardOf word = g ∧ fb word 8 13 = l ∧ fb word 0 5 = c := by
  exact ⟨by omega, by unfold fld; omega, by unfold fld; omega, guardOf_eq (by omega) (by omega), fb_eq (by omega), fb_eq (by omega)⟩

theorem rawScalar_loop {word : Nat} (h : fld word 25 7 = 68) :
    rawScalar word = if fld word 5 3 = 0 then .ok (.loop (guardOf word) (fb word 8 13) (fb word 0 5)) else .error .reserved := by
  unfold rawScalar
  rw [h]
  rfl

theorem Laws.Encoding.loop (g : Guard) (l : BitVec 13) (c : BitVec 5) : Laws.Encoding.Statement (.loop g l c) := by
  obtain ⟨hl, ho, h0, h1, h2, h3⟩ := layout15 g l c (op := 68) (by decide) rfl
  exact mk_sa rfl fun _ => ⟨hl, (rawScalar_loop ho).trans (by rw [if_pos h0, h1, h2, h3])⟩

theorem layout16 {op word : Nat} (g : Guard) (l : BitVec 13) (c : BitVec 8) (ho : op < 128)
    (hw : op * 2 ^ 25 + (g.neg.toNat * 2 ^ 24 + g.pred.toNat * 2 ^ 21) + 0 + (l.toNat * 2 ^ 8 + (c.toNat * 2 ^ 0 + 0)) = word) :
    word < 2 ^ 32 ∧ fld word 25 7 = op ∧ guardOf word = g ∧ fb word 8 13 = l ∧ fb word 0 8 = c := by
  exact ⟨by omega, by unfold fld; omega, guardOf_eq (by omega) (by omega), fb_eq (by omega), fb_eq (by omega)⟩

theorem rawScalar_loopi {word : Nat} (h : fld word 25 7 = 69) :
    rawScalar word = .ok (.loopi (guardOf word) (fb word 8 13) (fb word 0 8)) := by
  unfold rawScalar
  rw [h]
  rfl

theorem Laws.Encoding.loopi (g : Guard) (l : BitVec 13) (c : BitVec 8) : Laws.Encoding.Statement (.loopi g l c) := by
  obtain ⟨hl, ho, h0, h1, h2⟩ := layout16 g l c (op := 69) (by decide) rfl
  exact mk_sa rfl fun _ => ⟨hl, (rawScalar_loopi ho).trans (by rw [h0, h1, h2])⟩

theorem layout17 {op word : Nat} (g : Guard) (l : BitVec 13) (s : BitVec 3) (c : BitVec 5) (ho : op < 128)
    (hw : op * 2 ^ 25 + (g.neg.toNat * 2 ^ 24 + g.pred.toNat * 2 ^ 21) + 0 + (l.toNat * 2 ^ 8 + (s.toNat * 2 ^ 5 + (c.toNat * 2 ^ 0 + 0))) = word) :
    word < 2 ^ 32 ∧ fld word 25 7 = op ∧ guardOf word = g ∧ fb word 8 13 = l ∧ fb word 5 3 = s ∧ fb word 0 5 = c := by
  exact ⟨by omega, by unfold fld; omega, guardOf_eq (by omega) (by omega), fb_eq (by omega), fb_eq (by omega), fb_eq (by omega)⟩

theorem rawScalar_loopr {word : Nat} (h : fld word 25 7 = 70) :
    rawScalar word = .ok (.loopr (guardOf word) (fb word 8 13) (fb word 5 3) (fb word 0 5)) := by
  unfold rawScalar
  rw [h]
  rfl

theorem Laws.Encoding.loopr (g : Guard) (l : BitVec 13) (s : BitVec 3) (c : BitVec 5) : Laws.Encoding.Statement (.loopr g l s c) := by
  obtain ⟨hl, ho, h0, h1, h2, h3⟩ := layout17 g l s c (op := 70) (by decide) rfl
  exact mk_sa rfl fun _ => ⟨hl, (rawScalar_loopr ho).trans (by rw [h0, h1, h2, h3])⟩

theorem layout18 {op word : Nat} (g : Guard) (n : BitVec 3) (ho : op < 128)
    (hw : op * 2 ^ 25 + (g.neg.toNat * 2 ^ 24 + g.pred.toNat * 2 ^ 21) + 0 + (n.toNat * 2 ^ 0 + 0) = word) :
    word < 2 ^ 32 ∧ fld word 25 7 = op ∧ (fld word 3 18 = 0) ∧ guardOf word = g ∧ fb word 0 3 = n := by
  exact ⟨by omega, by unfold fld; omega, by unfold fld; omega, guardOf_eq (by omega) (by omega), fb_eq (by omega)⟩

theorem rawScalar_lbrk {word : Nat} (h : fld word 25 7 = 71) :
    rawScalar word = if fld word 3 18 = 0 then .ok (.lbrk (guardOf word) (fb word 0 3)) else .error .reserved := by
  unfold rawScalar
  rw [h]
  rfl

theorem Laws.Encoding.lbrk (g : Guard) (n : BitVec 3) : Laws.Encoding.Statement (.lbrk g n) := by
  obtain ⟨hl, ho, h0, h1, h2⟩ := layout18 g n (op := 71) (by decide) rfl
  exact mk_sa rfl fun _ => ⟨hl, (rawScalar_lbrk ho).trans (by rw [if_pos h0, h1, h2])⟩

theorem layout19 {op word : Nat} (g : Guard) (d : BitVec 5) (l : BitVec 3) (ho : op < 128)
    (hw : op * 2 ^ 25 + (g.neg.toNat * 2 ^ 24 + g.pred.toNat * 2 ^ 21) + 0 + (d.toNat * 2 ^ 16 + (l.toNat * 2 ^ 0 + 0)) = word) :
    word < 2 ^ 32 ∧ fld word 25 7 = op ∧ (fld word 3 13 = 0) ∧ guardOf word = g ∧ fb word 16 5 = d ∧ fb word 0 3 = l := by
  exact ⟨by omega, by unfold fld; omega, by unfold fld; omega, guardOf_eq (by omega) (by omega), fb_eq (by omega), fb_eq (by omega)⟩

theorem rawScalar_lidx {word : Nat} (h : fld word 25 7 = 72) :
    rawScalar word = if fld word 3 13 = 0 then .ok (.lidx (guardOf word) (fb word 16 5) (fb word 0 3)) else if fld word 3 13 = 1 then .ok (.lidxIn (guardOf word) (fb word 16 5) (fb word 0 3)) else .error .reserved := by
  unfold rawScalar
  rw [h]
  rfl

theorem Laws.Encoding.lidx (g : Guard) (d : BitVec 5) (l : BitVec 3) : Laws.Encoding.Statement (.lidx g d l) := by
  obtain ⟨hl, ho, h0, h1, h2, h3⟩ := layout19 g d l (op := 72) (by decide) rfl
  exact mk_sa rfl fun _ => ⟨hl, (rawScalar_lidx ho).trans (by rw [if_pos h0, h1, h2, h3])⟩

theorem layout20 {op word : Nat} (g : Guard) (d : BitVec 5) (l : BitVec 3) (ho : op < 128)
    (hw : op * 2 ^ 25 + (g.neg.toNat * 2 ^ 24 + g.pred.toNat * 2 ^ 21) + 8 + (d.toNat * 2 ^ 16 + (l.toNat * 2 ^ 0 + 0)) = word) :
    word < 2 ^ 32 ∧ fld word 25 7 = op ∧ ¬(fld word 3 13 = 0) ∧ (fld word 3 13 = 1) ∧ guardOf word = g ∧ fb word 16 5 = d ∧ fb word 0 3 = l := by
  exact ⟨by omega, by unfold fld; omega, by unfold fld; omega, by unfold fld; omega, guardOf_eq (by omega) (by omega), fb_eq (by omega), fb_eq (by omega)⟩

theorem rawScalar_lidxIn {word : Nat} (h : fld word 25 7 = 72) :
    rawScalar word = if fld word 3 13 = 0 then .ok (.lidx (guardOf word) (fb word 16 5) (fb word 0 3)) else if fld word 3 13 = 1 then .ok (.lidxIn (guardOf word) (fb word 16 5) (fb word 0 3)) else .error .reserved := by
  unfold rawScalar
  rw [h]
  rfl

theorem Laws.Encoding.lidxIn (g : Guard) (d : BitVec 5) (l : BitVec 3) : Laws.Encoding.Statement (.lidxIn g d l) := by
  obtain ⟨hl, ho, h0, h1, h2, h3, h4⟩ := layout20 g d l (op := 72) (by decide) rfl
  exact mk_sa rfl fun _ => ⟨hl, (rawScalar_lidxIn ho).trans (by rw [if_neg h0, if_pos h1, h2, h3, h4])⟩

theorem layout21 {op word : Nat} (g : Guard) (d : BitVec 5) (e : BitVec 6) (ho : op < 128)
    (hw : op * 2 ^ 25 + (g.neg.toNat * 2 ^ 24 + g.pred.toNat * 2 ^ 21) + 0 + (d.toNat * 2 ^ 16 + (e.toNat * 2 ^ 0 + 0)) = word) :
    word < 2 ^ 32 ∧ fld word 25 7 = op ∧ (fld word 6 10 = 0) ∧ guardOf word = g ∧ fb word 16 5 = d ∧ fb word 0 6 = e := by
  exact ⟨by omega, by unfold fld; omega, by unfold fld; omega, guardOf_eq (by omega) (by omega), fb_eq (by omega), fb_eq (by omega)⟩

theorem rawScalar_dtld {word : Nat} (h : fld word 25 7 = 73) :
    rawScalar word = if fld word 6 10 = 0 then .ok (.dtld (guardOf word) (fb word 16 5) (fb word 0 6)) else .error .reserved := by
  unfold rawScalar
  rw [h]
  rfl

theorem Laws.Encoding.dtld (g : Guard) (d : BitVec 5) (e : BitVec 6) : Laws.Encoding.Statement (.dtld g d e) := by
  obtain ⟨hl, ho, h0, h1, h2, h3⟩ := layout21 g d e (op := 73) (by decide) rfl
  exact mk_sa rfl fun _ => ⟨hl, (rawScalar_dtld ho).trans (by rw [if_pos h0, h1, h2, h3])⟩

theorem layout22 {op word : Nat} (g : Guard) (d : BitVec 5) (r : BitVec 10) (ho : op < 128)
    (hw : op * 2 ^ 25 + (g.neg.toNat * 2 ^ 24 + g.pred.toNat * 2 ^ 21) + 0 + (d.toNat * 2 ^ 16 + (r.toNat * 2 ^ 0 + 0)) = word) :
    word < 2 ^ 32 ∧ fld word 25 7 = op ∧ (fld word 10 6 = 0) ∧ guardOf word = g ∧ fb word 16 5 = d ∧ fb word 0 10 = r := by
  exact ⟨by omega, by unfold fld; omega, by unfold fld; omega, guardOf_eq (by omega) (by omega), fb_eq (by omega), fb_eq (by omega)⟩

theorem rawScalar_sysr {word : Nat} (h : fld word 25 7 = 80) :
    rawScalar word = if fld word 10 6 = 0 then .ok (.sysr (guardOf word) (fb word 16 5) (fb word 0 10)) else .error .reserved := by
  unfold rawScalar
  rw [h]
  rfl

theorem Laws.Encoding.sysr (g : Guard) (d : BitVec 5) (r : BitVec 10) : Laws.Encoding.Statement (.sysr g d r) := by
  obtain ⟨hl, ho, h0, h1, h2, h3⟩ := layout22 g d r (op := 80) (by decide) rfl
  exact mk_sa rfl fun _ => ⟨hl, (rawScalar_sysr ho).trans (by rw [if_pos h0, h1, h2, h3])⟩

theorem rawScalar_sysw {word : Nat} (h : fld word 25 7 = 81) :
    rawScalar word = if fld word 10 6 = 0 then .ok (.sysw (guardOf word) (fb word 16 5) (fb word 0 10)) else .error .reserved := by
  unfold rawScalar
  rw [h]
  rfl

theorem Laws.Encoding.sysw (g : Guard) (d : BitVec 5) (r : BitVec 10) : Laws.Encoding.Statement (.sysw g d r) := by
  obtain ⟨hl, ho, h0, h1, h2, h3⟩ := layout22 g d r (op := 81) (by decide) rfl
  exact mk_sa rfl fun _ => ⟨hl, (rawScalar_sysw ho).trans (by rw [if_pos h0, h1, h2, h3])⟩

theorem rawScalar_syss {word : Nat} (h : fld word 25 7 = 82) :
    rawScalar word = if fld word 10 6 = 0 then .ok (.syss (guardOf word) (fb word 16 5) (fb word 0 10)) else .error .reserved := by
  unfold rawScalar
  rw [h]
  rfl

theorem Laws.Encoding.syss (g : Guard) (d : BitVec 5) (r : BitVec 10) : Laws.Encoding.Statement (.syss g d r) := by
  obtain ⟨hl, ho, h0, h1, h2, h3⟩ := layout22 g d r (op := 82) (by decide) rfl
  exact mk_sa rfl fun _ => ⟨hl, (rawScalar_syss ho).trans (by rw [if_pos h0, h1, h2, h3])⟩

theorem rawScalar_sysc {word : Nat} (h : fld word 25 7 = 83) :
    rawScalar word = if fld word 10 6 = 0 then .ok (.sysc (guardOf word) (fb word 16 5) (fb word 0 10)) else .error .reserved := by
  unfold rawScalar
  rw [h]
  rfl

theorem Laws.Encoding.sysc (g : Guard) (d : BitVec 5) (r : BitVec 10) : Laws.Encoding.Statement (.sysc g d r) := by
  obtain ⟨hl, ho, h0, h1, h2, h3⟩ := layout22 g d r (op := 83) (by decide) rfl
  exact mk_sa rfl fun _ => ⟨hl, (rawScalar_sysc ho).trans (by rw [if_pos h0, h1, h2, h3])⟩

theorem layout23 {op word : Nat} (g : Guard) (n : BitVec 15) (ho : op < 128)
    (hw : op * 2 ^ 25 + (g.neg.toNat * 2 ^ 24 + g.pred.toNat * 2 ^ 21) + 0 + (n.toNat * 2 ^ 0 + 0) = word) :
    word < 2 ^ 32 ∧ fld word 25 7 = op ∧ (fld word 15 6 = 0) ∧ guardOf word = g ∧ fb word 0 15 = n := by
  exact ⟨by omega, by unfold fld; omega, by unfold fld; omega, guardOf_eq (by omega) (by omega), fb_eq (by omega)⟩

theorem rawScalar_trap {word : Nat} (h : fld word 25 7 = 84) :
    rawScalar word = if fld word 15 6 = 0 then .ok (.trap (guardOf word) (fb word 0 15)) else if fld word 15 6 = 1 then .ok (.trapSys (guardOf word) (fb word 0 15)) else .error .reserved := by
  unfold rawScalar
  rw [h]
  rfl

theorem Laws.Encoding.trap (g : Guard) (n : BitVec 15) : Laws.Encoding.Statement (.trap g n) := by
  obtain ⟨hl, ho, h0, h1, h2⟩ := layout23 g n (op := 84) (by decide) rfl
  exact mk_sa rfl fun _ => ⟨hl, (rawScalar_trap ho).trans (by rw [if_pos h0, h1, h2])⟩

theorem layout24 {op word : Nat} (g : Guard) (n : BitVec 15) (ho : op < 128)
    (hw : op * 2 ^ 25 + (g.neg.toNat * 2 ^ 24 + g.pred.toNat * 2 ^ 21) + 32768 + (n.toNat * 2 ^ 0 + 0) = word) :
    word < 2 ^ 32 ∧ fld word 25 7 = op ∧ ¬(fld word 15 6 = 0) ∧ (fld word 15 6 = 1) ∧ guardOf word = g ∧ fb word 0 15 = n := by
  exact ⟨by omega, by unfold fld; omega, by unfold fld; omega, by unfold fld; omega, guardOf_eq (by omega) (by omega), fb_eq (by omega)⟩

theorem rawScalar_trapSys {word : Nat} (h : fld word 25 7 = 84) :
    rawScalar word = if fld word 15 6 = 0 then .ok (.trap (guardOf word) (fb word 0 15)) else if fld word 15 6 = 1 then .ok (.trapSys (guardOf word) (fb word 0 15)) else .error .reserved := by
  unfold rawScalar
  rw [h]
  rfl

theorem Laws.Encoding.trapSys (g : Guard) (n : BitVec 15) : Laws.Encoding.Statement (.trapSys g n) := by
  obtain ⟨hl, ho, h0, h1, h2, h3⟩ := layout24 g n (op := 84) (by decide) rfl
  exact mk_sa rfl fun _ => ⟨hl, (rawScalar_trapSys ho).trans (by rw [if_neg h0, if_pos h1, h2, h3])⟩

theorem layout25 {op word : Nat} (g : Guard) (ho : op < 128)
    (hw : op * 2 ^ 25 + (g.neg.toNat * 2 ^ 24 + g.pred.toNat * 2 ^ 21) + 0 + 0 = word) :
    word < 2 ^ 32 ∧ fld word 25 7 = op ∧ (fld word 0 21 = 0) ∧ guardOf word = g := by
  exact ⟨by omega, by unfold fld; omega, by unfold fld; omega, guardOf_eq (by omega) (by omega)⟩

theorem rawScalar_eret {word : Nat} (h : fld word 25 7 = 85) :
    rawScalar word = if fld word 0 21 = 0 then .ok (.eret (guardOf word) ) else .error .reserved := by
  unfold rawScalar
  rw [h]
  rfl

theorem Laws.Encoding.eret (g : Guard) : Laws.Encoding.Statement (.eret g) := by
  obtain ⟨hl, ho, h0, h1⟩ := layout25 g (op := 85) (by decide) rfl
  exact mk_sa rfl fun _ => ⟨hl, (rawScalar_eret ho).trans (by rw [if_pos h0, h1])⟩

theorem rawScalar_halt {word : Nat} (h : fld word 25 7 = 86) :
    rawScalar word = if fld word 0 21 = 0 then .ok (.halt (guardOf word) ) else if fld word 0 11 = 1 ∧ fld word 16 5 = 0 then .ok (.haltAbort (guardOf word) (fb word 11 5)) else .error .reserved := by
  unfold rawScalar
  rw [h]
  rfl

theorem Laws.Encoding.halt (g : Guard) : Laws.Encoding.Statement (.halt g) := by
  obtain ⟨hl, ho, h0, h1⟩ := layout25 g (op := 86) (by decide) rfl
  exact mk_sa rfl fun _ => ⟨hl, (rawScalar_halt ho).trans (by rw [if_pos h0, h1])⟩

theorem layout26 {op word : Nat} (g : Guard) (a : BitVec 5) (ho : op < 128)
    (hw : op * 2 ^ 25 + (g.neg.toNat * 2 ^ 24 + g.pred.toNat * 2 ^ 21) + 1 + (a.toNat * 2 ^ 11 + 0) = word) :
    word < 2 ^ 32 ∧ fld word 25 7 = op ∧ ¬(fld word 0 21 = 0) ∧ (fld word 0 11 = 1 ∧ fld word 16 5 = 0) ∧ guardOf word = g ∧ fb word 11 5 = a := by
  exact ⟨by omega, by unfold fld; omega, by unfold fld; omega, by unfold fld; omega, guardOf_eq (by omega) (by omega), fb_eq (by omega)⟩

theorem rawScalar_haltAbort {word : Nat} (h : fld word 25 7 = 86) :
    rawScalar word = if fld word 0 21 = 0 then .ok (.halt (guardOf word) ) else if fld word 0 11 = 1 ∧ fld word 16 5 = 0 then .ok (.haltAbort (guardOf word) (fb word 11 5)) else .error .reserved := by
  unfold rawScalar
  rw [h]
  rfl

theorem Laws.Encoding.haltAbort (g : Guard) (a : BitVec 5) : Laws.Encoding.Statement (.haltAbort g a) := by
  obtain ⟨hl, ho, h0, h1, h2, h3⟩ := layout26 g a (op := 86) (by decide) rfl
  exact mk_sa rfl fun _ => ⟨hl, (rawScalar_haltAbort ho).trans (by rw [if_neg h0, if_pos h1, h2, h3])⟩

theorem layout27 {op word : Nat} (g : Guard) (l : BitVec 4) (s : BitVec 4) (c : BitVec 4) (t : BitVec 4) (ho : op < 128)
    (hw : op * 2 ^ 25 + (g.neg.toNat * 2 ^ 24 + g.pred.toNat * 2 ^ 21) + 0 + (l.toNat * 2 ^ 12 + (s.toNat * 2 ^ 8 + (c.toNat * 2 ^ 4 + (t.toNat * 2 ^ 0 + 0)))) = word) :
    word < 2 ^ 32 ∧ fld word 25 7 = op ∧ (fld word 16 5 = 0) ∧ guardOf word = g ∧ fb word 12 4 = l ∧ fb word 8 4 = s ∧ fb word 4 4 = c ∧ fb word 0 4 = t := by
  exact ⟨by omega, by unfold fld; omega, by unfold fld; omega, guardOf_eq (by omega) (by omega), fb_eq (by omega), fb_eq (by omega), fb_eq (by omega), fb_eq (by omega)⟩

theorem rawScalar_waitc {word : Nat} (h : fld word 25 7 = 88) :
    rawScalar word = if fld word 16 5 = 0 then .ok (.waitc (guardOf word) (fb word 12 4) (fb word 8 4) (fb word 4 4) (fb word 0 4)) else .error .reserved := by
  unfold rawScalar
  rw [h]
  rfl

theorem Laws.Encoding.waitc (g : Guard) (l : BitVec 4) (s : BitVec 4) (c : BitVec 4) (t : BitVec 4) : Laws.Encoding.Statement (.waitc g l s c t) := by
  obtain ⟨hl, ho, h0, h1, h2, h3, h4, h5⟩ := layout27 g l s c t (op := 88) (by decide) rfl
  exact mk_sa rfl fun _ => ⟨hl, (rawScalar_waitc ho).trans (by rw [if_pos h0, h1, h2, h3, h4, h5])⟩

theorem rawScalar_sleep {word : Nat} (h : fld word 25 7 = 89) :
    rawScalar word = if fld word 0 11 = 0 ∧ fld word 16 5 = 0 then .ok (.sleep (guardOf word) (fb word 11 5)) else .error .reserved := by
  unfold rawScalar
  rw [h]
  rfl

theorem Laws.Encoding.sleep (g : Guard) (a : BitVec 5) : Laws.Encoding.Statement (.sleep g a) := by
  obtain ⟨hl, ho, h0, h1, h2⟩ := layout13 g a (op := 89) (by decide) rfl
  exact mk_sa rfl fun _ => ⟨hl, (rawScalar_sleep ho).trans (by rw [if_pos h0, h1, h2])⟩

theorem layout28 {op word : Nat} (g : Guard) (d : BitVec 5) (ho : op < 128)
    (hw : op * 2 ^ 25 + (g.neg.toNat * 2 ^ 24 + g.pred.toNat * 2 ^ 21) + 0 + (d.toNat * 2 ^ 16 + 0) = word) :
    word < 2 ^ 32 ∧ fld word 25 7 = op ∧ (fld word 0 16 = 0) ∧ guardOf word = g ∧ fb word 16 5 = d := by
  exact ⟨by omega, by unfold fld; omega, by unfold fld; omega, guardOf_eq (by omega) (by omega), fb_eq (by omega)⟩

theorem rawScalar_cyc {word : Nat} (h : fld word 25 7 = 90) :
    rawScalar word = if fld word 0 16 = 0 then .ok (.cyc (guardOf word) (fb word 16 5)) else .error .reserved := by
  unfold rawScalar
  rw [h]
  rfl

theorem Laws.Encoding.cyc (g : Guard) (d : BitVec 5) : Laws.Encoding.Statement (.cyc g d) := by
  obtain ⟨hl, ho, h0, h1, h2⟩ := layout28 g d (op := 90) (by decide) rfl
  exact mk_sa rfl fun _ => ⟨hl, (rawScalar_cyc ho).trans (by rw [if_pos h0, h1, h2])⟩

theorem rawScalar_isync {word : Nat} (h : fld word 25 7 = 92) :
    rawScalar word = if fld word 0 16 = 0 then .ok (.isync (guardOf word) (fb word 16 5)) else .error .reserved := by
  unfold rawScalar
  rw [h]
  rfl

theorem Laws.Encoding.isync (g : Guard) (d : BitVec 5) : Laws.Encoding.Statement (.isync g d) := by
  obtain ⟨hl, ho, h0, h1, h2⟩ := layout28 g d (op := 92) (by decide) rfl
  exact mk_sa rfl fun _ => ⟨hl, (rawScalar_isync ho).trans (by rw [if_pos h0, h1, h2])⟩

theorem rawScalar_segmark {word : Nat} (h : fld word 25 7 = 93) :
    rawScalar word = if fld word 0 11 = 0 ∧ fld word 16 5 = 0 then .ok (.segmark (guardOf word) (fb word 11 5)) else .error .reserved := by
  unfold rawScalar
  rw [h]
  rfl

theorem Laws.Encoding.segmark (g : Guard) (a : BitVec 5) : Laws.Encoding.Statement (.segmark g a) := by
  obtain ⟨hl, ho, h0, h1, h2⟩ := layout13 g a (op := 93) (by decide) rfl
  exact mk_sa rfl fun _ => ⟨hl, (rawScalar_segmark ho).trans (by rw [if_pos h0, h1, h2])⟩

theorem rawScalar_bswap {word : Nat} (h : fld word 25 7 = 94) :
    rawScalar word = if fld word 0 11 = 0 ∧ fld word 16 5 = 0 then .ok (.bswap (guardOf word) (fb word 11 5)) else .error .reserved := by
  unfold rawScalar
  rw [h]
  rfl

theorem Laws.Encoding.bswap (g : Guard) (a : BitVec 5) : Laws.Encoding.Statement (.bswap g a) := by
  obtain ⟨hl, ho, h0, h1, h2⟩ := layout13 g a (op := 94) (by decide) rfl
  exact mk_sa rfl fun _ => ⟨hl, (rawScalar_bswap ho).trans (by rw [if_pos h0, h1, h2])⟩

theorem layout29 {op word : Nat} (g : Guard) (v : BitVec 4) (a : BitVec 4) (b : BitVec 4) (t : BitVec 4) (k : BitVec 3) (f : BitVec 2) (ho : op < 128)
    (hw : op * 2 ^ 25 + (g.neg.toNat * 2 ^ 24 + g.pred.toNat * 2 ^ 21) + 0 + (v.toNat * 2 ^ 17 + (a.toNat * 2 ^ 13 + (b.toNat * 2 ^ 9 + (t.toNat * 2 ^ 5 + (k.toNat * 2 ^ 2 + (f.toNat * 2 ^ 0 + 0)))))) = word) :
    word < 2 ^ 32 ∧ fld word 25 7 = op ∧ guardOf word = g ∧ fb word 17 4 = v ∧ fb word 13 4 = a ∧ fb word 9 4 = b ∧ fb word 5 4 = t ∧ fb word 2 3 = k ∧ fb word 0 2 = f := by
  exact ⟨by omega, by unfold fld; omega, guardOf_eq (by omega) (by omega), fb_eq (by omega), fb_eq (by omega), fb_eq (by omega), fb_eq (by omega), fb_eq (by omega), fb_eq (by omega)⟩

theorem rawVector_vadd {word : Nat} (h : fld word 25 7 = 1) :
    rawVector word = .ok (.vadd (guardOf word) (fb word 17 4) (fb word 13 4) (fb word 9 4) (fb word 5 4) (fb word 2 3) (fb word 0 2)) := by
  unfold rawVector
  rw [h]
  rfl

theorem Laws.Encoding.vadd (g : Guard) (v : BitVec 4) (a : BitVec 4) (b : BitVec 4) (t : BitVec 4) (k : BitVec 3) (f : BitVec 2) : Laws.Encoding.Statement (.vadd g v a b t k f) := by
  obtain ⟨hl, ho, h0, h1, h2, h3, h4, h5, h6⟩ := layout29 g v a b t k f (op := 1) (by decide) rfl
  exact mk_vector rfl fun _ => ⟨hl, (rawVector_vadd ho).trans (by rw [h0, h1, h2, h3, h4, h5, h6])⟩

theorem rawVector_vsub {word : Nat} (h : fld word 25 7 = 2) :
    rawVector word = .ok (.vsub (guardOf word) (fb word 17 4) (fb word 13 4) (fb word 9 4) (fb word 5 4) (fb word 2 3) (fb word 0 2)) := by
  unfold rawVector
  rw [h]
  rfl

theorem Laws.Encoding.vsub (g : Guard) (v : BitVec 4) (a : BitVec 4) (b : BitVec 4) (t : BitVec 4) (k : BitVec 3) (f : BitVec 2) : Laws.Encoding.Statement (.vsub g v a b t k f) := by
  obtain ⟨hl, ho, h0, h1, h2, h3, h4, h5, h6⟩ := layout29 g v a b t k f (op := 2) (by decide) rfl
  exact mk_vector rfl fun _ => ⟨hl, (rawVector_vsub ho).trans (by rw [h0, h1, h2, h3, h4, h5, h6])⟩

theorem rawVector_vmul {word : Nat} (h : fld word 25 7 = 3) :
    rawVector word = .ok (.vmul (guardOf word) (fb word 17 4) (fb word 13 4) (fb word 9 4) (fb word 5 4) (fb word 2 3) (fb word 0 2)) := by
  unfold rawVector
  rw [h]
  rfl

theorem Laws.Encoding.vmul (g : Guard) (v : BitVec 4) (a : BitVec 4) (b : BitVec 4) (t : BitVec 4) (k : BitVec 3) (f : BitVec 2) : Laws.Encoding.Statement (.vmul g v a b t k f) := by
  obtain ⟨hl, ho, h0, h1, h2, h3, h4, h5, h6⟩ := layout29 g v a b t k f (op := 3) (by decide) rfl
  exact mk_vector rfl fun _ => ⟨hl, (rawVector_vmul ho).trans (by rw [h0, h1, h2, h3, h4, h5, h6])⟩

theorem rawVector_vfma {word : Nat} (h : fld word 25 7 = 4) :
    rawVector word = .ok (.vfma (guardOf word) (fb word 17 4) (fb word 13 4) (fb word 9 4) (fb word 5 4) (fb word 2 3) (fb word 0 2)) := by
  unfold rawVector
  rw [h]
  rfl

theorem Laws.Encoding.vfma (g : Guard) (v : BitVec 4) (a : BitVec 4) (b : BitVec 4) (t : BitVec 4) (k : BitVec 3) (f : BitVec 2) : Laws.Encoding.Statement (.vfma g v a b t k f) := by
  obtain ⟨hl, ho, h0, h1, h2, h3, h4, h5, h6⟩ := layout29 g v a b t k f (op := 4) (by decide) rfl
  exact mk_vector rfl fun _ => ⟨hl, (rawVector_vfma ho).trans (by rw [h0, h1, h2, h3, h4, h5, h6])⟩

theorem layout30 {op word : Nat} (g : Guard) (v : BitVec 4) (a : BitVec 4) (b : BitVec 4) (t : BitVec 4) (k : BitVec 3) (ho : op < 128)
    (hw : op * 2 ^ 25 + (g.neg.toNat * 2 ^ 24 + g.pred.toNat * 2 ^ 21) + 0 + (v.toNat * 2 ^ 17 + (a.toNat * 2 ^ 13 + (b.toNat * 2 ^ 9 + (t.toNat * 2 ^ 5 + (k.toNat * 2 ^ 2 + 0))))) = word) :
    word < 2 ^ 32 ∧ fld word 25 7 = op ∧ (fld word 0 2 = 0) ∧ guardOf word = g ∧ fb word 17 4 = v ∧ fb word 13 4 = a ∧ fb word 9 4 = b ∧ fb word 5 4 = t ∧ fb word 2 3 = k := by
  exact ⟨by omega, by unfold fld; omega, by unfold fld; omega, guardOf_eq (by omega) (by omega), fb_eq (by omega), fb_eq (by omega), fb_eq (by omega), fb_eq (by omega), fb_eq (by omega)⟩

theorem rawVector_vmin {word : Nat} (h : fld word 25 7 = 5) :
    rawVector word = if fld word 0 2 = 0 then .ok (.vmin (guardOf word) (fb word 17 4) (fb word 13 4) (fb word 9 4) (fb word 5 4) (fb word 2 3)) else .error .reserved := by
  unfold rawVector
  rw [h]
  rfl

theorem Laws.Encoding.vmin (g : Guard) (v : BitVec 4) (a : BitVec 4) (b : BitVec 4) (t : BitVec 4) (k : BitVec 3) : Laws.Encoding.Statement (.vmin g v a b t k) := by
  obtain ⟨hl, ho, h0, h1, h2, h3, h4, h5, h6⟩ := layout30 g v a b t k (op := 5) (by decide) rfl
  exact mk_vector rfl fun _ => ⟨hl, (rawVector_vmin ho).trans (by rw [if_pos h0, h1, h2, h3, h4, h5, h6])⟩

theorem rawVector_vmax {word : Nat} (h : fld word 25 7 = 6) :
    rawVector word = if fld word 0 2 = 0 then .ok (.vmax (guardOf word) (fb word 17 4) (fb word 13 4) (fb word 9 4) (fb word 5 4) (fb word 2 3)) else .error .reserved := by
  unfold rawVector
  rw [h]
  rfl

theorem Laws.Encoding.vmax (g : Guard) (v : BitVec 4) (a : BitVec 4) (b : BitVec 4) (t : BitVec 4) (k : BitVec 3) : Laws.Encoding.Statement (.vmax g v a b t k) := by
  obtain ⟨hl, ho, h0, h1, h2, h3, h4, h5, h6⟩ := layout30 g v a b t k (op := 6) (by decide) rfl
  exact mk_vector rfl fun _ => ⟨hl, (rawVector_vmax ho).trans (by rw [if_pos h0, h1, h2, h3, h4, h5, h6])⟩

theorem layout31 {op word : Nat} (g : Guard) (v : BitVec 4) (a : BitVec 4) (t : BitVec 4) (k : BitVec 3) (f : BitVec 1) (ho : op < 128)
    (hw : op * 2 ^ 25 + (g.neg.toNat * 2 ^ 24 + g.pred.toNat * 2 ^ 21) + 0 + (v.toNat * 2 ^ 17 + (a.toNat * 2 ^ 13 + (t.toNat * 2 ^ 5 + (k.toNat * 2 ^ 2 + (f.toNat * 2 ^ 0 + 0))))) = word) :
    word < 2 ^ 32 ∧ fld word 25 7 = op ∧ (fld word 1 1 = 0 ∧ fld word 9 4 = 0) ∧ guardOf word = g ∧ fb word 17 4 = v ∧ fb word 13 4 = a ∧ fb word 5 4 = t ∧ fb word 2 3 = k ∧ fb word 0 1 = f := by
  exact ⟨by omega, by unfold fld; omega, by unfold fld; omega, guardOf_eq (by omega) (by omega), fb_eq (by omega), fb_eq (by omega), fb_eq (by omega), fb_eq (by omega), fb_eq (by omega)⟩

theorem rawVector_vabs {word : Nat} (h : fld word 25 7 = 7) :
    rawVector word = if fld word 1 1 = 0 ∧ fld word 9 4 = 0 then .ok (.vabs (guardOf word) (fb word 17 4) (fb word 13 4) (fb word 5 4) (fb word 2 3) (fb word 0 1)) else .error .reserved := by
  unfold rawVector
  rw [h]
  rfl

theorem Laws.Encoding.vabs (g : Guard) (v : BitVec 4) (a : BitVec 4) (t : BitVec 4) (k : BitVec 3) (f : BitVec 1) : Laws.Encoding.Statement (.vabs g v a t k f) := by
  obtain ⟨hl, ho, h0, h1, h2, h3, h4, h5, h6⟩ := layout31 g v a t k f (op := 7) (by decide) rfl
  exact mk_vector rfl fun _ => ⟨hl, (rawVector_vabs ho).trans (by rw [if_pos h0, h1, h2, h3, h4, h5, h6])⟩

theorem rawVector_vneg {word : Nat} (h : fld word 25 7 = 8) :
    rawVector word = if fld word 1 1 = 0 ∧ fld word 9 4 = 0 then .ok (.vneg (guardOf word) (fb word 17 4) (fb word 13 4) (fb word 5 4) (fb word 2 3) (fb word 0 1)) else .error .reserved := by
  unfold rawVector
  rw [h]
  rfl

theorem Laws.Encoding.vneg (g : Guard) (v : BitVec 4) (a : BitVec 4) (t : BitVec 4) (k : BitVec 3) (f : BitVec 1) : Laws.Encoding.Statement (.vneg g v a t k f) := by
  obtain ⟨hl, ho, h0, h1, h2, h3, h4, h5, h6⟩ := layout31 g v a t k f (op := 8) (by decide) rfl
  exact mk_vector rfl fun _ => ⟨hl, (rawVector_vneg ho).trans (by rw [if_pos h0, h1, h2, h3, h4, h5, h6])⟩

theorem rawVector_vand {word : Nat} (h : fld word 25 7 = 9) :
    rawVector word = if fld word 0 2 = 0 then .ok (.vand (guardOf word) (fb word 17 4) (fb word 13 4) (fb word 9 4) (fb word 5 4) (fb word 2 3)) else .error .reserved := by
  unfold rawVector
  rw [h]
  rfl

theorem Laws.Encoding.vand (g : Guard) (v : BitVec 4) (a : BitVec 4) (b : BitVec 4) (t : BitVec 4) (k : BitVec 3) : Laws.Encoding.Statement (.vand g v a b t k) := by
  obtain ⟨hl, ho, h0, h1, h2, h3, h4, h5, h6⟩ := layout30 g v a b t k (op := 9) (by decide) rfl
  exact mk_vector rfl fun _ => ⟨hl, (rawVector_vand ho).trans (by rw [if_pos h0, h1, h2, h3, h4, h5, h6])⟩

theorem rawVector_vor {word : Nat} (h : fld word 25 7 = 10) :
    rawVector word = if fld word 0 2 = 0 then .ok (.vor (guardOf word) (fb word 17 4) (fb word 13 4) (fb word 9 4) (fb word 5 4) (fb word 2 3)) else .error .reserved := by
  unfold rawVector
  rw [h]
  rfl

theorem Laws.Encoding.vor (g : Guard) (v : BitVec 4) (a : BitVec 4) (b : BitVec 4) (t : BitVec 4) (k : BitVec 3) : Laws.Encoding.Statement (.vor g v a b t k) := by
  obtain ⟨hl, ho, h0, h1, h2, h3, h4, h5, h6⟩ := layout30 g v a b t k (op := 10) (by decide) rfl
  exact mk_vector rfl fun _ => ⟨hl, (rawVector_vor ho).trans (by rw [if_pos h0, h1, h2, h3, h4, h5, h6])⟩

theorem rawVector_vxor {word : Nat} (h : fld word 25 7 = 11) :
    rawVector word = if fld word 0 2 = 0 then .ok (.vxor (guardOf word) (fb word 17 4) (fb word 13 4) (fb word 9 4) (fb word 5 4) (fb word 2 3)) else .error .reserved := by
  unfold rawVector
  rw [h]
  rfl

theorem Laws.Encoding.vxor (g : Guard) (v : BitVec 4) (a : BitVec 4) (b : BitVec 4) (t : BitVec 4) (k : BitVec 3) : Laws.Encoding.Statement (.vxor g v a b t k) := by
  obtain ⟨hl, ho, h0, h1, h2, h3, h4, h5, h6⟩ := layout30 g v a b t k (op := 11) (by decide) rfl
  exact mk_vector rfl fun _ => ⟨hl, (rawVector_vxor ho).trans (by rw [if_pos h0, h1, h2, h3, h4, h5, h6])⟩

theorem rawVector_vshl {word : Nat} (h : fld word 25 7 = 12) :
    rawVector word = if fld word 0 2 = 0 then .ok (.vshl (guardOf word) (fb word 17 4) (fb word 13 4) (fb word 9 4) (fb word 5 4) (fb word 2 3)) else .error .reserved := by
  unfold rawVector
  rw [h]
  rfl

theorem Laws.Encoding.vshl (g : Guard) (v : BitVec 4) (a : BitVec 4) (b : BitVec 4) (t : BitVec 4) (k : BitVec 3) : Laws.Encoding.Statement (.vshl g v a b t k) := by
  obtain ⟨hl, ho, h0, h1, h2, h3, h4, h5, h6⟩ := layout30 g v a b t k (op := 12) (by decide) rfl
  exact mk_vector rfl fun _ => ⟨hl, (rawVector_vshl ho).trans (by rw [if_pos h0, h1, h2, h3, h4, h5, h6])⟩

theorem rawVector_vshr {word : Nat} (h : fld word 25 7 = 13) :
    rawVector word = if fld word 0 2 = 0 then .ok (.vshr (guardOf word) (fb word 17 4) (fb word 13 4) (fb word 9 4) (fb word 5 4) (fb word 2 3)) else .error .reserved := by
  unfold rawVector
  rw [h]
  rfl

theorem Laws.Encoding.vshr (g : Guard) (v : BitVec 4) (a : BitVec 4) (b : BitVec 4) (t : BitVec 4) (k : BitVec 3) : Laws.Encoding.Statement (.vshr g v a b t k) := by
  obtain ⟨hl, ho, h0, h1, h2, h3, h4, h5, h6⟩ := layout30 g v a b t k (op := 13) (by decide) rfl
  exact mk_vector rfl fun _ => ⟨hl, (rawVector_vshr ho).trans (by rw [if_pos h0, h1, h2, h3, h4, h5, h6])⟩

theorem rawVector_vsar {word : Nat} (h : fld word 25 7 = 14) :
    rawVector word = if fld word 0 2 = 0 then .ok (.vsar (guardOf word) (fb word 17 4) (fb word 13 4) (fb word 9 4) (fb word 5 4) (fb word 2 3)) else .error .reserved := by
  unfold rawVector
  rw [h]
  rfl

theorem Laws.Encoding.vsar (g : Guard) (v : BitVec 4) (a : BitVec 4) (b : BitVec 4) (t : BitVec 4) (k : BitVec 3) : Laws.Encoding.Statement (.vsar g v a b t k) := by
  obtain ⟨hl, ho, h0, h1, h2, h3, h4, h5, h6⟩ := layout30 g v a b t k (op := 14) (by decide) rfl
  exact mk_vector rfl fun _ => ⟨hl, (rawVector_vsar ho).trans (by rw [if_pos h0, h1, h2, h3, h4, h5, h6])⟩

theorem layout32 {op word : Nat} (g : Guard) (d : BitVec 3) (a : BitVec 4) (b : BitVec 4) (t : BitVec 4) (k : BitVec 3) (ho : op < 128)
    (hw : op * 2 ^ 25 + (g.neg.toNat * 2 ^ 24 + g.pred.toNat * 2 ^ 21) + 0 + (d.toNat * 2 ^ 17 + (a.toNat * 2 ^ 13 + (b.toNat * 2 ^ 9 + (t.toNat * 2 ^ 5 + (k.toNat * 2 ^ 2 + 0))))) = word) :
    word < 2 ^ 32 ∧ fld word 25 7 = op ∧ (fld word 0 2 = 0 ∧ fld word 20 1 = 0) ∧ guardOf word = g ∧ fb word 17 3 = d ∧ fb word 13 4 = a ∧ fb word 9 4 = b ∧ fb word 5 4 = t ∧ fb word 2 3 = k := by
  exact ⟨by omega, by unfold fld; omega, by unfold fld; omega, guardOf_eq (by omega) (by omega), fb_eq (by omega), fb_eq (by omega), fb_eq (by omega), fb_eq (by omega), fb_eq (by omega)⟩

theorem rawVector_vcmpEq {word : Nat} (h : fld word 25 7 = 16) :
    rawVector word = if fld word 0 2 = 0 ∧ fld word 20 1 = 0 then .ok (.vcmpEq (guardOf word) (fb word 17 3) (fb word 13 4) (fb word 9 4) (fb word 5 4) (fb word 2 3)) else .error .reserved := by
  unfold rawVector
  rw [h]
  rfl

theorem Laws.Encoding.vcmpEq (g : Guard) (d : BitVec 3) (a : BitVec 4) (b : BitVec 4) (t : BitVec 4) (k : BitVec 3) : Laws.Encoding.Statement (.vcmpEq g d a b t k) := by
  obtain ⟨hl, ho, h0, h1, h2, h3, h4, h5, h6⟩ := layout32 g d a b t k (op := 16) (by decide) rfl
  exact mk_vector rfl fun _ => ⟨hl, (rawVector_vcmpEq ho).trans (by rw [if_pos h0, h1, h2, h3, h4, h5, h6])⟩

theorem rawVector_vcmpNe {word : Nat} (h : fld word 25 7 = 17) :
    rawVector word = if fld word 0 2 = 0 ∧ fld word 20 1 = 0 then .ok (.vcmpNe (guardOf word) (fb word 17 3) (fb word 13 4) (fb word 9 4) (fb word 5 4) (fb word 2 3)) else .error .reserved := by
  unfold rawVector
  rw [h]
  rfl

theorem Laws.Encoding.vcmpNe (g : Guard) (d : BitVec 3) (a : BitVec 4) (b : BitVec 4) (t : BitVec 4) (k : BitVec 3) : Laws.Encoding.Statement (.vcmpNe g d a b t k) := by
  obtain ⟨hl, ho, h0, h1, h2, h3, h4, h5, h6⟩ := layout32 g d a b t k (op := 17) (by decide) rfl
  exact mk_vector rfl fun _ => ⟨hl, (rawVector_vcmpNe ho).trans (by rw [if_pos h0, h1, h2, h3, h4, h5, h6])⟩

theorem rawVector_vcmpLt {word : Nat} (h : fld word 25 7 = 18) :
    rawVector word = if fld word 0 2 = 0 ∧ fld word 20 1 = 0 then .ok (.vcmpLt (guardOf word) (fb word 17 3) (fb word 13 4) (fb word 9 4) (fb word 5 4) (fb word 2 3)) else .error .reserved := by
  unfold rawVector
  rw [h]
  rfl

theorem Laws.Encoding.vcmpLt (g : Guard) (d : BitVec 3) (a : BitVec 4) (b : BitVec 4) (t : BitVec 4) (k : BitVec 3) : Laws.Encoding.Statement (.vcmpLt g d a b t k) := by
  obtain ⟨hl, ho, h0, h1, h2, h3, h4, h5, h6⟩ := layout32 g d a b t k (op := 18) (by decide) rfl
  exact mk_vector rfl fun _ => ⟨hl, (rawVector_vcmpLt ho).trans (by rw [if_pos h0, h1, h2, h3, h4, h5, h6])⟩

theorem rawVector_vcmpLtu {word : Nat} (h : fld word 25 7 = 19) :
    rawVector word = if fld word 0 2 = 0 ∧ fld word 20 1 = 0 then .ok (.vcmpLtu (guardOf word) (fb word 17 3) (fb word 13 4) (fb word 9 4) (fb word 5 4) (fb word 2 3)) else .error .reserved := by
  unfold rawVector
  rw [h]
  rfl

theorem Laws.Encoding.vcmpLtu (g : Guard) (d : BitVec 3) (a : BitVec 4) (b : BitVec 4) (t : BitVec 4) (k : BitVec 3) : Laws.Encoding.Statement (.vcmpLtu g d a b t k) := by
  obtain ⟨hl, ho, h0, h1, h2, h3, h4, h5, h6⟩ := layout32 g d a b t k (op := 19) (by decide) rfl
  exact mk_vector rfl fun _ => ⟨hl, (rawVector_vcmpLtu ho).trans (by rw [if_pos h0, h1, h2, h3, h4, h5, h6])⟩

theorem rawVector_vcmpGe {word : Nat} (h : fld word 25 7 = 20) :
    rawVector word = if fld word 0 2 = 0 ∧ fld word 20 1 = 0 then .ok (.vcmpGe (guardOf word) (fb word 17 3) (fb word 13 4) (fb word 9 4) (fb word 5 4) (fb word 2 3)) else .error .reserved := by
  unfold rawVector
  rw [h]
  rfl

theorem Laws.Encoding.vcmpGe (g : Guard) (d : BitVec 3) (a : BitVec 4) (b : BitVec 4) (t : BitVec 4) (k : BitVec 3) : Laws.Encoding.Statement (.vcmpGe g d a b t k) := by
  obtain ⟨hl, ho, h0, h1, h2, h3, h4, h5, h6⟩ := layout32 g d a b t k (op := 20) (by decide) rfl
  exact mk_vector rfl fun _ => ⟨hl, (rawVector_vcmpGe ho).trans (by rw [if_pos h0, h1, h2, h3, h4, h5, h6])⟩

theorem rawVector_vcmpGeu {word : Nat} (h : fld word 25 7 = 21) :
    rawVector word = if fld word 0 2 = 0 ∧ fld word 20 1 = 0 then .ok (.vcmpGeu (guardOf word) (fb word 17 3) (fb word 13 4) (fb word 9 4) (fb word 5 4) (fb word 2 3)) else .error .reserved := by
  unfold rawVector
  rw [h]
  rfl

theorem Laws.Encoding.vcmpGeu (g : Guard) (d : BitVec 3) (a : BitVec 4) (b : BitVec 4) (t : BitVec 4) (k : BitVec 3) : Laws.Encoding.Statement (.vcmpGeu g d a b t k) := by
  obtain ⟨hl, ho, h0, h1, h2, h3, h4, h5, h6⟩ := layout32 g d a b t k (op := 21) (by decide) rfl
  exact mk_vector rfl fun _ => ⟨hl, (rawVector_vcmpGeu ho).trans (by rw [if_pos h0, h1, h2, h3, h4, h5, h6])⟩

theorem rawVector_vsel {word : Nat} (h : fld word 25 7 = 22) :
    rawVector word = if fld word 0 2 = 0 then .ok (.vsel (guardOf word) (fb word 17 4) (fb word 13 4) (fb word 9 4) (fb word 5 4) (fb word 2 3)) else .error .reserved := by
  unfold rawVector
  rw [h]
  rfl

theorem Laws.Encoding.vsel (g : Guard) (v : BitVec 4) (a : BitVec 4) (b : BitVec 4) (t : BitVec 4) (k : BitVec 3) : Laws.Encoding.Statement (.vsel g v a b t k) := by
  obtain ⟨hl, ho, h0, h1, h2, h3, h4, h5, h6⟩ := layout30 g v a b t k (op := 22) (by decide) rfl
  exact mk_vector rfl fun _ => ⟨hl, (rawVector_vsel ho).trans (by rw [if_pos h0, h1, h2, h3, h4, h5, h6])⟩

theorem layout33 {op word : Nat} (g : Guard) (v : BitVec 4) (a : BitVec 4) (s : BitVec 4) (t : BitVec 4) (k : BitVec 3) (f : BitVec 2) (ho : op < 128)
    (hw : op * 2 ^ 25 + (g.neg.toNat * 2 ^ 24 + g.pred.toNat * 2 ^ 21) + 0 + (v.toNat * 2 ^ 17 + (a.toNat * 2 ^ 13 + (s.toNat * 2 ^ 9 + (t.toNat * 2 ^ 5 + (k.toNat * 2 ^ 2 + (f.toNat * 2 ^ 0 + 0)))))) = word) :
    word < 2 ^ 32 ∧ fld word 25 7 = op ∧ guardOf word = g ∧ fb word 17 4 = v ∧ fb word 13 4 = a ∧ fb word 9 4 = s ∧ fb word 5 4 = t ∧ fb word 2 3 = k ∧ fb word 0 2 = f := by
  exact ⟨by omega, by unfold fld; omega, guardOf_eq (by omega) (by omega), fb_eq (by omega), fb_eq (by omega), fb_eq (by omega), fb_eq (by omega), fb_eq (by omega), fb_eq (by omega)⟩

theorem rawVector_vcvt {word : Nat} (h : fld word 25 7 = 24) :
    rawVector word = .ok (.vcvt (guardOf word) (fb word 17 4) (fb word 13 4) (fb word 9 4) (fb word 5 4) (fb word 2 3) (fb word 0 2)) := by
  unfold rawVector
  rw [h]
  rfl

theorem Laws.Encoding.vcvt (g : Guard) (v : BitVec 4) (a : BitVec 4) (s : BitVec 4) (t : BitVec 4) (k : BitVec 3) (f : BitVec 2) : Laws.Encoding.Statement (.vcvt g v a s t k f) := by
  obtain ⟨hl, ho, h0, h1, h2, h3, h4, h5, h6⟩ := layout33 g v a s t k f (op := 24) (by decide) rfl
  exact mk_vector rfl fun _ => ⟨hl, (rawVector_vcvt ho).trans (by rw [h0, h1, h2, h3, h4, h5, h6])⟩

theorem layout34 {op word : Nat} (g : Guard) (v : BitVec 4) (a : BitVec 4) (n : BitVec 3) (t : BitVec 4) (k : BitVec 3) (f : BitVec 2) (ho : op < 128)
    (hw : op * 2 ^ 25 + (g.neg.toNat * 2 ^ 24 + g.pred.toNat * 2 ^ 21) + 0 + (v.toNat * 2 ^ 17 + (a.toNat * 2 ^ 13 + (n.toNat * 2 ^ 9 + (t.toNat * 2 ^ 5 + (k.toNat * 2 ^ 2 + (f.toNat * 2 ^ 0 + 0)))))) = word) :
    word < 2 ^ 32 ∧ fld word 25 7 = op ∧ (fld word 12 1 = 0) ∧ guardOf word = g ∧ fb word 17 4 = v ∧ fb word 13 4 = a ∧ fb word 9 3 = n ∧ fb word 5 4 = t ∧ fb word 2 3 = k ∧ fb word 0 2 = f := by
  exact ⟨by omega, by unfold fld; omega, by unfold fld; omega, guardOf_eq (by omega) (by omega), fb_eq (by omega), fb_eq (by omega), fb_eq (by omega), fb_eq (by omega), fb_eq (by omega), fb_eq (by omega)⟩

theorem rawVector_vrot {word : Nat} (h : fld word 25 7 = 25) :
    rawVector word = if fld word 12 1 = 0 then .ok (.vrot (guardOf word) (fb word 17 4) (fb word 13 4) (fb word 9 3) (fb word 5 4) (fb word 2 3) (fb word 0 2)) else .error .reserved := by
  unfold rawVector
  rw [h]
  rfl

theorem Laws.Encoding.vrot (g : Guard) (v : BitVec 4) (a : BitVec 4) (n : BitVec 3) (t : BitVec 4) (k : BitVec 3) (f : BitVec 2) : Laws.Encoding.Statement (.vrot g v a n t k f) := by
  obtain ⟨hl, ho, h0, h1, h2, h3, h4, h5, h6, h7⟩ := layout34 g v a n t k f (op := 25) (by decide) rfl
  exact mk_vector rfl fun _ => ⟨hl, (rawVector_vrot ho).trans (by rw [if_pos h0, h1, h2, h3, h4, h5, h6, h7])⟩

theorem layout35 {op word : Nat} (g : Guard) (v : BitVec 4) (a : BitVec 4) (t : BitVec 4) (k : BitVec 3) (ho : op < 128)
    (hw : op * 2 ^ 25 + (g.neg.toNat * 2 ^ 24 + g.pred.toNat * 2 ^ 21) + 0 + (v.toNat * 2 ^ 17 + (a.toNat * 2 ^ 13 + (t.toNat * 2 ^ 5 + (k.toNat * 2 ^ 2 + 0)))) = word) :
    word < 2 ^ 32 ∧ fld word 25 7 = op ∧ (fld word 0 2 = 0 ∧ fld word 9 4 = 0) ∧ guardOf word = g ∧ fb word 17 4 = v ∧ fb word 13 4 = a ∧ fb word 5 4 = t ∧ fb word 2 3 = k := by
  exact ⟨by omega, by unfold fld; omega, by unfold fld; omega, guardOf_eq (by omega) (by omega), fb_eq (by omega), fb_eq (by omega), fb_eq (by omega), fb_eq (by omega)⟩

theorem rawVector_virot {word : Nat} (h : fld word 25 7 = 26) :
    rawVector word = if fld word 0 2 = 0 ∧ fld word 9 4 = 0 then .ok (.virot (guardOf word) (fb word 17 4) (fb word 13 4) (fb word 5 4) (fb word 2 3)) else .error .reserved := by
  unfold rawVector
  rw [h]
  rfl

theorem Laws.Encoding.virot (g : Guard) (v : BitVec 4) (a : BitVec 4) (t : BitVec 4) (k : BitVec 3) : Laws.Encoding.Statement (.virot g v a t k) := by
  obtain ⟨hl, ho, h0, h1, h2, h3, h4, h5⟩ := layout35 g v a t k (op := 26) (by decide) rfl
  exact mk_vector rfl fun _ => ⟨hl, (rawVector_virot ho).trans (by rw [if_pos h0, h1, h2, h3, h4, h5])⟩

theorem layout36 {op word : Nat} (g : Guard) (v : BitVec 4) (a : BitVec 4) (t : BitVec 4) (k : BitVec 3) (u : BitVec 1) (x : BitVec 1) (ho : op < 128)
    (hw : op * 2 ^ 25 + (g.neg.toNat * 2 ^ 24 + g.pred.toNat * 2 ^ 21) + 0 + (v.toNat * 2 ^ 17 + (a.toNat * 2 ^ 13 + (t.toNat * 2 ^ 5 + (k.toNat * 2 ^ 2 + (u.toNat * 2 ^ 1 + (x.toNat * 2 ^ 0 + 0)))))) = word) :
    word < 2 ^ 32 ∧ fld word 25 7 = op ∧ (fld word 9 4 = 0) ∧ guardOf word = g ∧ fb word 17 4 = v ∧ fb word 13 4 = a ∧ fb word 5 4 = t ∧ fb word 2 3 = k ∧ fb word 1 1 = u ∧ fb word 0 1 = x := by
  exact ⟨by omega, by unfold fld; omega, by unfold fld; omega, guardOf_eq (by omega) (by omega), fb_eq (by omega), fb_eq (by omega), fb_eq (by omega), fb_eq (by omega), fb_eq (by omega), fb_eq (by omega)⟩

theorem rawVector_vredSum {word : Nat} (h : fld word 25 7 = 28) :
    rawVector word = if fld word 9 4 = 0 then .ok (.vredSum (guardOf word) (fb word 17 4) (fb word 13 4) (fb word 5 4) (fb word 2 3) (fb word 1 1) (fb word 0 1)) else .error .reserved := by
  unfold rawVector
  rw [h]
  rfl

theorem Laws.Encoding.vredSum (g : Guard) (v : BitVec 4) (a : BitVec 4) (t : BitVec 4) (k : BitVec 3) (u : BitVec 1) (x : BitVec 1) : Laws.Encoding.Statement (.vredSum g v a t k u x) := by
  obtain ⟨hl, ho, h0, h1, h2, h3, h4, h5, h6, h7⟩ := layout36 g v a t k u x (op := 28) (by decide) rfl
  exact mk_vector rfl fun _ => ⟨hl, (rawVector_vredSum ho).trans (by rw [if_pos h0, h1, h2, h3, h4, h5, h6, h7])⟩

theorem layout37 {op word : Nat} (g : Guard) (v : BitVec 4) (a : BitVec 4) (t : BitVec 4) (k : BitVec 3) (x : BitVec 1) (ho : op < 128)
    (hw : op * 2 ^ 25 + (g.neg.toNat * 2 ^ 24 + g.pred.toNat * 2 ^ 21) + 0 + (v.toNat * 2 ^ 17 + (a.toNat * 2 ^ 13 + (t.toNat * 2 ^ 5 + (k.toNat * 2 ^ 2 + (x.toNat * 2 ^ 0 + 0))))) = word) :
    word < 2 ^ 32 ∧ fld word 25 7 = op ∧ (fld word 1 1 = 0 ∧ fld word 9 4 = 0) ∧ guardOf word = g ∧ fb word 17 4 = v ∧ fb word 13 4 = a ∧ fb word 5 4 = t ∧ fb word 2 3 = k ∧ fb word 0 1 = x := by
  exact ⟨by omega, by unfold fld; omega, by unfold fld; omega, guardOf_eq (by omega) (by omega), fb_eq (by omega), fb_eq (by omega), fb_eq (by omega), fb_eq (by omega), fb_eq (by omega)⟩

theorem rawVector_vredMax {word : Nat} (h : fld word 25 7 = 29) :
    rawVector word = if fld word 1 1 = 0 ∧ fld word 9 4 = 0 then .ok (.vredMax (guardOf word) (fb word 17 4) (fb word 13 4) (fb word 5 4) (fb word 2 3) (fb word 0 1)) else .error .reserved := by
  unfold rawVector
  rw [h]
  rfl

theorem Laws.Encoding.vredMax (g : Guard) (v : BitVec 4) (a : BitVec 4) (t : BitVec 4) (k : BitVec 3) (x : BitVec 1) : Laws.Encoding.Statement (.vredMax g v a t k x) := by
  obtain ⟨hl, ho, h0, h1, h2, h3, h4, h5, h6⟩ := layout37 g v a t k x (op := 29) (by decide) rfl
  exact mk_vector rfl fun _ => ⟨hl, (rawVector_vredMax ho).trans (by rw [if_pos h0, h1, h2, h3, h4, h5, h6])⟩

theorem rawVector_vredMin {word : Nat} (h : fld word 25 7 = 30) :
    rawVector word = if fld word 1 1 = 0 ∧ fld word 9 4 = 0 then .ok (.vredMin (guardOf word) (fb word 17 4) (fb word 13 4) (fb word 5 4) (fb word 2 3) (fb word 0 1)) else .error .reserved := by
  unfold rawVector
  rw [h]
  rfl

theorem Laws.Encoding.vredMin (g : Guard) (v : BitVec 4) (a : BitVec 4) (t : BitVec 4) (k : BitVec 3) (x : BitVec 1) : Laws.Encoding.Statement (.vredMin g v a t k x) := by
  obtain ⟨hl, ho, h0, h1, h2, h3, h4, h5, h6⟩ := layout37 g v a t k x (op := 30) (by decide) rfl
  exact mk_vector rfl fun _ => ⟨hl, (rawVector_vredMin ho).trans (by rw [if_pos h0, h1, h2, h3, h4, h5, h6])⟩

theorem rawVector_vtrn {word : Nat} (h : fld word 25 7 = 32) :
    rawVector word = if fld word 0 2 = 0 ∧ fld word 9 4 = 0 then .ok (.vtrn (guardOf word) (fb word 17 4) (fb word 13 4) (fb word 5 4) (fb word 2 3)) else .error .reserved := by
  unfold rawVector
  rw [h]
  rfl

theorem Laws.Encoding.vtrn (g : Guard) (v : BitVec 4) (a : BitVec 4) (t : BitVec 4) (k : BitVec 3) : Laws.Encoding.Statement (.vtrn g v a t k) := by
  obtain ⟨hl, ho, h0, h1, h2, h3, h4, h5⟩ := layout35 g v a t k (op := 32) (by decide) rfl
  exact mk_vector rfl fun _ => ⟨hl, (rawVector_vtrn ho).trans (by rw [if_pos h0, h1, h2, h3, h4, h5])⟩

theorem layout38 {op word : Nat} (g : Guard) (d : BitVec 3) (a : BitVec 3) (b : BitVec 3) (ho : op < 128)
    (hw : op * 2 ^ 25 + (g.neg.toNat * 2 ^ 24 + g.pred.toNat * 2 ^ 21) + 0 + (d.toNat * 2 ^ 17 + (a.toNat * 2 ^ 13 + (b.toNat * 2 ^ 9 + 0))) = word) :
    word < 2 ^ 32 ∧ fld word 25 7 = op ∧ (fld word 0 9 = 0 ∧ fld word 12 1 = 0 ∧ fld word 16 1 = 0 ∧ fld word 20 1 = 0) ∧ guardOf word = g ∧ fb word 17 3 = d ∧ fb word 13 3 = a ∧ fb word 9 3 = b := by
  exact ⟨by omega, by unfold fld; omega, by unfold fld; omega, guardOf_eq (by omega) (by omega), fb_eq (by omega), fb_eq (by omega), fb_eq (by omega)⟩

theorem rawVector_kand {word : Nat} (h : fld word 25 7 = 40) :
    rawVector word = if fld word 0 9 = 0 ∧ fld word 12 1 = 0 ∧ fld word 16 1 = 0 ∧ fld word 20 1 = 0 then .ok (.kand (guardOf word) (fb word 17 3) (fb word 13 3) (fb word 9 3)) else .error .reserved := by
  unfold rawVector
  rw [h]
  rfl

theorem Laws.Encoding.kand (g : Guard) (d : BitVec 3) (a : BitVec 3) (b : BitVec 3) : Laws.Encoding.Statement (.kand g d a b) := by
  obtain ⟨hl, ho, h0, h1, h2, h3, h4⟩ := layout38 g d a b (op := 40) (by decide) rfl
  exact mk_vector rfl fun _ => ⟨hl, (rawVector_kand ho).trans (by rw [if_pos h0, h1, h2, h3, h4])⟩

theorem rawVector_kor {word : Nat} (h : fld word 25 7 = 41) :
    rawVector word = if fld word 0 9 = 0 ∧ fld word 12 1 = 0 ∧ fld word 16 1 = 0 ∧ fld word 20 1 = 0 then .ok (.kor (guardOf word) (fb word 17 3) (fb word 13 3) (fb word 9 3)) else .error .reserved := by
  unfold rawVector
  rw [h]
  rfl

theorem Laws.Encoding.kor (g : Guard) (d : BitVec 3) (a : BitVec 3) (b : BitVec 3) : Laws.Encoding.Statement (.kor g d a b) := by
  obtain ⟨hl, ho, h0, h1, h2, h3, h4⟩ := layout38 g d a b (op := 41) (by decide) rfl
  exact mk_vector rfl fun _ => ⟨hl, (rawVector_kor ho).trans (by rw [if_pos h0, h1, h2, h3, h4])⟩

theorem layout39 {op word : Nat} (g : Guard) (d : BitVec 3) (a : BitVec 3) (ho : op < 128)
    (hw : op * 2 ^ 25 + (g.neg.toNat * 2 ^ 24 + g.pred.toNat * 2 ^ 21) + 0 + (d.toNat * 2 ^ 17 + (a.toNat * 2 ^ 13 + 0)) = word) :
    word < 2 ^ 32 ∧ fld word 25 7 = op ∧ (fld word 0 13 = 0 ∧ fld word 16 1 = 0 ∧ fld word 20 1 = 0) ∧ guardOf word = g ∧ fb word 17 3 = d ∧ fb word 13 3 = a := by
  exact ⟨by omega, by unfold fld; omega, by unfold fld; omega, guardOf_eq (by omega) (by omega), fb_eq (by omega), fb_eq (by omega)⟩

theorem rawVector_knot {word : Nat} (h : fld word 25 7 = 42) :
    rawVector word = if fld word 0 13 = 0 ∧ fld word 16 1 = 0 ∧ fld word 20 1 = 0 then .ok (.knot (guardOf word) (fb word 17 3) (fb word 13 3)) else .error .reserved := by
  unfold rawVector
  rw [h]
  rfl

theorem Laws.Encoding.knot (g : Guard) (d : BitVec 3) (a : BitVec 3) : Laws.Encoding.Statement (.knot g d a) := by
  obtain ⟨hl, ho, h0, h1, h2, h3⟩ := layout39 g d a (op := 42) (by decide) rfl
  exact mk_vector rfl fun _ => ⟨hl, (rawVector_knot ho).trans (by rw [if_pos h0, h1, h2, h3])⟩

theorem layout40 {op word : Nat} (g : Guard) (v : BitVec 4) (a : BitVec 4) (s : BitVec 5) (t : BitVec 4) (k : BitVec 3) (f : BitVec 1) (ho : op < 128)
    (hw : op * 2 ^ 25 + (g.neg.toNat * 2 ^ 24 + g.pred.toNat * 2 ^ 21) + 0 + (v.toNat * 2 ^ 17 + (a.toNat * 2 ^ 13 + (s.toNat * 2 ^ 8 + (t.toNat * 2 ^ 4 + (k.toNat * 2 ^ 1 + (f.toNat * 2 ^ 0 + 0)))))) = word) :
    word < 2 ^ 32 ∧ fld word 25 7 = op ∧ guardOf word = g ∧ fb word 17 4 = v ∧ fb word 13 4 = a ∧ fb word 8 5 = s ∧ fb word 4 4 = t ∧ fb word 1 3 = k ∧ fb word 0 1 = f := by
  exact ⟨by omega, by unfold fld; omega, guardOf_eq (by omega) (by omega), fb_eq (by omega), fb_eq (by omega), fb_eq (by omega), fb_eq (by omega), fb_eq (by omega), fb_eq (by omega)⟩

theorem rawVector_vaddScalar {word : Nat} (h : fld word 25 7 = 65) :
    rawVector word = .ok (.vaddScalar (guardOf word) (fb word 17 4) (fb word 13 4) (fb word 8 5) (fb word 4 4) (fb word 1 3) (fb word 0 1)) := by
  unfold rawVector
  rw [h]
  rfl

theorem Laws.Encoding.vaddScalar (g : Guard) (v : BitVec 4) (a : BitVec 4) (s : BitVec 5) (t : BitVec 4) (k : BitVec 3) (f : BitVec 1) : Laws.Encoding.Statement (.vaddScalar g v a s t k f) := by
  obtain ⟨hl, ho, h0, h1, h2, h3, h4, h5, h6⟩ := layout40 g v a s t k f (op := 65) (by decide) rfl
  exact mk_vector rfl fun _ => ⟨hl, (rawVector_vaddScalar ho).trans (by rw [h0, h1, h2, h3, h4, h5, h6])⟩

theorem rawVector_vsubScalar {word : Nat} (h : fld word 25 7 = 66) :
    rawVector word = .ok (.vsubScalar (guardOf word) (fb word 17 4) (fb word 13 4) (fb word 8 5) (fb word 4 4) (fb word 1 3) (fb word 0 1)) := by
  unfold rawVector
  rw [h]
  rfl

theorem Laws.Encoding.vsubScalar (g : Guard) (v : BitVec 4) (a : BitVec 4) (s : BitVec 5) (t : BitVec 4) (k : BitVec 3) (f : BitVec 1) : Laws.Encoding.Statement (.vsubScalar g v a s t k f) := by
  obtain ⟨hl, ho, h0, h1, h2, h3, h4, h5, h6⟩ := layout40 g v a s t k f (op := 66) (by decide) rfl
  exact mk_vector rfl fun _ => ⟨hl, (rawVector_vsubScalar ho).trans (by rw [h0, h1, h2, h3, h4, h5, h6])⟩

theorem rawVector_vmulScalar {word : Nat} (h : fld word 25 7 = 67) :
    rawVector word = .ok (.vmulScalar (guardOf word) (fb word 17 4) (fb word 13 4) (fb word 8 5) (fb word 4 4) (fb word 1 3) (fb word 0 1)) := by
  unfold rawVector
  rw [h]
  rfl

theorem Laws.Encoding.vmulScalar (g : Guard) (v : BitVec 4) (a : BitVec 4) (s : BitVec 5) (t : BitVec 4) (k : BitVec 3) (f : BitVec 1) : Laws.Encoding.Statement (.vmulScalar g v a s t k f) := by
  obtain ⟨hl, ho, h0, h1, h2, h3, h4, h5, h6⟩ := layout40 g v a s t k f (op := 67) (by decide) rfl
  exact mk_vector rfl fun _ => ⟨hl, (rawVector_vmulScalar ho).trans (by rw [h0, h1, h2, h3, h4, h5, h6])⟩

theorem rawVector_vfmaScalar {word : Nat} (h : fld word 25 7 = 68) :
    rawVector word = .ok (.vfmaScalar (guardOf word) (fb word 17 4) (fb word 13 4) (fb word 8 5) (fb word 4 4) (fb word 1 3) (fb word 0 1)) := by
  unfold rawVector
  rw [h]
  rfl

theorem Laws.Encoding.vfmaScalar (g : Guard) (v : BitVec 4) (a : BitVec 4) (s : BitVec 5) (t : BitVec 4) (k : BitVec 3) (f : BitVec 1) : Laws.Encoding.Statement (.vfmaScalar g v a s t k f) := by
  obtain ⟨hl, ho, h0, h1, h2, h3, h4, h5, h6⟩ := layout40 g v a s t k f (op := 68) (by decide) rfl
  exact mk_vector rfl fun _ => ⟨hl, (rawVector_vfmaScalar ho).trans (by rw [h0, h1, h2, h3, h4, h5, h6])⟩

theorem layout41 {op word : Nat} (g : Guard) (v : BitVec 4) (a : BitVec 4) (s : BitVec 5) (t : BitVec 4) (k : BitVec 3) (ho : op < 128)
    (hw : op * 2 ^ 25 + (g.neg.toNat * 2 ^ 24 + g.pred.toNat * 2 ^ 21) + 0 + (v.toNat * 2 ^ 17 + (a.toNat * 2 ^ 13 + (s.toNat * 2 ^ 8 + (t.toNat * 2 ^ 4 + (k.toNat * 2 ^ 1 + 0))))) = word) :
    word < 2 ^ 32 ∧ fld word 25 7 = op ∧ (fld word 0 1 = 0) ∧ guardOf word = g ∧ fb word 17 4 = v ∧ fb word 13 4 = a ∧ fb word 8 5 = s ∧ fb word 4 4 = t ∧ fb word 1 3 = k := by
  exact ⟨by omega, by unfold fld; omega, by unfold fld; omega, guardOf_eq (by omega) (by omega), fb_eq (by omega), fb_eq (by omega), fb_eq (by omega), fb_eq (by omega), fb_eq (by omega)⟩

theorem rawVector_vminScalar {word : Nat} (h : fld word 25 7 = 69) :
    rawVector word = if fld word 0 1 = 0 then .ok (.vminScalar (guardOf word) (fb word 17 4) (fb word 13 4) (fb word 8 5) (fb word 4 4) (fb word 1 3)) else .error .reserved := by
  unfold rawVector
  rw [h]
  rfl

theorem Laws.Encoding.vminScalar (g : Guard) (v : BitVec 4) (a : BitVec 4) (s : BitVec 5) (t : BitVec 4) (k : BitVec 3) : Laws.Encoding.Statement (.vminScalar g v a s t k) := by
  obtain ⟨hl, ho, h0, h1, h2, h3, h4, h5, h6⟩ := layout41 g v a s t k (op := 69) (by decide) rfl
  exact mk_vector rfl fun _ => ⟨hl, (rawVector_vminScalar ho).trans (by rw [if_pos h0, h1, h2, h3, h4, h5, h6])⟩

theorem rawVector_vmaxScalar {word : Nat} (h : fld word 25 7 = 70) :
    rawVector word = if fld word 0 1 = 0 then .ok (.vmaxScalar (guardOf word) (fb word 17 4) (fb word 13 4) (fb word 8 5) (fb word 4 4) (fb word 1 3)) else .error .reserved := by
  unfold rawVector
  rw [h]
  rfl

theorem Laws.Encoding.vmaxScalar (g : Guard) (v : BitVec 4) (a : BitVec 4) (s : BitVec 5) (t : BitVec 4) (k : BitVec 3) : Laws.Encoding.Statement (.vmaxScalar g v a s t k) := by
  obtain ⟨hl, ho, h0, h1, h2, h3, h4, h5, h6⟩ := layout41 g v a s t k (op := 70) (by decide) rfl
  exact mk_vector rfl fun _ => ⟨hl, (rawVector_vmaxScalar ho).trans (by rw [if_pos h0, h1, h2, h3, h4, h5, h6])⟩

theorem rawVector_vandScalar {word : Nat} (h : fld word 25 7 = 73) :
    rawVector word = if fld word 0 1 = 0 then .ok (.vandScalar (guardOf word) (fb word 17 4) (fb word 13 4) (fb word 8 5) (fb word 4 4) (fb word 1 3)) else .error .reserved := by
  unfold rawVector
  rw [h]
  rfl

theorem Laws.Encoding.vandScalar (g : Guard) (v : BitVec 4) (a : BitVec 4) (s : BitVec 5) (t : BitVec 4) (k : BitVec 3) : Laws.Encoding.Statement (.vandScalar g v a s t k) := by
  obtain ⟨hl, ho, h0, h1, h2, h3, h4, h5, h6⟩ := layout41 g v a s t k (op := 73) (by decide) rfl
  exact mk_vector rfl fun _ => ⟨hl, (rawVector_vandScalar ho).trans (by rw [if_pos h0, h1, h2, h3, h4, h5, h6])⟩

theorem rawVector_vorScalar {word : Nat} (h : fld word 25 7 = 74) :
    rawVector word = if fld word 0 1 = 0 then .ok (.vorScalar (guardOf word) (fb word 17 4) (fb word 13 4) (fb word 8 5) (fb word 4 4) (fb word 1 3)) else .error .reserved := by
  unfold rawVector
  rw [h]
  rfl

theorem Laws.Encoding.vorScalar (g : Guard) (v : BitVec 4) (a : BitVec 4) (s : BitVec 5) (t : BitVec 4) (k : BitVec 3) : Laws.Encoding.Statement (.vorScalar g v a s t k) := by
  obtain ⟨hl, ho, h0, h1, h2, h3, h4, h5, h6⟩ := layout41 g v a s t k (op := 74) (by decide) rfl
  exact mk_vector rfl fun _ => ⟨hl, (rawVector_vorScalar ho).trans (by rw [if_pos h0, h1, h2, h3, h4, h5, h6])⟩

theorem rawVector_vxorScalar {word : Nat} (h : fld word 25 7 = 75) :
    rawVector word = if fld word 0 1 = 0 then .ok (.vxorScalar (guardOf word) (fb word 17 4) (fb word 13 4) (fb word 8 5) (fb word 4 4) (fb word 1 3)) else .error .reserved := by
  unfold rawVector
  rw [h]
  rfl

theorem Laws.Encoding.vxorScalar (g : Guard) (v : BitVec 4) (a : BitVec 4) (s : BitVec 5) (t : BitVec 4) (k : BitVec 3) : Laws.Encoding.Statement (.vxorScalar g v a s t k) := by
  obtain ⟨hl, ho, h0, h1, h2, h3, h4, h5, h6⟩ := layout41 g v a s t k (op := 75) (by decide) rfl
  exact mk_vector rfl fun _ => ⟨hl, (rawVector_vxorScalar ho).trans (by rw [if_pos h0, h1, h2, h3, h4, h5, h6])⟩

theorem rawVector_vshlScalar {word : Nat} (h : fld word 25 7 = 76) :
    rawVector word = if fld word 0 1 = 0 then .ok (.vshlScalar (guardOf word) (fb word 17 4) (fb word 13 4) (fb word 8 5) (fb word 4 4) (fb word 1 3)) else .error .reserved := by
  unfold rawVector
  rw [h]
  rfl

theorem Laws.Encoding.vshlScalar (g : Guard) (v : BitVec 4) (a : BitVec 4) (s : BitVec 5) (t : BitVec 4) (k : BitVec 3) : Laws.Encoding.Statement (.vshlScalar g v a s t k) := by
  obtain ⟨hl, ho, h0, h1, h2, h3, h4, h5, h6⟩ := layout41 g v a s t k (op := 76) (by decide) rfl
  exact mk_vector rfl fun _ => ⟨hl, (rawVector_vshlScalar ho).trans (by rw [if_pos h0, h1, h2, h3, h4, h5, h6])⟩

theorem rawVector_vshrScalar {word : Nat} (h : fld word 25 7 = 77) :
    rawVector word = if fld word 0 1 = 0 then .ok (.vshrScalar (guardOf word) (fb word 17 4) (fb word 13 4) (fb word 8 5) (fb word 4 4) (fb word 1 3)) else .error .reserved := by
  unfold rawVector
  rw [h]
  rfl

theorem Laws.Encoding.vshrScalar (g : Guard) (v : BitVec 4) (a : BitVec 4) (s : BitVec 5) (t : BitVec 4) (k : BitVec 3) : Laws.Encoding.Statement (.vshrScalar g v a s t k) := by
  obtain ⟨hl, ho, h0, h1, h2, h3, h4, h5, h6⟩ := layout41 g v a s t k (op := 77) (by decide) rfl
  exact mk_vector rfl fun _ => ⟨hl, (rawVector_vshrScalar ho).trans (by rw [if_pos h0, h1, h2, h3, h4, h5, h6])⟩

theorem rawVector_vsarScalar {word : Nat} (h : fld word 25 7 = 78) :
    rawVector word = if fld word 0 1 = 0 then .ok (.vsarScalar (guardOf word) (fb word 17 4) (fb word 13 4) (fb word 8 5) (fb word 4 4) (fb word 1 3)) else .error .reserved := by
  unfold rawVector
  rw [h]
  rfl

theorem Laws.Encoding.vsarScalar (g : Guard) (v : BitVec 4) (a : BitVec 4) (s : BitVec 5) (t : BitVec 4) (k : BitVec 3) : Laws.Encoding.Statement (.vsarScalar g v a s t k) := by
  obtain ⟨hl, ho, h0, h1, h2, h3, h4, h5, h6⟩ := layout41 g v a s t k (op := 78) (by decide) rfl
  exact mk_vector rfl fun _ => ⟨hl, (rawVector_vsarScalar ho).trans (by rw [if_pos h0, h1, h2, h3, h4, h5, h6])⟩

theorem layout42 {op word : Nat} (g : Guard) (d : BitVec 3) (a : BitVec 4) (s : BitVec 5) (t : BitVec 4) (k : BitVec 3) (ho : op < 128)
    (hw : op * 2 ^ 25 + (g.neg.toNat * 2 ^ 24 + g.pred.toNat * 2 ^ 21) + 0 + (d.toNat * 2 ^ 17 + (a.toNat * 2 ^ 13 + (s.toNat * 2 ^ 8 + (t.toNat * 2 ^ 4 + (k.toNat * 2 ^ 1 + 0))))) = word) :
    word < 2 ^ 32 ∧ fld word 25 7 = op ∧ (fld word 0 1 = 0 ∧ fld word 20 1 = 0) ∧ guardOf word = g ∧ fb word 17 3 = d ∧ fb word 13 4 = a ∧ fb word 8 5 = s ∧ fb word 4 4 = t ∧ fb word 1 3 = k := by
  exact ⟨by omega, by unfold fld; omega, by unfold fld; omega, guardOf_eq (by omega) (by omega), fb_eq (by omega), fb_eq (by omega), fb_eq (by omega), fb_eq (by omega), fb_eq (by omega)⟩

theorem rawVector_vcmpEqScalar {word : Nat} (h : fld word 25 7 = 80) :
    rawVector word = if fld word 0 1 = 0 ∧ fld word 20 1 = 0 then .ok (.vcmpEqScalar (guardOf word) (fb word 17 3) (fb word 13 4) (fb word 8 5) (fb word 4 4) (fb word 1 3)) else .error .reserved := by
  unfold rawVector
  rw [h]
  rfl

theorem Laws.Encoding.vcmpEqScalar (g : Guard) (d : BitVec 3) (a : BitVec 4) (s : BitVec 5) (t : BitVec 4) (k : BitVec 3) : Laws.Encoding.Statement (.vcmpEqScalar g d a s t k) := by
  obtain ⟨hl, ho, h0, h1, h2, h3, h4, h5, h6⟩ := layout42 g d a s t k (op := 80) (by decide) rfl
  exact mk_vector rfl fun _ => ⟨hl, (rawVector_vcmpEqScalar ho).trans (by rw [if_pos h0, h1, h2, h3, h4, h5, h6])⟩

theorem rawVector_vcmpNeScalar {word : Nat} (h : fld word 25 7 = 81) :
    rawVector word = if fld word 0 1 = 0 ∧ fld word 20 1 = 0 then .ok (.vcmpNeScalar (guardOf word) (fb word 17 3) (fb word 13 4) (fb word 8 5) (fb word 4 4) (fb word 1 3)) else .error .reserved := by
  unfold rawVector
  rw [h]
  rfl

theorem Laws.Encoding.vcmpNeScalar (g : Guard) (d : BitVec 3) (a : BitVec 4) (s : BitVec 5) (t : BitVec 4) (k : BitVec 3) : Laws.Encoding.Statement (.vcmpNeScalar g d a s t k) := by
  obtain ⟨hl, ho, h0, h1, h2, h3, h4, h5, h6⟩ := layout42 g d a s t k (op := 81) (by decide) rfl
  exact mk_vector rfl fun _ => ⟨hl, (rawVector_vcmpNeScalar ho).trans (by rw [if_pos h0, h1, h2, h3, h4, h5, h6])⟩

theorem rawVector_vcmpLtScalar {word : Nat} (h : fld word 25 7 = 82) :
    rawVector word = if fld word 0 1 = 0 ∧ fld word 20 1 = 0 then .ok (.vcmpLtScalar (guardOf word) (fb word 17 3) (fb word 13 4) (fb word 8 5) (fb word 4 4) (fb word 1 3)) else .error .reserved := by
  unfold rawVector
  rw [h]
  rfl

theorem Laws.Encoding.vcmpLtScalar (g : Guard) (d : BitVec 3) (a : BitVec 4) (s : BitVec 5) (t : BitVec 4) (k : BitVec 3) : Laws.Encoding.Statement (.vcmpLtScalar g d a s t k) := by
  obtain ⟨hl, ho, h0, h1, h2, h3, h4, h5, h6⟩ := layout42 g d a s t k (op := 82) (by decide) rfl
  exact mk_vector rfl fun _ => ⟨hl, (rawVector_vcmpLtScalar ho).trans (by rw [if_pos h0, h1, h2, h3, h4, h5, h6])⟩

theorem rawVector_vcmpLtuScalar {word : Nat} (h : fld word 25 7 = 83) :
    rawVector word = if fld word 0 1 = 0 ∧ fld word 20 1 = 0 then .ok (.vcmpLtuScalar (guardOf word) (fb word 17 3) (fb word 13 4) (fb word 8 5) (fb word 4 4) (fb word 1 3)) else .error .reserved := by
  unfold rawVector
  rw [h]
  rfl

theorem Laws.Encoding.vcmpLtuScalar (g : Guard) (d : BitVec 3) (a : BitVec 4) (s : BitVec 5) (t : BitVec 4) (k : BitVec 3) : Laws.Encoding.Statement (.vcmpLtuScalar g d a s t k) := by
  obtain ⟨hl, ho, h0, h1, h2, h3, h4, h5, h6⟩ := layout42 g d a s t k (op := 83) (by decide) rfl
  exact mk_vector rfl fun _ => ⟨hl, (rawVector_vcmpLtuScalar ho).trans (by rw [if_pos h0, h1, h2, h3, h4, h5, h6])⟩

theorem rawVector_vcmpGeScalar {word : Nat} (h : fld word 25 7 = 84) :
    rawVector word = if fld word 0 1 = 0 ∧ fld word 20 1 = 0 then .ok (.vcmpGeScalar (guardOf word) (fb word 17 3) (fb word 13 4) (fb word 8 5) (fb word 4 4) (fb word 1 3)) else .error .reserved := by
  unfold rawVector
  rw [h]
  rfl

theorem Laws.Encoding.vcmpGeScalar (g : Guard) (d : BitVec 3) (a : BitVec 4) (s : BitVec 5) (t : BitVec 4) (k : BitVec 3) : Laws.Encoding.Statement (.vcmpGeScalar g d a s t k) := by
  obtain ⟨hl, ho, h0, h1, h2, h3, h4, h5, h6⟩ := layout42 g d a s t k (op := 84) (by decide) rfl
  exact mk_vector rfl fun _ => ⟨hl, (rawVector_vcmpGeScalar ho).trans (by rw [if_pos h0, h1, h2, h3, h4, h5, h6])⟩

theorem rawVector_vcmpGeuScalar {word : Nat} (h : fld word 25 7 = 85) :
    rawVector word = if fld word 0 1 = 0 ∧ fld word 20 1 = 0 then .ok (.vcmpGeuScalar (guardOf word) (fb word 17 3) (fb word 13 4) (fb word 8 5) (fb word 4 4) (fb word 1 3)) else .error .reserved := by
  unfold rawVector
  rw [h]
  rfl

theorem Laws.Encoding.vcmpGeuScalar (g : Guard) (d : BitVec 3) (a : BitVec 4) (s : BitVec 5) (t : BitVec 4) (k : BitVec 3) : Laws.Encoding.Statement (.vcmpGeuScalar g d a s t k) := by
  obtain ⟨hl, ho, h0, h1, h2, h3, h4, h5, h6⟩ := layout42 g d a s t k (op := 85) (by decide) rfl
  exact mk_vector rfl fun _ => ⟨hl, (rawVector_vcmpGeuScalar ho).trans (by rw [if_pos h0, h1, h2, h3, h4, h5, h6])⟩

theorem rawVector_vbcast {word : Nat} (h : fld word 25 7 = 96) :
    rawVector word = .ok (.vbcast (guardOf word) (fb word 17 4) (fb word 13 4) (fb word 8 5) (fb word 4 4) (fb word 1 3) (fb word 0 1)) := by
  unfold rawVector
  rw [h]
  rfl

theorem Laws.Encoding.vbcast (g : Guard) (v : BitVec 4) (a : BitVec 4) (s : BitVec 5) (t : BitVec 4) (k : BitVec 3) (f : BitVec 1) : Laws.Encoding.Statement (.vbcast g v a s t k f) := by
  obtain ⟨hl, ho, h0, h1, h2, h3, h4, h5, h6⟩ := layout40 g v a s t k f (op := 96) (by decide) rfl
  exact mk_vector rfl fun _ => ⟨hl, (rawVector_vbcast ho).trans (by rw [h0, h1, h2, h3, h4, h5, h6])⟩

theorem layout43 {op word : Nat} (g : Guard) (v : BitVec 4) (s : BitVec 5) (t : BitVec 4) (k : BitVec 3) (c : BitVec 1) (ho : op < 128)
    (hw : op * 2 ^ 25 + (g.neg.toNat * 2 ^ 24 + g.pred.toNat * 2 ^ 21) + 0 + (v.toNat * 2 ^ 17 + (s.toNat * 2 ^ 8 + (t.toNat * 2 ^ 4 + (k.toNat * 2 ^ 1 + (c.toNat * 2 ^ 0 + 0))))) = word) :
    word < 2 ^ 32 ∧ fld word 25 7 = op ∧ (fld word 13 4 = 0) ∧ guardOf word = g ∧ fb word 17 4 = v ∧ fb word 8 5 = s ∧ fb word 4 4 = t ∧ fb word 1 3 = k ∧ fb word 0 1 = c := by
  exact ⟨by omega, by unfold fld; omega, by unfold fld; omega, guardOf_eq (by omega) (by omega), fb_eq (by omega), fb_eq (by omega), fb_eq (by omega), fb_eq (by omega), fb_eq (by omega)⟩

theorem rawVector_viota {word : Nat} (h : fld word 25 7 = 97) :
    rawVector word = if fld word 13 4 = 0 then .ok (.viota (guardOf word) (fb word 17 4) (fb word 8 5) (fb word 4 4) (fb word 1 3) (fb word 0 1)) else .error .reserved := by
  unfold rawVector
  rw [h]
  rfl

theorem Laws.Encoding.viota (g : Guard) (v : BitVec 4) (s : BitVec 5) (t : BitVec 4) (k : BitVec 3) (c : BitVec 1) : Laws.Encoding.Statement (.viota g v s t k c) := by
  obtain ⟨hl, ho, h0, h1, h2, h3, h4, h5, h6⟩ := layout43 g v s t k c (op := 97) (by decide) rfl
  exact mk_vector rfl fun _ => ⟨hl, (rawVector_viota ho).trans (by rw [if_pos h0, h1, h2, h3, h4, h5, h6])⟩

theorem layout44 {op word : Nat} (g : Guard) (q : BitVec 3) (a : BitVec 4) (s : BitVec 5) (x : BitVec 1) (ho : op < 128)
    (hw : op * 2 ^ 25 + (g.neg.toNat * 2 ^ 24 + g.pred.toNat * 2 ^ 21) + 0 + (q.toNat * 2 ^ 17 + (a.toNat * 2 ^ 13 + (s.toNat * 2 ^ 8 + (x.toNat * 2 ^ 0 + 0)))) = word) :
    word < 2 ^ 32 ∧ fld word 25 7 = op ∧ (fld word 1 7 = 0 ∧ fld word 20 1 = 0) ∧ guardOf word = g ∧ fb word 17 3 = q ∧ fb word 13 4 = a ∧ fb word 8 5 = s ∧ fb word 0 1 = x := by
  exact ⟨by omega, by unfold fld; omega, by unfold fld; omega, guardOf_eq (by omega) (by omega), fb_eq (by omega), fb_eq (by omega), fb_eq (by omega), fb_eq (by omega)⟩

theorem rawVector_vext {word : Nat} (h : fld word 25 7 = 98) :
    rawVector word = if fld word 1 7 = 0 ∧ fld word 20 1 = 0 then .ok (.vext (guardOf word) (fb word 17 3) (fb word 13 4) (fb word 8 5) (fb word 0 1)) else .error .reserved := by
  unfold rawVector
  rw [h]
  rfl

theorem Laws.Encoding.vext (g : Guard) (q : BitVec 3) (a : BitVec 4) (s : BitVec 5) (x : BitVec 1) : Laws.Encoding.Statement (.vext g q a s x) := by
  obtain ⟨hl, ho, h0, h1, h2, h3, h4, h5⟩ := layout44 g q a s x (op := 98) (by decide) rfl
  exact mk_vector rfl fun _ => ⟨hl, (rawVector_vext ho).trans (by rw [if_pos h0, h1, h2, h3, h4, h5])⟩

theorem layout45 {op word : Nat} (g : Guard) (v : BitVec 4) (s : BitVec 5) (ho : op < 128)
    (hw : op * 2 ^ 25 + (g.neg.toNat * 2 ^ 24 + g.pred.toNat * 2 ^ 21) + 0 + (v.toNat * 2 ^ 17 + (s.toNat * 2 ^ 8 + 0)) = word) :
    word < 2 ^ 32 ∧ fld word 25 7 = op ∧ (fld word 0 8 = 0 ∧ fld word 13 4 = 0) ∧ guardOf word = g ∧ fb word 17 4 = v ∧ fb word 8 5 = s := by
  exact ⟨by omega, by unfold fld; omega, by unfold fld; omega, guardOf_eq (by omega) (by omega), fb_eq (by omega), fb_eq (by omega)⟩

theorem rawVector_vins {word : Nat} (h : fld word 25 7 = 99) :
    rawVector word = if fld word 0 8 = 0 ∧ fld word 13 4 = 0 then .ok (.vins (guardOf word) (fb word 17 4) (fb word 8 5)) else .error .reserved := by
  unfold rawVector
  rw [h]
  rfl

theorem Laws.Encoding.vins (g : Guard) (v : BitVec 4) (s : BitVec 5) : Laws.Encoding.Statement (.vins g v s) := by
  obtain ⟨hl, ho, h0, h1, h2, h3⟩ := layout45 g v s (op := 99) (by decide) rfl
  exact mk_vector rfl fun _ => ⟨hl, (rawVector_vins ho).trans (by rw [if_pos h0, h1, h2, h3])⟩

theorem layout46 {op word : Nat} (g : Guard) (s : BitVec 5) (ho : op < 128)
    (hw : op * 2 ^ 25 + (g.neg.toNat * 2 ^ 24 + g.pred.toNat * 2 ^ 21) + 0 + (s.toNat * 2 ^ 8 + 0) = word) :
    word < 2 ^ 32 ∧ fld word 25 7 = op ∧ (fld word 0 8 = 0 ∧ fld word 13 8 = 0) ∧ guardOf word = g ∧ fb word 8 5 = s := by
  exact ⟨by omega, by unfold fld; omega, by unfold fld; omega, guardOf_eq (by omega) (by omega), fb_eq (by omega)⟩

theorem rawVector_vshp {word : Nat} (h : fld word 25 7 = 100) :
    rawVector word = if fld word 0 8 = 0 ∧ fld word 13 8 = 0 then .ok (.vshp (guardOf word) (fb word 8 5)) else .error .reserved := by
  unfold rawVector
  rw [h]
  rfl

theorem Laws.Encoding.vshp (g : Guard) (s : BitVec 5) : Laws.Encoding.Statement (.vshp g s) := by
  obtain ⟨hl, ho, h0, h1, h2⟩ := layout46 g s (op := 100) (by decide) rfl
  exact mk_vector rfl fun _ => ⟨hl, (rawVector_vshp ho).trans (by rw [if_pos h0, h1, h2])⟩

theorem layout47 {op word : Nat} (g : Guard) (d : BitVec 3) (s : BitVec 5) (k : BitVec 3) (ho : op < 128)
    (hw : op * 2 ^ 25 + (g.neg.toNat * 2 ^ 24 + g.pred.toNat * 2 ^ 21) + 0 + (d.toNat * 2 ^ 17 + (s.toNat * 2 ^ 8 + (k.toNat * 2 ^ 1 + 0))) = word) :
    word < 2 ^ 32 ∧ fld word 25 7 = op ∧ (fld word 0 1 = 0 ∧ fld word 4 4 = 0 ∧ fld word 13 4 = 0 ∧ fld word 20 1 = 0) ∧ guardOf word = g ∧ fb word 17 3 = d ∧ fb word 8 5 = s ∧ fb word 1 3 = k := by
  exact ⟨by omega, by unfold fld; omega, by unfold fld; omega, guardOf_eq (by omega) (by omega), fb_eq (by omega), fb_eq (by omega), fb_eq (by omega)⟩

theorem rawVector_kwin {word : Nat} (h : fld word 25 7 = 101) :
    rawVector word = if fld word 0 1 = 0 ∧ fld word 4 4 = 0 ∧ fld word 13 4 = 0 ∧ fld word 20 1 = 0 then .ok (.kwin (guardOf word) (fb word 17 3) (fb word 8 5) (fb word 1 3)) else .error .reserved := by
  unfold rawVector
  rw [h]
  rfl

theorem Laws.Encoding.kwin (g : Guard) (d : BitVec 3) (s : BitVec 5) (k : BitVec 3) : Laws.Encoding.Statement (.kwin g d s k) := by
  obtain ⟨hl, ho, h0, h1, h2, h3, h4⟩ := layout47 g d s k (op := 101) (by decide) rfl
  exact mk_vector rfl fun _ => ⟨hl, (rawVector_kwin ho).trans (by rw [if_pos h0, h1, h2, h3, h4])⟩

theorem layout48 {op word : Nat} (g : Guard) (v : BitVec 4) (a : BitVec 4) (t : BitVec 4) (k : BitVec 3) (ho : op < 128)
    (hw : op * 2 ^ 25 + (g.neg.toNat * 2 ^ 24 + g.pred.toNat * 2 ^ 21) + 0 + (v.toNat * 2 ^ 17 + (a.toNat * 2 ^ 13 + (t.toNat * 2 ^ 4 + (k.toNat * 2 ^ 1 + 0)))) = word) :
    word < 2 ^ 32 ∧ fld word 25 7 = op ∧ (fld word 0 1 = 0 ∧ fld word 8 5 = 0) ∧ guardOf word = g ∧ fb word 17 4 = v ∧ fb word 13 4 = a ∧ fb word 4 4 = t ∧ fb word 1 3 = k := by
  exact ⟨by omega, by unfold fld; omega, by unfold fld; omega, guardOf_eq (by omega) (by omega), fb_eq (by omega), fb_eq (by omega), fb_eq (by omega), fb_eq (by omega)⟩

theorem rawFn_fexp2 {word : Nat} (h : fld word 25 7 = 1) :
    rawFn word = if fld word 0 1 = 0 ∧ fld word 8 5 = 0 then .ok (.fexp2 (guardOf word) (fb word 17 4) (fb word 13 4) (fb word 4 4) (fb word 1 3)) else .error .reserved := by
  unfold rawFn
  rw [h]
  rfl

theorem Laws.Encoding.fexp2 (g : Guard) (v : BitVec 4) (a : BitVec 4) (t : BitVec 4) (k : BitVec 3) : Laws.Encoding.Statement (.fexp2 g v a t k) := by
  obtain ⟨hl, ho, h0, h1, h2, h3, h4, h5⟩ := layout48 g v a t k (op := 1) (by decide) rfl
  exact mk_fn rfl fun _ => ⟨hl, (rawFn_fexp2 ho).trans (by rw [if_pos h0, h1, h2, h3, h4, h5])⟩

theorem rawFn_flog2 {word : Nat} (h : fld word 25 7 = 2) :
    rawFn word = if fld word 0 1 = 0 ∧ fld word 8 5 = 0 then .ok (.flog2 (guardOf word) (fb word 17 4) (fb word 13 4) (fb word 4 4) (fb word 1 3)) else .error .reserved := by
  unfold rawFn
  rw [h]
  rfl

theorem Laws.Encoding.flog2 (g : Guard) (v : BitVec 4) (a : BitVec 4) (t : BitVec 4) (k : BitVec 3) : Laws.Encoding.Statement (.flog2 g v a t k) := by
  obtain ⟨hl, ho, h0, h1, h2, h3, h4, h5⟩ := layout48 g v a t k (op := 2) (by decide) rfl
  exact mk_fn rfl fun _ => ⟨hl, (rawFn_flog2 ho).trans (by rw [if_pos h0, h1, h2, h3, h4, h5])⟩

theorem rawFn_frcp {word : Nat} (h : fld word 25 7 = 3) :
    rawFn word = if fld word 0 1 = 0 ∧ fld word 8 5 = 0 then .ok (.frcp (guardOf word) (fb word 17 4) (fb word 13 4) (fb word 4 4) (fb word 1 3)) else .error .reserved := by
  unfold rawFn
  rw [h]
  rfl

theorem Laws.Encoding.frcp (g : Guard) (v : BitVec 4) (a : BitVec 4) (t : BitVec 4) (k : BitVec 3) : Laws.Encoding.Statement (.frcp g v a t k) := by
  obtain ⟨hl, ho, h0, h1, h2, h3, h4, h5⟩ := layout48 g v a t k (op := 3) (by decide) rfl
  exact mk_fn rfl fun _ => ⟨hl, (rawFn_frcp ho).trans (by rw [if_pos h0, h1, h2, h3, h4, h5])⟩

theorem rawFn_frsq {word : Nat} (h : fld word 25 7 = 4) :
    rawFn word = if fld word 0 1 = 0 ∧ fld word 8 5 = 0 then .ok (.frsq (guardOf word) (fb word 17 4) (fb word 13 4) (fb word 4 4) (fb word 1 3)) else .error .reserved := by
  unfold rawFn
  rw [h]
  rfl

theorem Laws.Encoding.frsq (g : Guard) (v : BitVec 4) (a : BitVec 4) (t : BitVec 4) (k : BitVec 3) : Laws.Encoding.Statement (.frsq g v a t k) := by
  obtain ⟨hl, ho, h0, h1, h2, h3, h4, h5⟩ := layout48 g v a t k (op := 4) (by decide) rfl
  exact mk_fn rfl fun _ => ⟨hl, (rawFn_frsq ho).trans (by rw [if_pos h0, h1, h2, h3, h4, h5])⟩

theorem rawFn_fsigm {word : Nat} (h : fld word 25 7 = 5) :
    rawFn word = if fld word 0 1 = 0 ∧ fld word 8 5 = 0 then .ok (.fsigm (guardOf word) (fb word 17 4) (fb word 13 4) (fb word 4 4) (fb word 1 3)) else .error .reserved := by
  unfold rawFn
  rw [h]
  rfl

theorem Laws.Encoding.fsigm (g : Guard) (v : BitVec 4) (a : BitVec 4) (t : BitVec 4) (k : BitVec 3) : Laws.Encoding.Statement (.fsigm g v a t k) := by
  obtain ⟨hl, ho, h0, h1, h2, h3, h4, h5⟩ := layout48 g v a t k (op := 5) (by decide) rfl
  exact mk_fn rfl fun _ => ⟨hl, (rawFn_fsigm ho).trans (by rw [if_pos h0, h1, h2, h3, h4, h5])⟩

theorem rawFn_ftanh {word : Nat} (h : fld word 25 7 = 6) :
    rawFn word = if fld word 0 1 = 0 ∧ fld word 8 5 = 0 then .ok (.ftanh (guardOf word) (fb word 17 4) (fb word 13 4) (fb word 4 4) (fb word 1 3)) else .error .reserved := by
  unfold rawFn
  rw [h]
  rfl

theorem Laws.Encoding.ftanh (g : Guard) (v : BitVec 4) (a : BitVec 4) (t : BitVec 4) (k : BitVec 3) : Laws.Encoding.Statement (.ftanh g v a t k) := by
  obtain ⟨hl, ho, h0, h1, h2, h3, h4, h5⟩ := layout48 g v a t k (op := 6) (by decide) rfl
  exact mk_fn rfl fun _ => ⟨hl, (rawFn_ftanh ho).trans (by rw [if_pos h0, h1, h2, h3, h4, h5])⟩

theorem rawFn_ferf {word : Nat} (h : fld word 25 7 = 7) :
    rawFn word = if fld word 0 1 = 0 ∧ fld word 8 5 = 0 then .ok (.ferf (guardOf word) (fb word 17 4) (fb word 13 4) (fb word 4 4) (fb word 1 3)) else .error .reserved := by
  unfold rawFn
  rw [h]
  rfl

theorem Laws.Encoding.ferf (g : Guard) (v : BitVec 4) (a : BitVec 4) (t : BitVec 4) (k : BitVec 3) : Laws.Encoding.Statement (.ferf g v a t k) := by
  obtain ⟨hl, ho, h0, h1, h2, h3, h4, h5⟩ := layout48 g v a t k (op := 7) (by decide) rfl
  exact mk_fn rfl fun _ => ⟨hl, (rawFn_ferf ho).trans (by rw [if_pos h0, h1, h2, h3, h4, h5])⟩

theorem layout49 {op word : Nat} (g : Guard) (v : BitVec 4) (a : BitVec 4) (s : BitVec 5) (t : BitVec 4) (k : BitVec 3) (l : BitVec 1) (ho : op < 128)
    (hw : op * 2 ^ 25 + (g.neg.toNat * 2 ^ 24 + g.pred.toNat * 2 ^ 21) + 0 + (v.toNat * 2 ^ 17 + (a.toNat * 2 ^ 13 + (s.toNat * 2 ^ 8 + (t.toNat * 2 ^ 4 + (k.toNat * 2 ^ 1 + (l.toNat * 2 ^ 0 + 0)))))) = word) :
    word < 2 ^ 32 ∧ fld word 25 7 = op ∧ guardOf word = g ∧ fb word 17 4 = v ∧ fb word 13 4 = a ∧ fb word 8 5 = s ∧ fb word 4 4 = t ∧ fb word 1 3 = k ∧ fb word 0 1 = l := by
  exact ⟨by omega, by unfold fld; omega, guardOf_eq (by omega) (by omega), fb_eq (by omega), fb_eq (by omega), fb_eq (by omega), fb_eq (by omega), fb_eq (by omega), fb_eq (by omega)⟩

theorem rawFn_ftopk {word : Nat} (h : fld word 25 7 = 8) :
    rawFn word = .ok (.ftopk (guardOf word) (fb word 17 4) (fb word 13 4) (fb word 8 5) (fb word 4 4) (fb word 1 3) (fb word 0 1)) := by
  unfold rawFn
  rw [h]
  rfl

theorem Laws.Encoding.ftopk (g : Guard) (v : BitVec 4) (a : BitVec 4) (s : BitVec 5) (t : BitVec 4) (k : BitVec 3) (l : BitVec 1) : Laws.Encoding.Statement (.ftopk g v a s t k l) := by
  obtain ⟨hl, ho, h0, h1, h2, h3, h4, h5, h6⟩ := layout49 g v a s t k l (op := 8) (by decide) rfl
  exact mk_fn rfl fun _ => ⟨hl, (rawFn_ftopk ho).trans (by rw [h0, h1, h2, h3, h4, h5, h6])⟩

theorem layout50 {op word : Nat} (g : Guard) (q : BitVec 3) (a : BitVec 4) (s : BitVec 5) (r : BitVec 6) (ho : op < 128)
    (hw : op * 2 ^ 25 + (g.neg.toNat * 2 ^ 24 + g.pred.toNat * 2 ^ 21) + 0 + (q.toNat * 2 ^ 17 + (a.toNat * 2 ^ 13 + (s.toNat * 2 ^ 8 + (r.toNat * 2 ^ 0 + 0)))) = word) :
    word < 2 ^ 32 ∧ fld word 25 7 = op ∧ (fld word 6 2 = 0 ∧ fld word 20 1 = 0) ∧ guardOf word = g ∧ fb word 17 3 = q ∧ fb word 13 4 = a ∧ fb word 8 5 = s ∧ fb word 0 6 = r := by
  exact ⟨by omega, by unfold fld; omega, by unfold fld; omega, guardOf_eq (by omega) (by omega), fb_eq (by omega), fb_eq (by omega), fb_eq (by omega), fb_eq (by omega)⟩

theorem rawFn_fhkey {word : Nat} (h : fld word 25 7 = 9) :
    rawFn word = if fld word 6 2 = 0 ∧ fld word 20 1 = 0 then .ok (.fhkey (guardOf word) (fb word 17 3) (fb word 13 4) (fb word 8 5) (fb word 0 6)) else .error .reserved := by
  unfold rawFn
  rw [h]
  rfl

theorem Laws.Encoding.fhkey (g : Guard) (q : BitVec 3) (a : BitVec 4) (s : BitVec 5) (r : BitVec 6) : Laws.Encoding.Statement (.fhkey g q a s r) := by
  obtain ⟨hl, ho, h0, h1, h2, h3, h4, h5⟩ := layout50 g q a s r (op := 9) (by decide) rfl
  exact mk_fn rfl fun _ => ⟨hl, (rawFn_fhkey ho).trans (by rw [if_pos h0, h1, h2, h3, h4, h5])⟩

theorem layout51 {op word : Nat} (g : Guard) (d : BitVec 5) (h : BitVec 8) (o : BitVec 5) (j : BitVec 3) (ho : op < 128)
    (hw : op * 2 ^ 25 + (g.neg.toNat * 2 ^ 24 + g.pred.toNat * 2 ^ 21) + 0 + (d.toNat * 2 ^ 16 + (h.toNat * 2 ^ 8 + (o.toNat * 2 ^ 3 + (j.toNat * 2 ^ 0 + 0)))) = word) :
    word < 2 ^ 32 ∧ fld word 25 7 = op ∧ guardOf word = g ∧ fb word 16 5 = d ∧ fb word 8 8 = h ∧ fb word 3 5 = o ∧ fb word 0 3 = j := by
  exact ⟨by omega, by unfold fld; omega, guardOf_eq (by omega) (by omega), fb_eq (by omega), fb_eq (by omega), fb_eq (by omega), fb_eq (by omega)⟩

theorem rawMem_ld8 {word : Nat} (h : fld word 25 7 = 1) :
    rawMem word = .ok (.ld8 (guardOf word) (fb word 16 5) (fb word 8 8) (fb word 3 5) (fb word 0 3)) := by
  unfold rawMem
  rw [h]
  rfl

theorem Laws.Encoding.ld8 (g : Guard) (d : BitVec 5) (h : BitVec 8) (o : BitVec 5) (j : BitVec 3) : Laws.Encoding.Statement (.ld8 g d h o j) := by
  obtain ⟨hl, ho, h0, h1, h2, h3, h4⟩ := layout51 g d h o j (op := 1) (by decide) rfl
  exact mk_mem rfl fun _ => ⟨hl, (rawMem_ld8 ho).trans (by rw [h0, h1, h2, h3, h4])⟩

theorem rawMem_ld16 {word : Nat} (h : fld word 25 7 = 2) :
    rawMem word = .ok (.ld16 (guardOf word) (fb word 16 5) (fb word 8 8) (fb word 3 5) (fb word 0 3)) := by
  unfold rawMem
  rw [h]
  rfl

theorem Laws.Encoding.ld16 (g : Guard) (d : BitVec 5) (h : BitVec 8) (o : BitVec 5) (j : BitVec 3) : Laws.Encoding.Statement (.ld16 g d h o j) := by
  obtain ⟨hl, ho, h0, h1, h2, h3, h4⟩ := layout51 g d h o j (op := 2) (by decide) rfl
  exact mk_mem rfl fun _ => ⟨hl, (rawMem_ld16 ho).trans (by rw [h0, h1, h2, h3, h4])⟩

theorem rawMem_ld32 {word : Nat} (h : fld word 25 7 = 3) :
    rawMem word = .ok (.ld32 (guardOf word) (fb word 16 5) (fb word 8 8) (fb word 3 5) (fb word 0 3)) := by
  unfold rawMem
  rw [h]
  rfl

theorem Laws.Encoding.ld32 (g : Guard) (d : BitVec 5) (h : BitVec 8) (o : BitVec 5) (j : BitVec 3) : Laws.Encoding.Statement (.ld32 g d h o j) := by
  obtain ⟨hl, ho, h0, h1, h2, h3, h4⟩ := layout51 g d h o j (op := 3) (by decide) rfl
  exact mk_mem rfl fun _ => ⟨hl, (rawMem_ld32 ho).trans (by rw [h0, h1, h2, h3, h4])⟩

theorem rawMem_ld64 {word : Nat} (h : fld word 25 7 = 4) :
    rawMem word = .ok (.ld64 (guardOf word) (fb word 16 5) (fb word 8 8) (fb word 3 5) (fb word 0 3)) := by
  unfold rawMem
  rw [h]
  rfl

theorem Laws.Encoding.ld64 (g : Guard) (d : BitVec 5) (h : BitVec 8) (o : BitVec 5) (j : BitVec 3) : Laws.Encoding.Statement (.ld64 g d h o j) := by
  obtain ⟨hl, ho, h0, h1, h2, h3, h4⟩ := layout51 g d h o j (op := 4) (by decide) rfl
  exact mk_mem rfl fun _ => ⟨hl, (rawMem_ld64 ho).trans (by rw [h0, h1, h2, h3, h4])⟩

theorem rawMem_ld8s {word : Nat} (h : fld word 25 7 = 5) :
    rawMem word = .ok (.ld8s (guardOf word) (fb word 16 5) (fb word 8 8) (fb word 3 5) (fb word 0 3)) := by
  unfold rawMem
  rw [h]
  rfl

theorem Laws.Encoding.ld8s (g : Guard) (d : BitVec 5) (h : BitVec 8) (o : BitVec 5) (j : BitVec 3) : Laws.Encoding.Statement (.ld8s g d h o j) := by
  obtain ⟨hl, ho, h0, h1, h2, h3, h4⟩ := layout51 g d h o j (op := 5) (by decide) rfl
  exact mk_mem rfl fun _ => ⟨hl, (rawMem_ld8s ho).trans (by rw [h0, h1, h2, h3, h4])⟩

theorem rawMem_ld16s {word : Nat} (h : fld word 25 7 = 6) :
    rawMem word = .ok (.ld16s (guardOf word) (fb word 16 5) (fb word 8 8) (fb word 3 5) (fb word 0 3)) := by
  unfold rawMem
  rw [h]
  rfl

theorem Laws.Encoding.ld16s (g : Guard) (d : BitVec 5) (h : BitVec 8) (o : BitVec 5) (j : BitVec 3) : Laws.Encoding.Statement (.ld16s g d h o j) := by
  obtain ⟨hl, ho, h0, h1, h2, h3, h4⟩ := layout51 g d h o j (op := 6) (by decide) rfl
  exact mk_mem rfl fun _ => ⟨hl, (rawMem_ld16s ho).trans (by rw [h0, h1, h2, h3, h4])⟩

theorem rawMem_ld32s {word : Nat} (h : fld word 25 7 = 7) :
    rawMem word = .ok (.ld32s (guardOf word) (fb word 16 5) (fb word 8 8) (fb word 3 5) (fb word 0 3)) := by
  unfold rawMem
  rw [h]
  rfl

theorem Laws.Encoding.ld32s (g : Guard) (d : BitVec 5) (h : BitVec 8) (o : BitVec 5) (j : BitVec 3) : Laws.Encoding.Statement (.ld32s g d h o j) := by
  obtain ⟨hl, ho, h0, h1, h2, h3, h4⟩ := layout51 g d h o j (op := 7) (by decide) rfl
  exact mk_mem rfl fun _ => ⟨hl, (rawMem_ld32s ho).trans (by rw [h0, h1, h2, h3, h4])⟩

theorem rawMem_st8 {word : Nat} (h : fld word 25 7 = 8) :
    rawMem word = .ok (.st8 (guardOf word) (fb word 16 5) (fb word 8 8) (fb word 3 5) (fb word 0 3)) := by
  unfold rawMem
  rw [h]
  rfl

theorem Laws.Encoding.st8 (g : Guard) (d : BitVec 5) (h : BitVec 8) (o : BitVec 5) (j : BitVec 3) : Laws.Encoding.Statement (.st8 g d h o j) := by
  obtain ⟨hl, ho, h0, h1, h2, h3, h4⟩ := layout51 g d h o j (op := 8) (by decide) rfl
  exact mk_mem rfl fun _ => ⟨hl, (rawMem_st8 ho).trans (by rw [h0, h1, h2, h3, h4])⟩

theorem rawMem_st16 {word : Nat} (h : fld word 25 7 = 9) :
    rawMem word = .ok (.st16 (guardOf word) (fb word 16 5) (fb word 8 8) (fb word 3 5) (fb word 0 3)) := by
  unfold rawMem
  rw [h]
  rfl

theorem Laws.Encoding.st16 (g : Guard) (d : BitVec 5) (h : BitVec 8) (o : BitVec 5) (j : BitVec 3) : Laws.Encoding.Statement (.st16 g d h o j) := by
  obtain ⟨hl, ho, h0, h1, h2, h3, h4⟩ := layout51 g d h o j (op := 9) (by decide) rfl
  exact mk_mem rfl fun _ => ⟨hl, (rawMem_st16 ho).trans (by rw [h0, h1, h2, h3, h4])⟩

theorem rawMem_st32 {word : Nat} (h : fld word 25 7 = 10) :
    rawMem word = .ok (.st32 (guardOf word) (fb word 16 5) (fb word 8 8) (fb word 3 5) (fb word 0 3)) := by
  unfold rawMem
  rw [h]
  rfl

theorem Laws.Encoding.st32 (g : Guard) (d : BitVec 5) (h : BitVec 8) (o : BitVec 5) (j : BitVec 3) : Laws.Encoding.Statement (.st32 g d h o j) := by
  obtain ⟨hl, ho, h0, h1, h2, h3, h4⟩ := layout51 g d h o j (op := 10) (by decide) rfl
  exact mk_mem rfl fun _ => ⟨hl, (rawMem_st32 ho).trans (by rw [h0, h1, h2, h3, h4])⟩

theorem rawMem_st64 {word : Nat} (h : fld word 25 7 = 11) :
    rawMem word = .ok (.st64 (guardOf word) (fb word 16 5) (fb word 8 8) (fb word 3 5) (fb word 0 3)) := by
  unfold rawMem
  rw [h]
  rfl

theorem Laws.Encoding.st64 (g : Guard) (d : BitVec 5) (h : BitVec 8) (o : BitVec 5) (j : BitVec 3) : Laws.Encoding.Statement (.st64 g d h o j) := by
  obtain ⟨hl, ho, h0, h1, h2, h3, h4⟩ := layout51 g d h o j (op := 11) (by decide) rfl
  exact mk_mem rfl fun _ => ⟨hl, (rawMem_st64 ho).trans (by rw [h0, h1, h2, h3, h4])⟩

theorem layout52 {op word : Nat} (g : Guard) (v : BitVec 4) (m : BitVec 4) (s : BitVec 5) (k : BitVec 3) (c : BitVec 1) (x : BitVec 1) (ho : op < 128)
    (hw : op * 2 ^ 25 + (g.neg.toNat * 2 ^ 24 + g.pred.toNat * 2 ^ 21) + 0 + (v.toNat * 2 ^ 17 + (m.toNat * 2 ^ 13 + (s.toNat * 2 ^ 8 + (k.toNat * 2 ^ 5 + (c.toNat * 2 ^ 1 + (x.toNat * 2 ^ 0 + 0)))))) = word) :
    word < 2 ^ 32 ∧ fld word 25 7 = op ∧ (fld word 2 3 = 0) ∧ guardOf word = g ∧ fb word 17 4 = v ∧ fb word 13 4 = m ∧ fb word 8 5 = s ∧ fb word 5 3 = k ∧ fb word 1 1 = c ∧ fb word 0 1 = x := by
  exact ⟨by omega, by unfold fld; omega, by unfold fld; omega, guardOf_eq (by omega) (by omega), fb_eq (by omega), fb_eq (by omega), fb_eq (by omega), fb_eq (by omega), fb_eq (by omega), fb_eq (by omega)⟩

theorem rawMem_vld {word : Nat} (h : fld word 25 7 = 12) :
    rawMem word = if fld word 2 3 = 0 then .ok (.vld (guardOf word) (fb word 17 4) (fb word 13 4) (fb word 8 5) (fb word 5 3) (fb word 1 1) (fb word 0 1)) else .error .reserved := by
  unfold rawMem
  rw [h]
  rfl

theorem Laws.Encoding.vld (g : Guard) (v : BitVec 4) (m : BitVec 4) (s : BitVec 5) (k : BitVec 3) (c : BitVec 1) (x : BitVec 1) : Laws.Encoding.Statement (.vld g v m s k c x) := by
  obtain ⟨hl, ho, h0, h1, h2, h3, h4, h5, h6, h7⟩ := layout52 g v m s k c x (op := 12) (by decide) rfl
  exact mk_mem rfl fun _ => ⟨hl, (rawMem_vld ho).trans (by rw [if_pos h0, h1, h2, h3, h4, h5, h6, h7])⟩

theorem rawMem_vst {word : Nat} (h : fld word 25 7 = 13) :
    rawMem word = if fld word 2 3 = 0 then .ok (.vst (guardOf word) (fb word 17 4) (fb word 13 4) (fb word 8 5) (fb word 5 3) (fb word 1 1) (fb word 0 1)) else .error .reserved := by
  unfold rawMem
  rw [h]
  rfl

theorem Laws.Encoding.vst (g : Guard) (v : BitVec 4) (m : BitVec 4) (s : BitVec 5) (k : BitVec 3) (c : BitVec 1) (x : BitVec 1) : Laws.Encoding.Statement (.vst g v m s k c x) := by
  obtain ⟨hl, ho, h0, h1, h2, h3, h4, h5, h6, h7⟩ := layout52 g v m s k c x (op := 13) (by decide) rfl
  exact mk_mem rfl fun _ => ⟨hl, (rawMem_vst ho).trans (by rw [if_pos h0, h1, h2, h3, h4, h5, h6, h7])⟩

theorem layout53 {op word : Nat} (g : Guard) (d : BitVec 5) (h : BitVec 8) (o : BitVec 5) (u : BitVec 1) (w : BitVec 1) (ho : op < 128)
    (hw : op * 2 ^ 25 + (g.neg.toNat * 2 ^ 24 + g.pred.toNat * 2 ^ 21) + 0 + (d.toNat * 2 ^ 16 + (h.toNat * 2 ^ 8 + (o.toNat * 2 ^ 3 + (u.toNat * 2 ^ 1 + (w.toNat * 2 ^ 0 + 0))))) = word) :
    word < 2 ^ 32 ∧ fld word 25 7 = op ∧ (fld word 2 1 = 0) ∧ guardOf word = g ∧ fb word 16 5 = d ∧ fb word 8 8 = h ∧ fb word 3 5 = o ∧ fb word 1 1 = u ∧ fb word 0 1 = w := by
  exact ⟨by omega, by unfold fld; omega, by unfold fld; omega, guardOf_eq (by omega) (by omega), fb_eq (by omega), fb_eq (by omega), fb_eq (by omega), fb_eq (by omega), fb_eq (by omega)⟩

theorem rawMem_atomAdd {word : Nat} (h : fld word 25 7 = 16) :
    rawMem word = if fld word 2 1 = 0 then .ok (.atomAdd (guardOf word) (fb word 16 5) (fb word 8 8) (fb word 3 5) (fb word 1 1) (fb word 0 1)) else .error .reserved := by
  unfold rawMem
  rw [h]
  rfl

theorem Laws.Encoding.atomAdd (g : Guard) (d : BitVec 5) (h : BitVec 8) (o : BitVec 5) (u : BitVec 1) (w : BitVec 1) : Laws.Encoding.Statement (.atomAdd g d h o u w) := by
  obtain ⟨hl, ho, h0, h1, h2, h3, h4, h5, h6⟩ := layout53 g d h o u w (op := 16) (by decide) rfl
  exact mk_mem rfl fun _ => ⟨hl, (rawMem_atomAdd ho).trans (by rw [if_pos h0, h1, h2, h3, h4, h5, h6])⟩

theorem rawMem_atomMin {word : Nat} (h : fld word 25 7 = 17) :
    rawMem word = if fld word 2 1 = 0 then .ok (.atomMin (guardOf word) (fb word 16 5) (fb word 8 8) (fb word 3 5) (fb word 1 1) (fb word 0 1)) else .error .reserved := by
  unfold rawMem
  rw [h]
  rfl

theorem Laws.Encoding.atomMin (g : Guard) (d : BitVec 5) (h : BitVec 8) (o : BitVec 5) (u : BitVec 1) (w : BitVec 1) : Laws.Encoding.Statement (.atomMin g d h o u w) := by
  obtain ⟨hl, ho, h0, h1, h2, h3, h4, h5, h6⟩ := layout53 g d h o u w (op := 17) (by decide) rfl
  exact mk_mem rfl fun _ => ⟨hl, (rawMem_atomMin ho).trans (by rw [if_pos h0, h1, h2, h3, h4, h5, h6])⟩

theorem rawMem_atomMax {word : Nat} (h : fld word 25 7 = 18) :
    rawMem word = if fld word 2 1 = 0 then .ok (.atomMax (guardOf word) (fb word 16 5) (fb word 8 8) (fb word 3 5) (fb word 1 1) (fb word 0 1)) else .error .reserved := by
  unfold rawMem
  rw [h]
  rfl

theorem Laws.Encoding.atomMax (g : Guard) (d : BitVec 5) (h : BitVec 8) (o : BitVec 5) (u : BitVec 1) (w : BitVec 1) : Laws.Encoding.Statement (.atomMax g d h o u w) := by
  obtain ⟨hl, ho, h0, h1, h2, h3, h4, h5, h6⟩ := layout53 g d h o u w (op := 18) (by decide) rfl
  exact mk_mem rfl fun _ => ⟨hl, (rawMem_atomMax ho).trans (by rw [if_pos h0, h1, h2, h3, h4, h5, h6])⟩

theorem rawMem_atomSwap {word : Nat} (h : fld word 25 7 = 19) :
    rawMem word = if fld word 2 1 = 0 then .ok (.atomSwap (guardOf word) (fb word 16 5) (fb word 8 8) (fb word 3 5) (fb word 1 1) (fb word 0 1)) else .error .reserved := by
  unfold rawMem
  rw [h]
  rfl

theorem Laws.Encoding.atomSwap (g : Guard) (d : BitVec 5) (h : BitVec 8) (o : BitVec 5) (u : BitVec 1) (w : BitVec 1) : Laws.Encoding.Statement (.atomSwap g d h o u w) := by
  obtain ⟨hl, ho, h0, h1, h2, h3, h4, h5, h6⟩ := layout53 g d h o u w (op := 19) (by decide) rfl
  exact mk_mem rfl fun _ => ⟨hl, (rawMem_atomSwap ho).trans (by rw [if_pos h0, h1, h2, h3, h4, h5, h6])⟩

theorem rawMem_atomCas {word : Nat} (h : fld word 25 7 = 20) :
    rawMem word = if fld word 2 1 = 0 then .ok (.atomCas (guardOf word) (fb word 16 5) (fb word 8 8) (fb word 3 5) (fb word 1 1) (fb word 0 1)) else .error .reserved := by
  unfold rawMem
  rw [h]
  rfl

theorem Laws.Encoding.atomCas (g : Guard) (d : BitVec 5) (h : BitVec 8) (o : BitVec 5) (u : BitVec 1) (w : BitVec 1) : Laws.Encoding.Statement (.atomCas g d h o u w) := by
  obtain ⟨hl, ho, h0, h1, h2, h3, h4, h5, h6⟩ := layout53 g d h o u w (op := 20) (by decide) rfl
  exact mk_mem rfl fun _ => ⟨hl, (rawMem_atomCas ho).trans (by rw [if_pos h0, h1, h2, h3, h4, h5, h6])⟩

theorem layout54 {op word : Nat} (g : Guard) (d : BitVec 5) (h : BitVec 8) (o : BitVec 5) (f : BitVec 1) (u : BitVec 1) (w : BitVec 1) (ho : op < 128)
    (hw : op * 2 ^ 25 + (g.neg.toNat * 2 ^ 24 + g.pred.toNat * 2 ^ 21) + 0 + (d.toNat * 2 ^ 16 + (h.toNat * 2 ^ 8 + (o.toNat * 2 ^ 3 + (f.toNat * 2 ^ 2 + (u.toNat * 2 ^ 1 + (w.toNat * 2 ^ 0 + 0)))))) = word) :
    word < 2 ^ 32 ∧ fld word 25 7 = op ∧ guardOf word = g ∧ fb word 16 5 = d ∧ fb word 8 8 = h ∧ fb word 3 5 = o ∧ fb word 2 1 = f ∧ fb word 1 1 = u ∧ fb word 0 1 = w := by
  exact ⟨by omega, by unfold fld; omega, guardOf_eq (by omega) (by omega), fb_eq (by omega), fb_eq (by omega), fb_eq (by omega), fb_eq (by omega), fb_eq (by omega), fb_eq (by omega)⟩

theorem rawMem_ratomAdd {word : Nat} (h : fld word 25 7 = 24) :
    rawMem word = .ok (.ratomAdd (guardOf word) (fb word 16 5) (fb word 8 8) (fb word 3 5) (fb word 2 1) (fb word 1 1) (fb word 0 1)) := by
  unfold rawMem
  rw [h]
  rfl

theorem Laws.Encoding.ratomAdd (g : Guard) (d : BitVec 5) (h : BitVec 8) (o : BitVec 5) (f : BitVec 1) (u : BitVec 1) (w : BitVec 1) : Laws.Encoding.Statement (.ratomAdd g d h o f u w) := by
  obtain ⟨hl, ho, h0, h1, h2, h3, h4, h5, h6⟩ := layout54 g d h o f u w (op := 24) (by decide) rfl
  exact mk_mem rfl fun _ => ⟨hl, (rawMem_ratomAdd ho).trans (by rw [h0, h1, h2, h3, h4, h5, h6])⟩

theorem rawMem_ratomMin {word : Nat} (h : fld word 25 7 = 25) :
    rawMem word = .ok (.ratomMin (guardOf word) (fb word 16 5) (fb word 8 8) (fb word 3 5) (fb word 2 1) (fb word 1 1) (fb word 0 1)) := by
  unfold rawMem
  rw [h]
  rfl

theorem Laws.Encoding.ratomMin (g : Guard) (d : BitVec 5) (h : BitVec 8) (o : BitVec 5) (f : BitVec 1) (u : BitVec 1) (w : BitVec 1) : Laws.Encoding.Statement (.ratomMin g d h o f u w) := by
  obtain ⟨hl, ho, h0, h1, h2, h3, h4, h5, h6⟩ := layout54 g d h o f u w (op := 25) (by decide) rfl
  exact mk_mem rfl fun _ => ⟨hl, (rawMem_ratomMin ho).trans (by rw [h0, h1, h2, h3, h4, h5, h6])⟩

theorem rawMem_ratomMax {word : Nat} (h : fld word 25 7 = 26) :
    rawMem word = .ok (.ratomMax (guardOf word) (fb word 16 5) (fb word 8 8) (fb word 3 5) (fb word 2 1) (fb word 1 1) (fb word 0 1)) := by
  unfold rawMem
  rw [h]
  rfl

theorem Laws.Encoding.ratomMax (g : Guard) (d : BitVec 5) (h : BitVec 8) (o : BitVec 5) (f : BitVec 1) (u : BitVec 1) (w : BitVec 1) : Laws.Encoding.Statement (.ratomMax g d h o f u w) := by
  obtain ⟨hl, ho, h0, h1, h2, h3, h4, h5, h6⟩ := layout54 g d h o f u w (op := 26) (by decide) rfl
  exact mk_mem rfl fun _ => ⟨hl, (rawMem_ratomMax ho).trans (by rw [h0, h1, h2, h3, h4, h5, h6])⟩

theorem rawMem_ratomSwap {word : Nat} (h : fld word 25 7 = 27) :
    rawMem word = .ok (.ratomSwap (guardOf word) (fb word 16 5) (fb word 8 8) (fb word 3 5) (fb word 2 1) (fb word 1 1) (fb word 0 1)) := by
  unfold rawMem
  rw [h]
  rfl

theorem Laws.Encoding.ratomSwap (g : Guard) (d : BitVec 5) (h : BitVec 8) (o : BitVec 5) (f : BitVec 1) (u : BitVec 1) (w : BitVec 1) : Laws.Encoding.Statement (.ratomSwap g d h o f u w) := by
  obtain ⟨hl, ho, h0, h1, h2, h3, h4, h5, h6⟩ := layout54 g d h o f u w (op := 27) (by decide) rfl
  exact mk_mem rfl fun _ => ⟨hl, (rawMem_ratomSwap ho).trans (by rw [h0, h1, h2, h3, h4, h5, h6])⟩

theorem rawMem_ratomCas {word : Nat} (h : fld word 25 7 = 28) :
    rawMem word = .ok (.ratomCas (guardOf word) (fb word 16 5) (fb word 8 8) (fb word 3 5) (fb word 2 1) (fb word 1 1) (fb word 0 1)) := by
  unfold rawMem
  rw [h]
  rfl

theorem Laws.Encoding.ratomCas (g : Guard) (d : BitVec 5) (h : BitVec 8) (o : BitVec 5) (f : BitVec 1) (u : BitVec 1) (w : BitVec 1) : Laws.Encoding.Statement (.ratomCas g d h o f u w) := by
  obtain ⟨hl, ho, h0, h1, h2, h3, h4, h5, h6⟩ := layout54 g d h o f u w (op := 28) (by decide) rfl
  exact mk_mem rfl fun _ => ⟨hl, (rawMem_ratomCas ho).trans (by rw [h0, h1, h2, h3, h4, h5, h6])⟩

theorem rawMem_tlook {word : Nat} (h : fld word 25 7 = 32) :
    rawMem word = if fld word 0 11 = 0 then .ok (.tlook (guardOf word) (fb word 16 5) (fb word 11 5)) else if fld word 0 6 = 1 then .ok (.tlookR (guardOf word) (fb word 16 5) (fb word 11 5) (fb word 6 5)) else .error .reserved := by
  unfold rawMem
  rw [h]
  rfl

theorem Laws.Encoding.tlook (g : Guard) (d : BitVec 5) (a : BitVec 5) : Laws.Encoding.Statement (.tlook g d a) := by
  obtain ⟨hl, ho, h0, h1, h2, h3⟩ := layout2 g d a (op := 32) (by decide) rfl
  exact mk_mem rfl fun _ => ⟨hl, (rawMem_tlook ho).trans (by rw [if_pos h0, h1, h2, h3])⟩

theorem layout55 {op word : Nat} (g : Guard) (d : BitVec 5) (a : BitVec 5) (b : BitVec 5) (ho : op < 128)
    (hw : op * 2 ^ 25 + (g.neg.toNat * 2 ^ 24 + g.pred.toNat * 2 ^ 21) + 1 + (d.toNat * 2 ^ 16 + (a.toNat * 2 ^ 11 + (b.toNat * 2 ^ 6 + 0))) = word) :
    word < 2 ^ 32 ∧ fld word 25 7 = op ∧ ¬(fld word 0 11 = 0) ∧ (fld word 0 6 = 1) ∧ guardOf word = g ∧ fb word 16 5 = d ∧ fb word 11 5 = a ∧ fb word 6 5 = b := by
  exact ⟨by omega, by unfold fld; omega, by unfold fld; omega, by unfold fld; omega, guardOf_eq (by omega) (by omega), fb_eq (by omega), fb_eq (by omega), fb_eq (by omega)⟩

theorem rawMem_tlookR {word : Nat} (h : fld word 25 7 = 32) :
    rawMem word = if fld word 0 11 = 0 then .ok (.tlook (guardOf word) (fb word 16 5) (fb word 11 5)) else if fld word 0 6 = 1 then .ok (.tlookR (guardOf word) (fb word 16 5) (fb word 11 5) (fb word 6 5)) else .error .reserved := by
  unfold rawMem
  rw [h]
  rfl

theorem Laws.Encoding.tlookR (g : Guard) (d : BitVec 5) (a : BitVec 5) (b : BitVec 5) : Laws.Encoding.Statement (.tlookR g d a b) := by
  obtain ⟨hl, ho, h0, h1, h2, h3, h4, h5⟩ := layout55 g d a b (op := 32) (by decide) rfl
  exact mk_mem rfl fun _ => ⟨hl, (rawMem_tlookR ho).trans (by rw [if_neg h0, if_pos h1, h2, h3, h4, h5])⟩

theorem rawMem_tset {word : Nat} (h : fld word 25 7 = 33) :
    rawMem word = if fld word 0 6 = 0 then .ok (.tset (guardOf word) (fb word 16 5) (fb word 11 5) (fb word 6 5)) else .error .reserved := by
  unfold rawMem
  rw [h]
  rfl

theorem Laws.Encoding.tset (g : Guard) (d : BitVec 5) (a : BitVec 5) (b : BitVec 5) : Laws.Encoding.Statement (.tset g d a b) := by
  obtain ⟨hl, ho, h0, h1, h2, h3, h4⟩ := layout0 g d a b (op := 33) (by decide) rfl
  exact mk_mem rfl fun _ => ⟨hl, (rawMem_tset ho).trans (by rw [if_pos h0, h1, h2, h3, h4])⟩

theorem rawMem_tdel {word : Nat} (h : fld word 25 7 = 34) :
    rawMem word = if fld word 0 11 = 0 then .ok (.tdel (guardOf word) (fb word 16 5) (fb word 11 5)) else .error .reserved := by
  unfold rawMem
  rw [h]
  rfl

theorem Laws.Encoding.tdel (g : Guard) (d : BitVec 5) (a : BitVec 5) : Laws.Encoding.Statement (.tdel g d a) := by
  obtain ⟨hl, ho, h0, h1, h2, h3⟩ := layout2 g d a (op := 34) (by decide) rfl
  exact mk_mem rfl fun _ => ⟨hl, (rawMem_tdel ho).trans (by rw [if_pos h0, h1, h2, h3])⟩

theorem rawMem_tpin {word : Nat} (h : fld word 25 7 = 35) :
    rawMem word = if fld word 0 11 = 0 then .ok (.tpin (guardOf word) (fb word 16 5) (fb word 11 5)) else .error .reserved := by
  unfold rawMem
  rw [h]
  rfl

theorem Laws.Encoding.tpin (g : Guard) (d : BitVec 5) (a : BitVec 5) : Laws.Encoding.Statement (.tpin g d a) := by
  obtain ⟨hl, ho, h0, h1, h2, h3⟩ := layout2 g d a (op := 35) (by decide) rfl
  exact mk_mem rfl fun _ => ⟨hl, (rawMem_tpin ho).trans (by rw [if_pos h0, h1, h2, h3])⟩

theorem rawMem_tunpin {word : Nat} (h : fld word 25 7 = 36) :
    rawMem word = if fld word 0 11 = 0 then .ok (.tunpin (guardOf word) (fb word 16 5) (fb word 11 5)) else .error .reserved := by
  unfold rawMem
  rw [h]
  rfl

theorem Laws.Encoding.tunpin (g : Guard) (d : BitVec 5) (a : BitVec 5) : Laws.Encoding.Statement (.tunpin g d a) := by
  obtain ⟨hl, ho, h0, h1, h2, h3⟩ := layout2 g d a (op := 36) (by decide) rfl
  exact mk_mem rfl fun _ => ⟨hl, (rawMem_tunpin ho).trans (by rw [if_pos h0, h1, h2, h3])⟩

theorem layout56 {op word : Nat} (g : Guard) (m : BitVec 4) (h : BitVec 8) (o : BitVec 5) (z : BitVec 4) (ho : op < 128)
    (hw : op * 2 ^ 25 + (g.neg.toNat * 2 ^ 24 + g.pred.toNat * 2 ^ 21) + 0 + (m.toNat * 2 ^ 17 + (h.toNat * 2 ^ 9 + (o.toNat * 2 ^ 4 + (z.toNat * 2 ^ 0 + 0)))) = word) :
    word < 2 ^ 32 ∧ fld word 25 7 = op ∧ guardOf word = g ∧ fb word 17 4 = m ∧ fb word 9 8 = h ∧ fb word 4 5 = o ∧ fb word 0 4 = z := by
  exact ⟨by omega, by unfold fld; omega, guardOf_eq (by omega) (by omega), fb_eq (by omega), fb_eq (by omega), fb_eq (by omega), fb_eq (by omega)⟩

theorem rawMem_tmld {word : Nat} (h : fld word 25 7 = 40) :
    rawMem word = .ok (.tmld (guardOf word) (fb word 17 4) (fb word 9 8) (fb word 4 5) (fb word 0 4)) := by
  unfold rawMem
  rw [h]
  rfl

theorem Laws.Encoding.tmld (g : Guard) (m : BitVec 4) (h : BitVec 8) (o : BitVec 5) (z : BitVec 4) : Laws.Encoding.Statement (.tmld g m h o z) := by
  obtain ⟨hl, ho, h0, h1, h2, h3, h4⟩ := layout56 g m h o z (op := 40) (by decide) rfl
  exact mk_mem rfl fun _ => ⟨hl, (rawMem_tmld ho).trans (by rw [h0, h1, h2, h3, h4])⟩

theorem rawMem_tmst {word : Nat} (h : fld word 25 7 = 41) :
    rawMem word = .ok (.tmst (guardOf word) (fb word 17 4) (fb word 9 8) (fb word 4 5) (fb word 0 4)) := by
  unfold rawMem
  rw [h]
  rfl

theorem Laws.Encoding.tmst (g : Guard) (m : BitVec 4) (h : BitVec 8) (o : BitVec 5) (z : BitVec 4) : Laws.Encoding.Statement (.tmst g m h o z) := by
  obtain ⟨hl, ho, h0, h1, h2, h3, h4⟩ := layout56 g m h o z (op := 41) (by decide) rfl
  exact mk_mem rfl fun _ => ⟨hl, (rawMem_tmst ho).trans (by rw [h0, h1, h2, h3, h4])⟩

theorem layout57 {op word : Nat} (g : Guard) (m : BitVec 4) (a : BitVec 5) (x : BitVec 6) (hx : x.toNat < 63) (ho : op < 128)
    (hw : op * 2 ^ 25 + (g.neg.toNat * 2 ^ 24 + g.pred.toNat * 2 ^ 21) + 0 + (m.toNat * 2 ^ 16 + (a.toNat * 2 ^ 11 + (x.toNat * 2 ^ 0 + 0))) = word) :
    word < 2 ^ 32 ∧ fld word 25 7 = op ∧ ¬(fld word 0 16 = 63 ∧ fld word 20 1 = 0) ∧ (fld word 6 5 = 0 ∧ fld word 20 1 = 0) ∧ guardOf word = g ∧ fb word 16 4 = m ∧ fb word 11 5 = a ∧ fb word 0 6 = x := by
  exact ⟨by omega, by unfold fld; omega, by unfold fld; omega, by unfold fld; omega, guardOf_eq (by omega) (by omega), fb_eq (by omega), fb_eq (by omega), fb_eq (by omega)⟩

theorem rawMem_tmset {word : Nat} (h : fld word 25 7 = 42) :
    rawMem word = if fld word 0 16 = 63 ∧ fld word 20 1 = 0 then .ok (.tmsetClear (guardOf word) (fb word 16 4)) else if fld word 6 5 = 0 ∧ fld word 20 1 = 0 then .ok (.tmset (guardOf word) (fb word 16 4) (fb word 11 5) (fb word 0 6)) else .error .reserved := by
  unfold rawMem
  rw [h]
  rfl

theorem Laws.Encoding.tmset (g : Guard) (m : BitVec 4) (a : BitVec 5) (x : BitVec 6) : Laws.Encoding.Statement (.tmset g m a x) := by
  refine mk_mem rfl fun wf => ?_
  have hx : x.toNat < 63 := by
    have := of_decide_eq_true wf
    omega
  obtain ⟨hl, ho, h0, h1, h2, h3, h4, h5⟩ := layout57 g m a x hx (op := 42) (by decide) rfl
  exact ⟨hl, (rawMem_tmset ho).trans (by rw [if_neg h0, if_pos h1, h2, h3, h4, h5])⟩

theorem layout58 {op word : Nat} (g : Guard) (m : BitVec 4) (ho : op < 128)
    (hw : op * 2 ^ 25 + (g.neg.toNat * 2 ^ 24 + g.pred.toNat * 2 ^ 21) + 63 + (m.toNat * 2 ^ 16 + 0) = word) :
    word < 2 ^ 32 ∧ fld word 25 7 = op ∧ (fld word 0 16 = 63 ∧ fld word 20 1 = 0) ∧ guardOf word = g ∧ fb word 16 4 = m := by
  exact ⟨by omega, by unfold fld; omega, by unfold fld; omega, guardOf_eq (by omega) (by omega), fb_eq (by omega)⟩

theorem rawMem_tmsetClear {word : Nat} (h : fld word 25 7 = 42) :
    rawMem word = if fld word 0 16 = 63 ∧ fld word 20 1 = 0 then .ok (.tmsetClear (guardOf word) (fb word 16 4)) else if fld word 6 5 = 0 ∧ fld word 20 1 = 0 then .ok (.tmset (guardOf word) (fb word 16 4) (fb word 11 5) (fb word 0 6)) else .error .reserved := by
  unfold rawMem
  rw [h]
  rfl

theorem Laws.Encoding.tmsetClear (g : Guard) (m : BitVec 4) : Laws.Encoding.Statement (.tmsetClear g m) := by
  obtain ⟨hl, ho, h0, h1, h2⟩ := layout58 g m (op := 42) (by decide) rfl
  exact mk_mem rfl fun _ => ⟨hl, (rawMem_tmsetClear ho).trans (by rw [if_pos h0, h1, h2])⟩

theorem layout59 {op word : Nat} (g : Guard) (m : BitVec 4) (a : BitVec 5) (x : BitVec 6) (ho : op < 128)
    (hw : op * 2 ^ 25 + (g.neg.toNat * 2 ^ 24 + g.pred.toNat * 2 ^ 21) + 0 + (m.toNat * 2 ^ 16 + (a.toNat * 2 ^ 11 + (x.toNat * 2 ^ 0 + 0))) = word) :
    word < 2 ^ 32 ∧ fld word 25 7 = op ∧ (fld word 6 5 = 0 ∧ fld word 20 1 = 0) ∧ guardOf word = g ∧ fb word 16 4 = m ∧ fb word 11 5 = a ∧ fb word 0 6 = x := by
  exact ⟨by omega, by unfold fld; omega, by unfold fld; omega, guardOf_eq (by omega) (by omega), fb_eq (by omega), fb_eq (by omega), fb_eq (by omega)⟩

theorem rawMem_tmadd {word : Nat} (h : fld word 25 7 = 43) :
    rawMem word = if fld word 6 5 = 0 ∧ fld word 20 1 = 0 then .ok (.tmadd (guardOf word) (fb word 16 4) (fb word 11 5) (fb word 0 6)) else .error .reserved := by
  unfold rawMem
  rw [h]
  rfl

theorem Laws.Encoding.tmadd (g : Guard) (m : BitVec 4) (a : BitVec 5) (x : BitVec 6) : Laws.Encoding.Statement (.tmadd g m a x) := by
  obtain ⟨hl, ho, h0, h1, h2, h3, h4⟩ := layout59 g m a x (op := 43) (by decide) rfl
  exact mk_mem rfl fun _ => ⟨hl, (rawMem_tmadd ho).trans (by rw [if_pos h0, h1, h2, h3, h4])⟩

theorem rawMem_sgset {word : Nat} (h : fld word 25 7 = 44) :
    rawMem word = if fld word 0 6 = 0 ∧ fld word 19 2 = 0 then .ok (.sgset (guardOf word) (fb word 16 3) (fb word 11 5) (fb word 6 5)) else .error .reserved := by
  unfold rawMem
  rw [h]
  rfl

theorem Laws.Encoding.sgset (g : Guard) (d : BitVec 3) (a : BitVec 5) (b : BitVec 5) : Laws.Encoding.Statement (.sgset g d a b) := by
  obtain ⟨hl, ho, h0, h1, h2, h3, h4⟩ := layout7 g d a b (op := 44) (by decide) rfl
  exact mk_mem rfl fun _ => ⟨hl, (rawMem_sgset ho).trans (by rw [if_pos h0, h1, h2, h3, h4])⟩

theorem layout60 {op word : Nat} (g : Guard) (s : BitVec 3) (ho : op < 128)
    (hw : op * 2 ^ 25 + (g.neg.toNat * 2 ^ 24 + g.pred.toNat * 2 ^ 21) + 0 + (s.toNat * 2 ^ 0 + 0) = word) :
    word < 2 ^ 32 ∧ fld word 25 7 = op ∧ (fld word 3 18 = 0) ∧ guardOf word = g ∧ fb word 0 3 = s := by
  exact ⟨by omega, by unfold fld; omega, by unfold fld; omega, guardOf_eq (by omega) (by omega), fb_eq (by omega)⟩

theorem rawMem_fenceScope {word : Nat} (h : fld word 25 7 = 48) :
    rawMem word = if fld word 3 18 = 0 then .ok (.fenceScope (guardOf word) (fb word 0 3)) else .error .reserved := by
  unfold rawMem
  rw [h]
  rfl

theorem Laws.Encoding.fenceScope (g : Guard) (s : BitVec 3) : Laws.Encoding.Statement (.fenceScope g s) := by
  obtain ⟨hl, ho, h0, h1, h2⟩ := layout60 g s (op := 48) (by decide) rfl
  exact mk_mem rfl fun _ => ⟨hl, (rawMem_fenceScope ho).trans (by rw [if_pos h0, h1, h2])⟩

theorem rawMem_fenceX {word : Nat} (h : fld word 25 7 = 49) :
    rawMem word = if fld word 0 21 = 0 then .ok (.fenceX (guardOf word) ) else .error .reserved := by
  unfold rawMem
  rw [h]
  rfl

theorem Laws.Encoding.fenceX (g : Guard) : Laws.Encoding.Statement (.fenceX g) := by
  obtain ⟨hl, ho, h0, h1⟩ := layout25 g (op := 49) (by decide) rfl
  exact mk_mem rfl fun _ => ⟨hl, (rawMem_fenceX ho).trans (by rw [if_pos h0, h1])⟩

theorem layout61 {op word : Nat} (g : Guard) (a : BitVec 5) (n : BitVec 6) (ho : op < 128)
    (hw : op * 2 ^ 25 + (g.neg.toNat * 2 ^ 24 + g.pred.toNat * 2 ^ 21) + 0 + (a.toNat * 2 ^ 11 + (n.toNat * 2 ^ 0 + 0)) = word) :
    word < 2 ^ 32 ∧ fld word 25 7 = op ∧ (fld word 6 5 = 0 ∧ fld word 16 5 = 0) ∧ guardOf word = g ∧ fb word 11 5 = a ∧ fb word 0 6 = n := by
  exact ⟨by omega, by unfold fld; omega, by unfold fld; omega, guardOf_eq (by omega) (by omega), fb_eq (by omega), fb_eq (by omega)⟩

theorem rawMem_semsig {word : Nat} (h : fld word 25 7 = 52) :
    rawMem word = if fld word 6 5 = 0 ∧ fld word 16 5 = 0 then .ok (.semsig (guardOf word) (fb word 11 5) (fb word 0 6)) else .error .reserved := by
  unfold rawMem
  rw [h]
  rfl

theorem Laws.Encoding.semsig (g : Guard) (a : BitVec 5) (n : BitVec 6) : Laws.Encoding.Statement (.semsig g a n) := by
  obtain ⟨hl, ho, h0, h1, h2, h3⟩ := layout61 g a n (op := 52) (by decide) rfl
  exact mk_mem rfl fun _ => ⟨hl, (rawMem_semsig ho).trans (by rw [if_pos h0, h1, h2, h3])⟩

theorem rawMem_semwait {word : Nat} (h : fld word 25 7 = 53) :
    rawMem word = if fld word 0 11 = 0 ∧ fld word 16 5 = 0 then .ok (.semwait (guardOf word) (fb word 11 5)) else .error .reserved := by
  unfold rawMem
  rw [h]
  rfl

theorem Laws.Encoding.semwait (g : Guard) (a : BitVec 5) : Laws.Encoding.Statement (.semwait g a) := by
  obtain ⟨hl, ho, h0, h1, h2⟩ := layout13 g a (op := 53) (by decide) rfl
  exact mk_mem rfl fun _ => ⟨hl, (rawMem_semwait ho).trans (by rw [if_pos h0, h1, h2])⟩

theorem layout62 {op word : Nat} (g : Guard) (d : BitVec 3) (s : BitVec 2) (ho : op < 128)
    (hw : op * 2 ^ 25 + (g.neg.toNat * 2 ^ 24 + g.pred.toNat * 2 ^ 21) + 0 + (d.toNat * 2 ^ 16 + (s.toNat * 2 ^ 0 + 0)) = word) :
    word < 2 ^ 32 ∧ fld word 25 7 = op ∧ (fld word 2 14 = 0 ∧ fld word 19 2 = 0) ∧ guardOf word = g ∧ fb word 16 3 = d ∧ fb word 0 2 = s := by
  exact ⟨by omega, by unfold fld; omega, by unfold fld; omega, guardOf_eq (by omega) (by omega), fb_eq (by omega), fb_eq (by omega)⟩

theorem rawMem_barr {word : Nat} (h : fld word 25 7 = 54) :
    rawMem word = if fld word 2 14 = 0 ∧ fld word 19 2 = 0 then .ok (.barr (guardOf word) (fb word 16 3) (fb word 0 2)) else .error .reserved := by
  unfold rawMem
  rw [h]
  rfl

theorem Laws.Encoding.barr (g : Guard) (d : BitVec 3) (s : BitVec 2) : Laws.Encoding.Statement (.barr g d s) := by
  obtain ⟨hl, ho, h0, h1, h2, h3⟩ := layout62 g d s (op := 54) (by decide) rfl
  exact mk_mem rfl fun _ => ⟨hl, (rawMem_barr ho).trans (by rw [if_pos h0, h1, h2, h3])⟩

theorem rawMem_tqpush {word : Nat} (h : fld word 25 7 = 55) :
    rawMem word = if fld word 0 6 = 0 ∧ fld word 19 2 = 0 then .ok (.tqpush (guardOf word) (fb word 16 3) (fb word 11 5) (fb word 6 5)) else .error .reserved := by
  unfold rawMem
  rw [h]
  rfl

theorem Laws.Encoding.tqpush (g : Guard) (d : BitVec 3) (a : BitVec 5) (b : BitVec 5) : Laws.Encoding.Statement (.tqpush g d a b) := by
  obtain ⟨hl, ho, h0, h1, h2, h3, h4⟩ := layout7 g d a b (op := 55) (by decide) rfl
  exact mk_mem rfl fun _ => ⟨hl, (rawMem_tqpush ho).trans (by rw [if_pos h0, h1, h2, h3, h4])⟩

theorem layout63 {op word : Nat} (g : Guard) (d : BitVec 5) (a : BitVec 5) (k : BitVec 3) (ho : op < 128)
    (hw : op * 2 ^ 25 + (g.neg.toNat * 2 ^ 24 + g.pred.toNat * 2 ^ 21) + 0 + (d.toNat * 2 ^ 16 + (a.toNat * 2 ^ 11 + (k.toNat * 2 ^ 0 + 0))) = word) :
    word < 2 ^ 32 ∧ fld word 25 7 = op ∧ (fld word 3 8 = 0) ∧ guardOf word = g ∧ fb word 16 5 = d ∧ fb word 11 5 = a ∧ fb word 0 3 = k := by
  exact ⟨by omega, by unfold fld; omega, by unfold fld; omega, guardOf_eq (by omega) (by omega), fb_eq (by omega), fb_eq (by omega), fb_eq (by omega)⟩

theorem rawMem_tqpop {word : Nat} (h : fld word 25 7 = 56) :
    rawMem word = if fld word 3 8 = 0 then .ok (.tqpop (guardOf word) (fb word 16 5) (fb word 11 5) (fb word 0 3)) else .error .reserved := by
  unfold rawMem
  rw [h]
  rfl

theorem Laws.Encoding.tqpop (g : Guard) (d : BitVec 5) (a : BitVec 5) (k : BitVec 3) : Laws.Encoding.Statement (.tqpop g d a k) := by
  obtain ⟨hl, ho, h0, h1, h2, h3, h4⟩ := layout63 g d a k (op := 56) (by decide) rfl
  exact mk_mem rfl fun _ => ⟨hl, (rawMem_tqpop ho).trans (by rw [if_pos h0, h1, h2, h3, h4])⟩

theorem layout64 {op word : Nat} (g : Guard) (m : BitVec 4) (ho : op < 128)
    (hw : op * 2 ^ 25 + (g.neg.toNat * 2 ^ 24 + g.pred.toNat * 2 ^ 21) + 0 + (m.toNat * 2 ^ 0 + 0) = word) :
    word < 2 ^ 32 ∧ fld word 25 7 = op ∧ (fld word 4 17 = 0) ∧ guardOf word = g ∧ fb word 0 4 = m := by
  exact ⟨by omega, by unfold fld; omega, by unfold fld; omega, guardOf_eq (by omega) (by omega), fb_eq (by omega)⟩

theorem rawMem_fuse {word : Nat} (h : fld word 25 7 = 57) :
    rawMem word = if fld word 4 17 = 0 then .ok (.fuse (guardOf word) (fb word 0 4)) else .error .reserved := by
  unfold rawMem
  rw [h]
  rfl

theorem Laws.Encoding.fuse (g : Guard) (m : BitVec 4) : Laws.Encoding.Statement (.fuse g m) := by
  obtain ⟨hl, ho, h0, h1, h2⟩ := layout64 g m (op := 57) (by decide) rfl
  exact mk_mem rfl fun _ => ⟨hl, (rawMem_fuse ho).trans (by rw [if_pos h0, h1, h2])⟩

theorem rawMem_decouple {word : Nat} (h : fld word 25 7 = 58) :
    rawMem word = if fld word 0 21 = 0 then .ok (.decouple (guardOf word) ) else .error .reserved := by
  unfold rawMem
  rw [h]
  rfl

theorem Laws.Encoding.decouple (g : Guard) : Laws.Encoding.Statement (.decouple g) := by
  obtain ⟨hl, ho, h0, h1⟩ := layout25 g (op := 58) (by decide) rfl
  exact mk_mem rfl fun _ => ⟨hl, (rawMem_decouple ho).trans (by rw [if_pos h0, h1])⟩

theorem rawMem_rejoin {word : Nat} (h : fld word 25 7 = 59) :
    rawMem word = if fld word 0 21 = 0 then .ok (.rejoin (guardOf word) ) else .error .reserved := by
  unfold rawMem
  rw [h]
  rfl

theorem Laws.Encoding.rejoin (g : Guard) : Laws.Encoding.Statement (.rejoin g) := by
  obtain ⟨hl, ho, h0, h1⟩ := layout25 g (op := 59) (by decide) rfl
  exact mk_mem rfl fun _ => ⟨hl, (rawMem_rejoin ho).trans (by rw [if_pos h0, h1])⟩

theorem rawMem_taskput {word : Nat} (h : fld word 25 7 = 60) :
    rawMem word = if fld word 0 6 = 0 ∧ fld word 19 2 = 0 then .ok (.taskput (guardOf word) (fb word 16 3) (fb word 11 5) (fb word 6 5)) else .error .reserved := by
  unfold rawMem
  rw [h]
  rfl

theorem Laws.Encoding.taskput (g : Guard) (d : BitVec 3) (a : BitVec 5) (b : BitVec 5) : Laws.Encoding.Statement (.taskput g d a b) := by
  obtain ⟨hl, ho, h0, h1, h2, h3, h4⟩ := layout7 g d a b (op := 60) (by decide) rfl
  exact mk_mem rfl fun _ => ⟨hl, (rawMem_taskput ho).trans (by rw [if_pos h0, h1, h2, h3, h4])⟩

theorem rawMem_futrd {word : Nat} (h : fld word 25 7 = 61) :
    rawMem word = if fld word 0 11 = 0 then .ok (.futrd (guardOf word) (fb word 16 5) (fb word 11 5)) else .error .reserved := by
  unfold rawMem
  rw [h]
  rfl

theorem Laws.Encoding.futrd (g : Guard) (d : BitVec 5) (a : BitVec 5) : Laws.Encoding.Statement (.futrd g d a) := by
  obtain ⟨hl, ho, h0, h1, h2, h3⟩ := layout2 g d a (op := 61) (by decide) rfl
  exact mk_mem rfl fun _ => ⟨hl, (rawMem_futrd ho).trans (by rw [if_pos h0, h1, h2, h3])⟩

theorem layout65 {op word : Nat} (g : Guard) (a : BitVec 5) (b : BitVec 5) (ho : op < 128)
    (hw : op * 2 ^ 25 + (g.neg.toNat * 2 ^ 24 + g.pred.toNat * 2 ^ 21) + 0 + (a.toNat * 2 ^ 11 + (b.toNat * 2 ^ 6 + 0)) = word) :
    word < 2 ^ 32 ∧ fld word 25 7 = op ∧ (fld word 0 6 = 0 ∧ fld word 16 5 = 0) ∧ guardOf word = g ∧ fb word 11 5 = a ∧ fb word 6 5 = b := by
  exact ⟨by omega, by unfold fld; omega, by unfold fld; omega, guardOf_eq (by omega) (by omega), fb_eq (by omega), fb_eq (by omega)⟩

theorem rawMem_futfill {word : Nat} (h : fld word 25 7 = 62) :
    rawMem word = if fld word 0 6 = 0 ∧ fld word 16 5 = 0 then .ok (.futfill (guardOf word) (fb word 11 5) (fb word 6 5)) else .error .reserved := by
  unfold rawMem
  rw [h]
  rfl

theorem Laws.Encoding.futfill (g : Guard) (a : BitVec 5) (b : BitVec 5) : Laws.Encoding.Statement (.futfill g a b) := by
  obtain ⟨hl, ho, h0, h1, h2, h3⟩ := layout65 g a b (op := 62) (by decide) rfl
  exact mk_mem rfl fun _ => ⟨hl, (rawMem_futfill ho).trans (by rw [if_pos h0, h1, h2, h3])⟩

theorem layout66 {op word : Nat} (g : Guard) (n : BitVec 8) (e : EngOpt) (ho : op < 128)
    (hw : op * 2 ^ 25 + (g.neg.toNat * 2 ^ 24 + g.pred.toNat * 2 ^ 21) + 0 + (n.toNat * 2 ^ 13 + (encOpt e + 0)) = word) :
    word < 2 ^ 32 ∧ fld word 25 7 = op ∧ (fld word 0 3 = 0) ∧ guardOf word = g ∧ fb word 13 8 = n ∧ optOf word = e := by
  have hb : encOpt e < 2 ^ 13 ∧ encOpt e % 8 = 0 := encOpt_lt e
  exact ⟨by omega, by unfold fld; omega, by unfold fld; omega, guardOf_eq (by omega) (by omega), fb_eq (by omega), optOf_eq (r := word / 2 ^ 13) (by omega)⟩

theorem rawMem_mlease {word : Nat} (h : fld word 25 7 = 64) :
    rawMem word = if fld word 0 3 = 0 then .ok (.mlease (guardOf word) (fb word 13 8) (optOf word)) else .error .reserved := by
  unfold rawMem
  rw [h]
  rfl

theorem Laws.Encoding.mlease (g : Guard) (n : BitVec 8) (e : EngOpt) : Laws.Encoding.Statement (.mlease g n e) := by
  obtain ⟨hl, ho, h0, h1, h2, h3⟩ := layout66 g n e (op := 64) (by decide) rfl
  exact mk_mem rfl fun _ => ⟨hl, (rawMem_mlease ho).trans (by rw [if_pos h0, h1, h2, h3])⟩

theorem layout67 {op word : Nat} (g : Guard) (e : EngOpt) (ho : op < 128)
    (hw : op * 2 ^ 25 + (g.neg.toNat * 2 ^ 24 + g.pred.toNat * 2 ^ 21) + 0 + (encOpt e + 0) = word) :
    word < 2 ^ 32 ∧ fld word 25 7 = op ∧ (fld word 0 3 = 0 ∧ fld word 13 8 = 0) ∧ guardOf word = g ∧ optOf word = e := by
  have hb : encOpt e < 2 ^ 13 ∧ encOpt e % 8 = 0 := encOpt_lt e
  exact ⟨by omega, by unfold fld; omega, by unfold fld; omega, guardOf_eq (by omega) (by omega), optOf_eq (r := word / 2 ^ 13) (by omega)⟩

theorem rawMem_mfree {word : Nat} (h : fld word 25 7 = 65) :
    rawMem word = if fld word 0 3 = 0 ∧ fld word 13 8 = 0 then .ok (.mfree (guardOf word) (optOf word)) else .error .reserved := by
  unfold rawMem
  rw [h]
  rfl

theorem Laws.Encoding.mfree (g : Guard) (e : EngOpt) : Laws.Encoding.Statement (.mfree g e) := by
  obtain ⟨hl, ho, h0, h1, h2⟩ := layout67 g e (op := 65) (by decide) rfl
  exact mk_mem rfl fun _ => ⟨hl, (rawMem_mfree ho).trans (by rw [if_pos h0, h1, h2])⟩

theorem layout68 {op word : Nat} (g : Guard) (a : BitVec 4) (l : BitVec 1) (u : BitVec 1) (c : BitVec 3) (e : EngOpt) (ho : op < 128)
    (hw : op * 2 ^ 25 + (g.neg.toNat * 2 ^ 24 + g.pred.toNat * 2 ^ 21) + 0 + (a.toNat * 2 ^ 17 + (l.toNat * 2 ^ 16 + (u.toNat * 2 ^ 15 + (c.toNat * 2 ^ 0 + (encOpt e + 0))))) = word) :
    word < 2 ^ 32 ∧ fld word 25 7 = op ∧ (fld word 13 2 = 0) ∧ guardOf word = g ∧ fb word 17 4 = a ∧ fb word 16 1 = l ∧ fb word 15 1 = u ∧ fb word 0 3 = c ∧ optOf word = e := by
  have hb : encOpt e < 2 ^ 13 ∧ encOpt e % 8 = 0 := encOpt_lt e
  exact ⟨by omega, by unfold fld; omega, by unfold fld; omega, guardOf_eq (by omega) (by omega), fb_eq (by omega), fb_eq (by omega), fb_eq (by omega), fb_eq (by omega), optOf_eq (r := word / 2 ^ 13) (by omega)⟩

theorem rawMem_mldw {word : Nat} (h : fld word 25 7 = 66) :
    rawMem word = if fld word 13 2 = 0 then .ok (.mldw (guardOf word) (fb word 17 4) (fb word 16 1) (fb word 15 1) (fb word 0 3) (optOf word)) else .error .reserved := by
  unfold rawMem
  rw [h]
  rfl

theorem Laws.Encoding.mldw (g : Guard) (a : BitVec 4) (l : BitVec 1) (u : BitVec 1) (c : BitVec 3) (e : EngOpt) : Laws.Encoding.Statement (.mldw g a l u c e) := by
  obtain ⟨hl, ho, h0, h1, h2, h3, h4, h5, h6⟩ := layout68 g a l u c e (op := 66) (by decide) rfl
  exact mk_mem rfl fun _ => ⟨hl, (rawMem_mldw ho).trans (by rw [if_pos h0, h1, h2, h3, h4, h5, h6])⟩

theorem layout69 {op word : Nat} (g : Guard) (a : BitVec 4) (b : BitVec 4) (f : BitVec 1) (h : BitVec 1) (k : BitVec 1) (e : EngOpt) (ho : op < 128)
    (hw : op * 2 ^ 25 + (g.neg.toNat * 2 ^ 24 + g.pred.toNat * 2 ^ 21) + 0 + (a.toNat * 2 ^ 17 + (b.toNat * 2 ^ 13 + (f.toNat * 2 ^ 2 + (h.toNat * 2 ^ 1 + (k.toNat * 2 ^ 0 + (encOpt e + 0)))))) = word) :
    word < 2 ^ 32 ∧ fld word 25 7 = op ∧ guardOf word = g ∧ fb word 17 4 = a ∧ fb word 13 4 = b ∧ fb word 2 1 = f ∧ fb word 1 1 = h ∧ fb word 0 1 = k ∧ optOf word = e := by
  have hb : encOpt e < 2 ^ 13 ∧ encOpt e % 8 = 0 := encOpt_lt e
  exact ⟨by omega, by unfold fld; omega, guardOf_eq (by omega) (by omega), fb_eq (by omega), fb_eq (by omega), fb_eq (by omega), fb_eq (by omega), fb_eq (by omega), optOf_eq (r := word / 2 ^ 13) (by omega)⟩

theorem rawMem_mrun {word : Nat} (h : fld word 25 7 = 67) :
    rawMem word = .ok (.mrun (guardOf word) (fb word 17 4) (fb word 13 4) (fb word 2 1) (fb word 1 1) (fb word 0 1) (optOf word)) := by
  unfold rawMem
  rw [h]
  rfl

theorem Laws.Encoding.mrun (g : Guard) (a : BitVec 4) (b : BitVec 4) (f : BitVec 1) (h : BitVec 1) (k : BitVec 1) (e : EngOpt) : Laws.Encoding.Statement (.mrun g a b f h k e) := by
  obtain ⟨hl, ho, h0, h1, h2, h3, h4, h5, h6⟩ := layout69 g a b f h k e (op := 67) (by decide) rfl
  exact mk_mem rfl fun _ => ⟨hl, (rawMem_mrun ho).trans (by rw [h0, h1, h2, h3, h4, h5, h6])⟩

theorem layout70 {op word : Nat} (g : Guard) (a : BitVec 4) (b : BitVec 4) (h : BitVec 1) (k : BitVec 1) (e : EngOpt) (ho : op < 128)
    (hw : op * 2 ^ 25 + (g.neg.toNat * 2 ^ 24 + g.pred.toNat * 2 ^ 21) + 0 + (a.toNat * 2 ^ 17 + (b.toNat * 2 ^ 13 + (h.toNat * 2 ^ 1 + (k.toNat * 2 ^ 0 + (encOpt e + 0))))) = word) :
    word < 2 ^ 32 ∧ fld word 25 7 = op ∧ (fld word 2 1 = 0) ∧ guardOf word = g ∧ fb word 17 4 = a ∧ fb word 13 4 = b ∧ fb word 1 1 = h ∧ fb word 0 1 = k ∧ optOf word = e := by
  have hb : encOpt e < 2 ^ 13 ∧ encOpt e % 8 = 0 := encOpt_lt e
  exact ⟨by omega, by unfold fld; omega, by unfold fld; omega, guardOf_eq (by omega) (by omega), fb_eq (by omega), fb_eq (by omega), fb_eq (by omega), fb_eq (by omega), optOf_eq (r := word / 2 ^ 13) (by omega)⟩

theorem rawMem_mdrain {word : Nat} (h : fld word 25 7 = 68) :
    rawMem word = if fld word 2 1 = 0 then .ok (.mdrain (guardOf word) (fb word 17 4) (fb word 13 4) (fb word 1 1) (fb word 0 1) (optOf word)) else .error .reserved := by
  unfold rawMem
  rw [h]
  rfl

theorem Laws.Encoding.mdrain (g : Guard) (a : BitVec 4) (b : BitVec 4) (h : BitVec 1) (k : BitVec 1) (e : EngOpt) : Laws.Encoding.Statement (.mdrain g a b h k e) := by
  obtain ⟨hl, ho, h0, h1, h2, h3, h4, h5, h6⟩ := layout70 g a b h k e (op := 68) (by decide) rfl
  exact mk_mem rfl fun _ => ⟨hl, (rawMem_mdrain ho).trans (by rw [if_pos h0, h1, h2, h3, h4, h5, h6])⟩

theorem layout71 {op word : Nat} (g : Guard) (b : BitVec 4) (e : EngOpt) (ho : op < 128)
    (hw : op * 2 ^ 25 + (g.neg.toNat * 2 ^ 24 + g.pred.toNat * 2 ^ 21) + 0 + (b.toNat * 2 ^ 13 + (encOpt e + 0)) = word) :
    word < 2 ^ 32 ∧ fld word 25 7 = op ∧ (fld word 0 3 = 0 ∧ fld word 17 4 = 0) ∧ guardOf word = g ∧ fb word 13 4 = b ∧ optOf word = e := by
  have hb : encOpt e < 2 ^ 13 ∧ encOpt e % 8 = 0 := encOpt_lt e
  exact ⟨by omega, by unfold fld; omega, by unfold fld; omega, guardOf_eq (by omega) (by omega), fb_eq (by omega), optOf_eq (r := word / 2 ^ 13) (by omega)⟩

theorem rawMem_mclr {word : Nat} (h : fld word 25 7 = 69) :
    rawMem word = if fld word 0 3 = 0 ∧ fld word 17 4 = 0 then .ok (.mclr (guardOf word) (fb word 13 4) (optOf word)) else .error .reserved := by
  unfold rawMem
  rw [h]
  rfl

theorem Laws.Encoding.mclr (g : Guard) (b : BitVec 4) (e : EngOpt) : Laws.Encoding.Statement (.mclr g b e) := by
  obtain ⟨hl, ho, h0, h1, h2, h3⟩ := layout71 g b e (op := 69) (by decide) rfl
  exact mk_mem rfl fun _ => ⟨hl, (rawMem_mclr ho).trans (by rw [if_pos h0, h1, h2, h3])⟩

theorem layout72 {op word : Nat} (g : Guard) (a : BitVec 4) (b : BitVec 4) (l : BitVec 1) (e : EngOpt) (ho : op < 128)
    (hw : op * 2 ^ 25 + (g.neg.toNat * 2 ^ 24 + g.pred.toNat * 2 ^ 21) + 0 + (a.toNat * 2 ^ 17 + (b.toNat * 2 ^ 13 + (l.toNat * 2 ^ 0 + (encOpt e + 0)))) = word) :
    word < 2 ^ 32 ∧ fld word 25 7 = op ∧ (fld word 1 2 = 0) ∧ guardOf word = g ∧ fb word 17 4 = a ∧ fb word 13 4 = b ∧ fb word 0 1 = l ∧ optOf word = e := by
  have hb : encOpt e < 2 ^ 13 ∧ encOpt e % 8 = 0 := encOpt_lt e
  exact ⟨by omega, by unfold fld; omega, by unfold fld; omega, guardOf_eq (by omega) (by omega), fb_eq (by omega), fb_eq (by omega), fb_eq (by omega), optOf_eq (r := word / 2 ^ 13) (by omega)⟩

theorem rawMem_massay {word : Nat} (h : fld word 25 7 = 70) :
    rawMem word = if fld word 1 2 = 0 then .ok (.massay (guardOf word) (fb word 17 4) (fb word 13 4) (fb word 0 1) (optOf word)) else .error .reserved := by
  unfold rawMem
  rw [h]
  rfl

theorem Laws.Encoding.massay (g : Guard) (a : BitVec 4) (b : BitVec 4) (l : BitVec 1) (e : EngOpt) : Laws.Encoding.Statement (.massay g a b l e) := by
  obtain ⟨hl, ho, h0, h1, h2, h3, h4, h5⟩ := layout72 g a b l e (op := 70) (by decide) rfl
  exact mk_mem rfl fun _ => ⟨hl, (rawMem_massay ho).trans (by rw [if_pos h0, h1, h2, h3, h4, h5])⟩

theorem layout73 {op word : Nat} (g : Guard) (a : BitVec 4) (b : BitVec 4) (e : EngOpt) (ho : op < 128)
    (hw : op * 2 ^ 25 + (g.neg.toNat * 2 ^ 24 + g.pred.toNat * 2 ^ 21) + 0 + (a.toNat * 2 ^ 17 + (b.toNat * 2 ^ 13 + (encOpt e + 0))) = word) :
    word < 2 ^ 32 ∧ fld word 25 7 = op ∧ (fld word 0 3 = 0) ∧ guardOf word = g ∧ fb word 17 4 = a ∧ fb word 13 4 = b ∧ optOf word = e := by
  have hb : encOpt e < 2 ^ 13 ∧ encOpt e % 8 = 0 := encOpt_lt e
  exact ⟨by omega, by unfold fld; omega, by unfold fld; omega, guardOf_eq (by omega) (by omega), fb_eq (by omega), fb_eq (by omega), optOf_eq (r := word / 2 ^ 13) (by omega)⟩

theorem rawMem_copy {word : Nat} (h : fld word 25 7 = 72) :
    rawMem word = if fld word 0 3 = 0 then .ok (.copy (guardOf word) (fb word 17 4) (fb word 13 4) (optOf word)) else .error .reserved := by
  unfold rawMem
  rw [h]
  rfl

theorem Laws.Encoding.copy (g : Guard) (a : BitVec 4) (b : BitVec 4) (e : EngOpt) : Laws.Encoding.Statement (.copy g a b e) := by
  obtain ⟨hl, ho, h0, h1, h2, h3, h4⟩ := layout73 g a b e (op := 72) (by decide) rfl
  exact mk_mem rfl fun _ => ⟨hl, (rawMem_copy ho).trans (by rw [if_pos h0, h1, h2, h3, h4])⟩

theorem layout74 {op word : Nat} (g : Guard) (a : BitVec 4) (b : BitVec 4) (t : BitVec 1) (e : EngOpt) (ho : op < 128)
    (hw : op * 2 ^ 25 + (g.neg.toNat * 2 ^ 24 + g.pred.toNat * 2 ^ 21) + 0 + (a.toNat * 2 ^ 17 + (b.toNat * 2 ^ 13 + (t.toNat * 2 ^ 0 + (encOpt e + 0)))) = word) :
    word < 2 ^ 32 ∧ fld word 25 7 = op ∧ (fld word 1 2 = 0) ∧ guardOf word = g ∧ fb word 17 4 = a ∧ fb word 13 4 = b ∧ fb word 0 1 = t ∧ optOf word = e := by
  have hb : encOpt e < 2 ^ 13 ∧ encOpt e % 8 = 0 := encOpt_lt e
  exact ⟨by omega, by unfold fld; omega, by unfold fld; omega, guardOf_eq (by omega) (by omega), fb_eq (by omega), fb_eq (by omega), fb_eq (by omega), optOf_eq (r := word / 2 ^ 13) (by omega)⟩

theorem rawMem_copy2 {word : Nat} (h : fld word 25 7 = 73) :
    rawMem word = if fld word 1 2 = 0 then .ok (.copy2 (guardOf word) (fb word 17 4) (fb word 13 4) (fb word 0 1) (optOf word)) else .error .reserved := by
  unfold rawMem
  rw [h]
  rfl

theorem Laws.Encoding.copy2 (g : Guard) (a : BitVec 4) (b : BitVec 4) (t : BitVec 1) (e : EngOpt) : Laws.Encoding.Statement (.copy2 g a b t e) := by
  obtain ⟨hl, ho, h0, h1, h2, h3, h4, h5⟩ := layout74 g a b t e (op := 73) (by decide) rfl
  exact mk_mem rfl fun _ => ⟨hl, (rawMem_copy2 ho).trans (by rw [if_pos h0, h1, h2, h3, h4, h5])⟩

theorem rawMem_gath {word : Nat} (h : fld word 25 7 = 74) :
    rawMem word = if fld word 0 3 = 0 then .ok (.gath (guardOf word) (fb word 17 4) (fb word 13 4) (optOf word)) else .error .reserved := by
  unfold rawMem
  rw [h]
  rfl

theorem Laws.Encoding.gath (g : Guard) (a : BitVec 4) (b : BitVec 4) (e : EngOpt) : Laws.Encoding.Statement (.gath g a b e) := by
  obtain ⟨hl, ho, h0, h1, h2, h3, h4⟩ := layout73 g a b e (op := 74) (by decide) rfl
  exact mk_mem rfl fun _ => ⟨hl, (rawMem_gath ho).trans (by rw [if_pos h0, h1, h2, h3, h4])⟩

theorem layout75 {op word : Nat} (g : Guard) (a : BitVec 4) (b : BitVec 4) (f : BitVec 1) (l : BitVec 2) (e : EngOpt) (ho : op < 128)
    (hw : op * 2 ^ 25 + (g.neg.toNat * 2 ^ 24 + g.pred.toNat * 2 ^ 21) + 0 + (a.toNat * 2 ^ 17 + (b.toNat * 2 ^ 13 + (f.toNat * 2 ^ 2 + (l.toNat * 2 ^ 0 + (encOpt e + 0))))) = word) :
    word < 2 ^ 32 ∧ fld word 25 7 = op ∧ guardOf word = g ∧ fb word 17 4 = a ∧ fb word 13 4 = b ∧ fb word 2 1 = f ∧ fb word 0 2 = l ∧ optOf word = e := by
  have hb : encOpt e < 2 ^ 13 ∧ encOpt e % 8 = 0 := encOpt_lt e
  exact ⟨by omega, by unfold fld; omega, guardOf_eq (by omega) (by omega), fb_eq (by omega), fb_eq (by omega), fb_eq (by omega), fb_eq (by omega), optOf_eq (r := word / 2 ^ 13) (by omega)⟩

theorem rawMem_mcast {word : Nat} (h : fld word 25 7 = 75) :
    rawMem word = .ok (.mcast (guardOf word) (fb word 17 4) (fb word 13 4) (fb word 2 1) (fb word 0 2) (optOf word)) := by
  unfold rawMem
  rw [h]
  rfl

theorem Laws.Encoding.mcast (g : Guard) (a : BitVec 4) (b : BitVec 4) (f : BitVec 1) (l : BitVec 2) (e : EngOpt) : Laws.Encoding.Statement (.mcast g a b f l e) := by
  obtain ⟨hl, ho, h0, h1, h2, h3, h4, h5⟩ := layout75 g a b f l e (op := 75) (by decide) rfl
  exact mk_mem rfl fun _ => ⟨hl, (rawMem_mcast ho).trans (by rw [h0, h1, h2, h3, h4, h5])⟩

theorem rawMem_subs {word : Nat} (h : fld word 25 7 = 76) :
    rawMem word = if fld word 1 2 = 0 then .ok (.subs (guardOf word) (fb word 17 4) (fb word 13 4) (fb word 0 1) (optOf word)) else .error .reserved := by
  unfold rawMem
  rw [h]
  rfl

theorem Laws.Encoding.subs (g : Guard) (a : BitVec 4) (b : BitVec 4) (l : BitVec 1) (e : EngOpt) : Laws.Encoding.Statement (.subs g a b l e) := by
  obtain ⟨hl, ho, h0, h1, h2, h3, h4, h5⟩ := layout72 g a b l e (op := 76) (by decide) rfl
  exact mk_mem rfl fun _ => ⟨hl, (rawMem_subs ho).trans (by rw [if_pos h0, h1, h2, h3, h4, h5])⟩

theorem layout76 {op word : Nat} (g : Guard) (a : BitVec 4) (e : EngOpt) (ho : op < 128)
    (hw : op * 2 ^ 25 + (g.neg.toNat * 2 ^ 24 + g.pred.toNat * 2 ^ 21) + 0 + (a.toNat * 2 ^ 17 + (encOpt e + 0)) = word) :
    word < 2 ^ 32 ∧ fld word 25 7 = op ∧ (fld word 0 3 = 0 ∧ fld word 13 4 = 0) ∧ guardOf word = g ∧ fb word 17 4 = a ∧ optOf word = e := by
  have hb : encOpt e < 2 ^ 13 ∧ encOpt e % 8 = 0 := encOpt_lt e
  exact ⟨by omega, by unfold fld; omega, by unfold fld; omega, guardOf_eq (by omega) (by omega), fb_eq (by omega), optOf_eq (r := word / 2 ^ 13) (by omega)⟩

theorem rawMem_unsub {word : Nat} (h : fld word 25 7 = 77) :
    rawMem word = if fld word 0 3 = 0 ∧ fld word 13 4 = 0 then .ok (.unsub (guardOf word) (fb word 17 4) (optOf word)) else .error .reserved := by
  unfold rawMem
  rw [h]
  rfl

theorem Laws.Encoding.unsub (g : Guard) (a : BitVec 4) (e : EngOpt) : Laws.Encoding.Statement (.unsub g a e) := by
  obtain ⟨hl, ho, h0, h1, h2, h3⟩ := layout76 g a e (op := 77) (by decide) rfl
  exact mk_mem rfl fun _ => ⟨hl, (rawMem_unsub ho).trans (by rw [if_pos h0, h1, h2, h3])⟩

theorem rawMem_rfree {word : Nat} (h : fld word 25 7 = 78) :
    rawMem word = if fld word 0 3 = 0 then .ok (.rfree (guardOf word) (fb word 17 4) (fb word 13 4) (optOf word)) else .error .reserved := by
  unfold rawMem
  rw [h]
  rfl

theorem Laws.Encoding.rfree (g : Guard) (a : BitVec 4) (b : BitVec 4) (e : EngOpt) : Laws.Encoding.Statement (.rfree g a b e) := by
  obtain ⟨hl, ho, h0, h1, h2, h3, h4⟩ := layout73 g a b e (op := 78) (by decide) rfl
  exact mk_mem rfl fun _ => ⟨hl, (rawMem_rfree ho).trans (by rw [if_pos h0, h1, h2, h3, h4])⟩

theorem layout77 {op word : Nat} (g : Guard) (a : BitVec 4) (l : BitVec 1) (e : EngOpt) (ho : op < 128)
    (hw : op * 2 ^ 25 + (g.neg.toNat * 2 ^ 24 + g.pred.toNat * 2 ^ 21) + 0 + (a.toNat * 2 ^ 17 + (l.toNat * 2 ^ 0 + (encOpt e + 0))) = word) :
    word < 2 ^ 32 ∧ fld word 25 7 = op ∧ (fld word 1 2 = 0 ∧ fld word 13 4 = 0) ∧ guardOf word = g ∧ fb word 17 4 = a ∧ fb word 0 1 = l ∧ optOf word = e := by
  have hb : encOpt e < 2 ^ 13 ∧ encOpt e % 8 = 0 := encOpt_lt e
  exact ⟨by omega, by unfold fld; omega, by unfold fld; omega, guardOf_eq (by omega) (by omega), fb_eq (by omega), fb_eq (by omega), optOf_eq (r := word / 2 ^ 13) (by omega)⟩

theorem rawMem_hfetch {word : Nat} (h : fld word 25 7 = 80) :
    rawMem word = if fld word 1 2 = 0 ∧ fld word 13 4 = 0 then .ok (.hfetch (guardOf word) (fb word 17 4) (fb word 0 1) (optOf word)) else .error .reserved := by
  unfold rawMem
  rw [h]
  rfl

theorem Laws.Encoding.hfetch (g : Guard) (a : BitVec 4) (l : BitVec 1) (e : EngOpt) : Laws.Encoding.Statement (.hfetch g a l e) := by
  obtain ⟨hl, ho, h0, h1, h2, h3, h4⟩ := layout77 g a l e (op := 80) (by decide) rfl
  exact mk_mem rfl fun _ => ⟨hl, (rawMem_hfetch ho).trans (by rw [if_pos h0, h1, h2, h3, h4])⟩

theorem layout78 {op word : Nat} (g : Guard) (a : BitVec 4) (b : BitVec 4) (c : BitVec 3) (e : EngOpt) (ho : op < 128)
    (hw : op * 2 ^ 25 + (g.neg.toNat * 2 ^ 24 + g.pred.toNat * 2 ^ 21) + 0 + (a.toNat * 2 ^ 17 + (b.toNat * 2 ^ 13 + (c.toNat * 2 ^ 0 + (encOpt e + 0)))) = word) :
    word < 2 ^ 32 ∧ fld word 25 7 = op ∧ guardOf word = g ∧ fb word 17 4 = a ∧ fb word 13 4 = b ∧ fb word 0 3 = c ∧ optOf word = e := by
  have hb : encOpt e < 2 ^ 13 ∧ encOpt e % 8 = 0 := encOpt_lt e
  exact ⟨by omega, by unfold fld; omega, guardOf_eq (by omega) (by omega), fb_eq (by omega), fb_eq (by omega), fb_eq (by omega), optOf_eq (r := word / 2 ^ 13) (by omega)⟩

theorem rawMem_prosp {word : Nat} (h : fld word 25 7 = 81) :
    rawMem word = .ok (.prosp (guardOf word) (fb word 17 4) (fb word 13 4) (fb word 0 3) (optOf word)) := by
  unfold rawMem
  rw [h]
  rfl

theorem Laws.Encoding.prosp (g : Guard) (a : BitVec 4) (b : BitVec 4) (c : BitVec 3) (e : EngOpt) : Laws.Encoding.Statement (.prosp g a b c e) := by
  obtain ⟨hl, ho, h0, h1, h2, h3, h4⟩ := layout78 g a b c e (op := 81) (by decide) rfl
  exact mk_mem rfl fun _ => ⟨hl, (rawMem_prosp ho).trans (by rw [h0, h1, h2, h3, h4])⟩

theorem rawMem_hrebind {word : Nat} (h : fld word 25 7 = 82) :
    rawMem word = if fld word 0 3 = 0 then .ok (.hrebind (guardOf word) (fb word 17 4) (fb word 13 4) (optOf word)) else .error .reserved := by
  unfold rawMem
  rw [h]
  rfl

theorem Laws.Encoding.hrebind (g : Guard) (a : BitVec 4) (b : BitVec 4) (e : EngOpt) : Laws.Encoding.Statement (.hrebind g a b e) := by
  obtain ⟨hl, ho, h0, h1, h2, h3, h4⟩ := layout73 g a b e (op := 82) (by decide) rfl
  exact mk_mem rfl fun _ => ⟨hl, (rawMem_hrebind ho).trans (by rw [if_pos h0, h1, h2, h3, h4])⟩

theorem layout79 {op word : Nat} (g : Guard) (a : BitVec 4) (c : BitVec 3) (e : EngOpt) (ho : op < 128)
    (hw : op * 2 ^ 25 + (g.neg.toNat * 2 ^ 24 + g.pred.toNat * 2 ^ 21) + 0 + (a.toNat * 2 ^ 17 + (c.toNat * 2 ^ 0 + (encOpt e + 0))) = word) :
    word < 2 ^ 32 ∧ fld word 25 7 = op ∧ (fld word 13 4 = 0) ∧ guardOf word = g ∧ fb word 17 4 = a ∧ fb word 0 3 = c ∧ optOf word = e := by
  have hb : encOpt e < 2 ^ 13 ∧ encOpt e % 8 = 0 := encOpt_lt e
  exact ⟨by omega, by unfold fld; omega, by unfold fld; omega, guardOf_eq (by omega) (by omega), fb_eq (by omega), fb_eq (by omega), optOf_eq (r := word / 2 ^ 13) (by omega)⟩

theorem rawMem_decj {word : Nat} (h : fld word 25 7 = 84) :
    rawMem word = if fld word 13 4 = 0 then .ok (.decj (guardOf word) (fb word 17 4) (fb word 0 3) (optOf word)) else .error .reserved := by
  unfold rawMem
  rw [h]
  rfl

theorem Laws.Encoding.decj (g : Guard) (a : BitVec 4) (c : BitVec 3) (e : EngOpt) : Laws.Encoding.Statement (.decj g a c e) := by
  obtain ⟨hl, ho, h0, h1, h2, h3, h4⟩ := layout79 g a c e (op := 84) (by decide) rfl
  exact mk_mem rfl fun _ => ⟨hl, (rawMem_decj ho).trans (by rw [if_pos h0, h1, h2, h3, h4])⟩

theorem layout80 {op word : Nat} (g : Guard) (c : BitVec 3) (e : EngOpt) (ho : op < 128)
    (hw : op * 2 ^ 25 + (g.neg.toNat * 2 ^ 24 + g.pred.toNat * 2 ^ 21) + 0 + (c.toNat * 2 ^ 0 + (encOpt e + 0)) = word) :
    word < 2 ^ 32 ∧ fld word 25 7 = op ∧ (fld word 13 8 = 0) ∧ guardOf word = g ∧ fb word 0 3 = c ∧ optOf word = e := by
  have hb : encOpt e < 2 ^ 13 ∧ encOpt e % 8 = 0 := encOpt_lt e
  exact ⟨by omega, by unfold fld; omega, by unfold fld; omega, guardOf_eq (by omega) (by omega), fb_eq (by omega), optOf_eq (r := word / 2 ^ 13) (by omega)⟩

theorem rawMem_publish {word : Nat} (h : fld word 25 7 = 85) :
    rawMem word = if fld word 13 8 = 0 then .ok (.publish (guardOf word) (fb word 0 3) (optOf word)) else .error .reserved := by
  unfold rawMem
  rw [h]
  rfl

theorem Laws.Encoding.publish (g : Guard) (c : BitVec 3) (e : EngOpt) : Laws.Encoding.Statement (.publish g c e) := by
  obtain ⟨hl, ho, h0, h1, h2, h3⟩ := layout80 g c e (op := 85) (by decide) rfl
  exact mk_mem rfl fun _ => ⟨hl, (rawMem_publish ho).trans (by rw [if_pos h0, h1, h2, h3])⟩

theorem Laws.Encoding.trapEntry (c : Fin 256) : Laws.Encoding.Statement (.trapEntry c) := fun _ h => nomatch h

theorem Laws.Encoding.sleepWake (c : Fin 256) : Laws.Encoding.Statement (.sleepWake c) := fun _ h => nomatch h

theorem Laws.Encoding.landingArrival (m : Nat) : Laws.Encoding.Statement (.landingArrival m) := fun _ h => nomatch h

theorem Laws.Encoding.landingWatchdog (c : Fin 256) : Laws.Encoding.Statement (.landingWatchdog c) := fun _ h => nomatch h

theorem Laws.Encoding.handleFill (c : Fin 256) : Laws.Encoding.Statement (.handleFill c) := fun _ h => nomatch h

theorem Laws.Encoding.handleFillTimeout (c : Fin 256) : Laws.Encoding.Statement (.handleFillTimeout c) := fun _ h => nomatch h

theorem Laws.Encoding.engineCommandStart (c : Fin 256) (q : Fin 3) : Laws.Encoding.Statement (.engineCommandStart c q) := fun _ h => nomatch h

theorem Laws.Encoding.engineCommandComplete (c : Fin 256) (q : Fin 3) (n : Nat) : Laws.Encoding.Statement (.engineCommandComplete c q n) := fun _ h => nomatch h

theorem Laws.Encoding.aTileConsumed (c : Fin 256) (n : Nat) : Laws.Encoding.Statement (.aTileConsumed c n) := fun _ h => nomatch h

theorem Laws.Encoding.faceLeaseGrant (f : Fin 64) : Laws.Encoding.Statement (.faceLeaseGrant f) := fun _ h => nomatch h

theorem Laws.Encoding.leaseExpiry (f : Fin 64) : Laws.Encoding.Statement (.leaseExpiry f) := fun _ h => nomatch h

theorem Laws.Encoding.leaseEnd (f : Fin 64) : Laws.Encoding.Statement (.leaseEnd f) := fun _ h => nomatch h

theorem Laws.Encoding.semaphoreIncrement (m : Nat) : Laws.Encoding.Statement (.semaphoreIncrement m) := fun _ h => nomatch h

theorem Laws.Encoding.semaphoreDecrementGrant (d : Fin 4) (f : Fin 4096) : Laws.Encoding.Statement (.semaphoreDecrementGrant d f) := fun _ h => nomatch h

theorem Laws.Encoding.tokenQueuePush (m : Nat) : Laws.Encoding.Statement (.tokenQueuePush m) := fun _ h => nomatch h

theorem Laws.Encoding.tokenQueuePop (m : Nat) : Laws.Encoding.Statement (.tokenQueuePop m) := fun _ h => nomatch h

theorem Laws.Encoding.barrierArrival (m : Nat) : Laws.Encoding.Statement (.barrierArrival m) := fun _ h => nomatch h

theorem Laws.Encoding.barrierResume (m : Nat) : Laws.Encoding.Statement (.barrierResume m) := fun _ h => nomatch h

theorem Laws.Encoding.gangFuse (k : Fin 64) (mask : BitVec 4) : Laws.Encoding.Statement (.gangFuse k mask) := fun _ h => nomatch h

theorem Laws.Encoding.gangTimeout (c : Fin 256) : Laws.Encoding.Statement (.gangTimeout c) := fun _ h => nomatch h

theorem Laws.Encoding.gangRejoin (k : Fin 64) : Laws.Encoding.Statement (.gangRejoin k) := fun _ h => nomatch h

theorem Laws.Encoding.ratomStep (m : Nat) : Laws.Encoding.Statement (.ratomStep m) := fun _ h => nomatch h

theorem Laws.Encoding.remoteTagProbe (m : Nat) : Laws.Encoding.Statement (.remoteTagProbe m) := fun _ h => nomatch h

theorem Laws.Encoding.futureFillApply (m : Nat) : Laws.Encoding.Statement (.futureFillApply m) := fun _ h => nomatch h

theorem Laws.Encoding.futfillAnswer (m : Nat) : Laws.Encoding.Statement (.futfillAnswer m) := fun _ h => nomatch h

theorem Laws.Encoding.fetchRequest (m : Nat) : Laws.Encoding.Statement (.fetchRequest m) := fun _ h => nomatch h

theorem Laws.Encoding.fetchQueueServe (d : Fin 4) : Laws.Encoding.Statement (.fetchQueueServe d) := fun _ h => nomatch h

theorem Laws.Encoding.stagingFetchComplete (x : Fin 64) (slot : Nat) : Laws.Encoding.Statement (.stagingFetchComplete x slot) := fun _ h => nomatch h

theorem Laws.Encoding.prospectorSelection (d : Fin 4) : Laws.Encoding.Statement (.prospectorSelection d) := fun _ h => nomatch h

theorem Laws.Encoding.hrebindApply (m : Nat) : Laws.Encoding.Statement (.hrebindApply m) := fun _ h => nomatch h

theorem Laws.Encoding.segmentCopyLand (c : Fin 256) : Laws.Encoding.Statement (.segmentCopyLand c) := fun _ h => nomatch h

theorem Laws.Encoding.packetPlace (c : Fin 256) (n : Nat) : Laws.Encoding.Statement (.packetPlace c n) := fun _ h => nomatch h

theorem Laws.Encoding.listRecordReread (c : Fin 256) (n : Nat) : Laws.Encoding.Statement (.listRecordReread c n) := fun _ h => nomatch h

theorem Laws.Encoding.decodeJobAccept (c : Fin 256) : Laws.Encoding.Statement (.decodeJobAccept c) := fun _ h => nomatch h

theorem Laws.Encoding.decodeChunkFinish (u : Fin 2) : Laws.Encoding.Statement (.decodeChunkFinish u) := fun _ h => nomatch h

theorem Laws.Encoding.decodeJobComplete (u : Fin 2) : Laws.Encoding.Statement (.decodeJobComplete u) := fun _ h => nomatch h

theorem Laws.Encoding.hostFlushReadComplete (m : Nat) : Laws.Encoding.Statement (.hostFlushReadComplete m) := fun _ h => nomatch h

theorem Laws.Encoding.netAckReceive (m : Nat) : Laws.Encoding.Statement (.netAckReceive m) := fun _ h => nomatch h

theorem Laws.Encoding.netPacketReceive (x : Fin 64) (window : Fin 64) (offset : Nat) (bytes : List (BitVec 8)) : Laws.Encoding.Statement (.netPacketReceive x window offset bytes) := fun _ h => nomatch h

theorem Laws.Encoding.powerOnReset : Laws.Encoding.Statement (.powerOnReset) := fun _ h => nomatch h

theorem Laws.Encoding.winderFrame : Laws.Encoding.Statement (.winderFrame) := fun _ h => nomatch h

theorem Laws.Encoding.start (c : Fin 256) : Laws.Encoding.Statement (.start c) := fun _ h => nomatch h

theorem Laws.Encoding.resume (c : Fin 256) : Laws.Encoding.Statement (.resume c) := fun _ h => nomatch h

theorem Laws.Encoding.preempt (c : Fin 256) : Laws.Encoding.Statement (.preempt c) := fun _ h => nomatch h

theorem Laws.Encoding.preemptHonour (c : Fin 256) : Laws.Encoding.Statement (.preemptHonour c) := fun _ h => nomatch h

theorem Laws.Encoding.clusterClockGate (k : Fin 64) : Laws.Encoding.Statement (.clusterClockGate k) := fun _ h => nomatch h

theorem Laws.Encoding.clusterClockWake (k : Fin 64) : Laws.Encoding.Statement (.clusterClockWake k) := fun _ h => nomatch h

theorem Laws.Encoding.retainWakeHandshake (k : Fin 64) : Laws.Encoding.Statement (.retainWakeHandshake k) := fun _ h => nomatch h

theorem Laws.Encoding.thermalStepChange (d : Fin 4) (v : BitVec 2) : Laws.Encoding.Statement (.thermalStepChange d v) := fun _ h => nomatch h

theorem Laws.Encoding.countingWindowBoundary : Laws.Encoding.Statement (.countingWindowBoundary) := fun _ h => nomatch h

theorem Laws.Encoding.repairStepStart (stack : Fin 12) (pch : Fin 32) (res : Fin 3) (unit : Nat) (len : Nat) : Laws.Encoding.Statement (.repairStepStart stack pch res unit len) := fun _ h => nomatch h

theorem Laws.Encoding.repairStepEnd (stack : Fin 12) (pch : Fin 32) : Laws.Encoding.Statement (.repairStepEnd stack pch) := fun _ h => nomatch h

theorem Laws.Encoding.retirementCut (x : Fin 64) (va : BitVec 40) (res : BitVec 2) (stack : Fin 12) (finder : Nat) : Laws.Encoding.Statement (.retirementCut x va res stack finder) := fun _ h => nomatch h

theorem Laws.Encoding.retirementReport (x : Fin 64) : Laws.Encoding.Statement (.retirementReport x) := fun _ h => nomatch h

theorem Laws.Encoding.targetedTestStart (u : Fin 320) : Laws.Encoding.Statement (.targetedTestStart u) := fun _ h => nomatch h

theorem Laws.Encoding.targetedTestEnd (u : Fin 320) (pass : BitVec 1) : Laws.Encoding.Statement (.targetedTestEnd u pass) := fun _ h => nomatch h

theorem Laws.Encoding.clusterFence (k : Fin 64) : Laws.Encoding.Statement (.clusterFence k) := fun _ h => nomatch h

theorem Laws.Encoding.launch (q : Fin 1024) : Laws.Encoding.Statement (.launch q) := fun _ h => nomatch h

theorem Laws.Encoding.post (q : Fin 1024) : Laws.Encoding.Statement (.post q) := fun _ h => nomatch h

theorem Laws.Encoding.install (q : Fin 1024) : Laws.Encoding.Statement (.install q) := fun _ h => nomatch h

theorem Laws.Encoding.uninstall (q : Fin 1024) : Laws.Encoding.Statement (.uninstall q) := fun _ h => nomatch h

theorem Laws.Encoding.release (q : Fin 1024) : Laws.Encoding.Statement (.release q) := fun _ h => nomatch h

theorem Laws.Encoding.attest (q : Fin 1024) : Laws.Encoding.Statement (.attest q) := fun _ h => nomatch h

theorem Laws.Encoding.contextCreate (q : Fin 1024) : Laws.Encoding.Statement (.contextCreate q) := fun _ h => nomatch h

theorem Laws.Encoding.contextDestroy (q : Fin 1024) : Laws.Encoding.Statement (.contextDestroy q) := fun _ h => nomatch h

theorem Laws.Encoding.window (q : Fin 1024) : Laws.Encoding.Statement (.window q) := fun _ h => nomatch h

theorem Laws.Encoding.kill (q : Fin 1024) : Laws.Encoding.Statement (.kill q) := fun _ h => nomatch h

theorem Laws.Encoding.map (q : Fin 1024) : Laws.Encoding.Statement (.map q) := fun _ h => nomatch h

theorem Laws.Encoding.unmap (q : Fin 1024) : Laws.Encoding.Statement (.unmap q) := fun _ h => nomatch h

theorem Laws.Encoding.xferToDevice (q : Fin 1024) : Laws.Encoding.Statement (.xferToDevice q) := fun _ h => nomatch h

theorem Laws.Encoding.xferToHost (q : Fin 1024) : Laws.Encoding.Statement (.xferToHost q) := fun _ h => nomatch h

theorem Laws.Encoding.badkindEntry (q : Fin 1024) : Laws.Encoding.Statement (.badkindEntry q) := fun _ h => nomatch h

theorem Laws.Encoding.doorbell (src : Nat) (q : Fin 1024) (v : BitVec 64) : Laws.Encoding.Statement (.doorbell src q v) := fun _ h => nomatch h

theorem Laws.Encoding.taskRegister (src : Nat) (d : Fin 4) (l : Fin 256) (v : BitVec 64) : Laws.Encoding.Statement (.taskRegister src d l v) := fun _ h => nomatch h

theorem Laws.Encoding.clusterWakeRegister (src : Nat) (k : Fin 64) (v : BitVec 64) : Laws.Encoding.Statement (.clusterWakeRegister src k v) := fun _ h => nomatch h

theorem Laws.Encoding.winshift (v : BitVec 64) : Laws.Encoding.Statement (.winshift v) := fun _ h => nomatch h

theorem Laws.Encoding.wakeerr (v : BitVec 64) : Laws.Encoding.Statement (.wakeerr v) := fun _ h => nomatch h

theorem Laws.Encoding.registerWrite (src : Nat) (bar : Nat) (offset : Nat) (bytes : List (BitVec 8)) : Laws.Encoding.Statement (.registerWrite src bar offset bytes) := fun _ h => nomatch h

theorem Laws.Encoding.signTableReadArrival (c : Fin 256) : Laws.Encoding.Statement (.signTableReadArrival c) := fun _ h => nomatch h

theorem Laws.Encoding.readDisturbRefresh (stack : Fin 8) (bad : BitVec 1) : Laws.Encoding.Statement (.readDisturbRefresh stack bad) := fun _ h => nomatch h

theorem Laws.Encoding.wearLevelling (stack : Fin 8) (meanPe : BitVec 32) (maxPe : BitVec 32) (bad : Nat) : Laws.Encoding.Statement (.wearLevelling stack meanPe maxPe bad) := fun _ h => nomatch h

theorem Laws.Encoding.throttleThresholdCrossing (d : Fin 4) (hot : BitVec 1) : Laws.Encoding.Statement (.throttleThresholdCrossing d hot) := fun _ h => nomatch h

end Sys2Proof
end

