-- ==== Sys2Proof/Tests/Slice0.lean ====
section
/-! SUPPORT. Tests: words of the spec's examples, ill-formed terms, single steps, and for every statement a state and operands that meet
its hypotheses together. -/

namespace Sys2Proof.Tests

open Sys2Proof Sys2Proof.Machine Sys2Proof.Spec

set_option maxRecDepth 100000

-- One theorem at a time: a long kernel evaluation would make the theorems after it wait, each on a thread with a stack of its own.
set_option Elab.async false

/-! ### States -/

/-- A core that runs in system mode at bundle 7 with traps enabled; register n holds 10 n. -/
def tCore : Core := { Core.reset with
  seq := { Core.reset.seq with mode := .running, pc := 7 }
  sys := { Core.reset.sys with tvec := 0x401 }
  regs := { Core.reset.regs with s := Vector.ofFn fun i => BitVec.ofNat 64 (10 * i.val) } }

/-- The package with one core, core 0, in a given state. -/
def tOn (k : Core) : State := { State.reset with cores := State.reset.cores.set 0 k }

/-- The running core alone. -/
def tS : State := tOn tCore

theorem ready_t : tS.ready always := ⟨rfl, by decide, rfl, rfl, rfl, rfl, rfl, by decide⟩
theorem calm_t : Calm tS.me := ⟨rfl, rfl, rfl, rfl, rfl, rfl, rfl, by decide⟩

/-- In user mode. -/
def tUser : State := tOn { tCore with sys := { tCore.sys with mode := false } }

/-- In a loop whose last bundle is the current one, with queue 0 holding 5, queue 1 full, queue 7 holding a promise. -/
def tLoop (i : BitVec 32) (fin : BitVec 13) : Core := { tCore with
  seq := { tCore.seq with loops := [{ start := 5, fin := fin, count := 3, index := i }] }
  regs := { tCore.regs with q := Vector.ofFn fun n =>
    if n = 0 then [{ id := 0, val := some 5 }] else if n = 1 then [{ id := 1 }, { id := 2 }, { id := 3 }, { id := 4 }]
    else if n = 7 then [{ id := 5, val := some 900, tag := some 3 }] else [] } }

theorem ready_l : (tOn (tLoop 2 7)).ready always := ⟨rfl, by decide, rfl, rfl, rfl, rfl, rfl, by decide⟩

/-- A kernel image of one segment, for the upper half of the instruction memory. -/
def tImage : List Byte := (List.range 0x140).map fun i =>
  if i = 6 then 2 else if i = 0x13 then 1 else if i = 0x1D then 1 else if i = 0x104 then 2 else if i = 0x106 then 1 else 0

/-- A launch of context 0 on core 0. -/
def tLaunch : Launch :=
  { ctx := 0, cores := 1, home := 0, image := tImage, wdie := 0, fbase := 8, wflag := 4, tqbase := 2, wtq := 2, groups := [5],
    srkey := 0, reserve := 0, quota := 2, tvec := 0x401, bindings := [], declared := [], imageAt := ⟨0, 0⟩, kept := [], tag := 0, irq := false, queue := 0, recfaults := 0 }

/-- The record that core 0 runs. -/
def tRun : RunRec :=
  { launch := 3, ctx := 0, ker := 9, epi := 12, trip := 4, tgrp := 0, prio := 1, record := 0, maxiter := 0x4000000 }

/-- The package with the launch, and one core that runs its record. -/
def tRunning (k : Core) : State := { tOn { k with run := some tRun } with launches := [(3, tLaunch)] }

theorem ready_r : (tRunning tCore).ready always := ⟨rfl, by decide, rfl, rfl, rfl, by decide, rfl, by decide⟩

/-- About to take a guarded-off instruction into effect. -/
def tOff : State := { tOn tCore with latch := { phase := .apply } }

/-- In a handler, entered from bundle 5 in user mode. -/
def tHandler : State := tOn { tCore with sys := { tCore.sys with mode := true, epc := 0x800005 } }

theorem ready_h : tHandler.ready always := ⟨rfl, by decide, rfl, rfl, rfl, rfl, rfl, by decide⟩

/-- A trap request. -/
def tReq (c : Cause) : TrapReq := { trap := { cause := c, tval := 77 }, kind := .i, slot := 2 }

/-- A handle entry: base, length, space, kind, state, bank or core. -/
def tEnt (base len space kind state bank : Nat) : BitVec 256 :=
  BitVec.ofNat 256 (base + len * 2 ^ 64 + space * 2 ^ 128 + kind * 2 ^ 132 + state * 2 ^ 136 + 3 * 2 ^ 174 + bank * 2 ^ 200)

/-- Handles 5 (LOCAL, 64 bytes of bank 2), 6 (REMOTE, core 9), 7 (LOCAL, poisoned bytes), 8 (HBM), all cached. -/
def tMem : Core := { tCore with sto := { tCore.sto with
  hcache := [(5, tEnt 0x100 0x40 1 0 2 2), (6, tEnt 0 0x40 4 0 2 9), (7, tEnt 0x200 0x40 1 0 2 2), (8, tEnt 0 0x40 2 0 2 0)]
  spad := [(0x60100, 7)], poison := [0x60200 / 32]
  tags := Vector.ofFn fun n => if n = 9 then ⟨true, 1, 4, 20⟩ else {} } }

theorem ready_m : (tOn tMem).ready always := ⟨rfl, by decide, rfl, rfl, rfl, rfl, rfl, by decide⟩
theorem ready_m1 : (tOn tMem).ready always 1 := ⟨rfl, by decide, rfl, rfl, rfl, rfl, rfl, by decide⟩
theorem calm_m : Calm (tOn tMem).me := ⟨rfl, rfl, rfl, rfl, rfl, rfl, rfl, by decide⟩

theorem inv_m : (tOn tMem).inv := ⟨by decide +kernel, by decide⟩

/-- A tensor map of 16 columns of 4 bytes and one row, over handle 5. -/
def tMap : BitVec 512 := BitVec.ofNat 512
  (5 + 16 * 2 ^ 96 + 4 * 2 ^ 136 + 1 * 2 ^ 176 + 64 * 2 ^ 216 + 2 ^ 256 + 2 ^ 336 + 2 ^ 416)

/-- One row of 16 elements of 32 bits; v1 and v2 hold small numbers, v3 is rotated under sign mask 7; k1 is odd elements; map 2 is
one row of 16 INT8 elements over the same handle. -/
def tVec : Core := { tMem with vec := { tMem.vec with
  vshape := 0xC00801
  v := Vector.ofFn fun n => if n = 1 then { bits := 0x000000030000000240000000#65536 } else if n = 2 then { bits := 0xFFFFFFFF3F8000003F800000#65536 }
    else if n = 3 then { bits := 5, tag := ⟨1, 7⟩ } else {}
  k := Vector.ofFn fun n => if n = 1 then 0xAAAA else 0
  tm := Vector.ofFn fun n => if n = 1 then tMap else if n = 2 then tMap - 3 * 2 ^ 136 + 2 ^ 8 else 0
  sg := Vector.ofFn fun n => if n = 0 then BitVec.ofNat 144 (7 * 2 ^ 128 + 0xF0) else 0 } }

theorem ready_v : (tOn tVec).ready always := ⟨rfl, by decide, rfl, rfl, rfl, rfl, rfl, by decide⟩
theorem ready_v1 : (tOn tVec).ready always 1 := ⟨rfl, by decide, rfl, rfl, rfl, rfl, rfl, by decide⟩
theorem calm_v : Calm (tOn tVec).me := ⟨rfl, rfl, rfl, rfl, rfl, rfl, rfl, by decide⟩
theorem inv_v : (tOn tVec).inv := ⟨by decide +kernel, by decide⟩

/-- Registers 1 to 6 name handles: 5 a task record in LOCAL, 9 a filled future, 10 a future, 11 a sign table in LOCAL, 12 one in HBM, 13
weights; the window holds 4 flags and 2 token queues; group 5 stands in slot 0; the gang is a parameter. -/
def tSync (gang : Nat) (w : List SlotWait) : Core := { tCore with
  seq := { tCore.seq with wait := w, entryRegion := true }
  regs := { tCore.regs with s := Vector.ofFn fun i => ([0, 5, 9, 10, 11, 12, 13, 1].getD i.val 0 : Nat) }
  sys := { tCore.sys with syncwin := BitVec.ofNat 64 (4 + 8 * 2 ^ 8 + 2 * 2 ^ 20 + 2 * 2 ^ 28), role := BitVec.ofNat 64 (5 + 2 ^ 32 + gang * 2 ^ 36) }
  sto := { tCore.sto with
    hcache := [(5, tEnt 0x100 0x40 1 0 2 2), (9, tEnt 0 0x40 1 1 2 2), (10, tEnt 0 0x40 1 1 1 2), (11, tEnt 0x300 0x80 1 3 2 2),
      (12, tEnt 0x300 0x80 2 3 2 2), (13, tEnt 0x300 0x80 2 2 2 0)]
    spad := [(0x60104, 1), (0x6010E, 1), (0x60330, 1), (0x60332, 1)] } }

/-- The package with that core in the running launch and its group. -/
def tGroup (gang : Nat) (w : List SlotWait) : State := { tRunning (tSync gang w) with groups := [(5, { ctx := 0, members := 3 })] }

theorem ready_g (gang : Nat) (w : List SlotWait) : (tGroup gang w).ready always :=
  ⟨rfl, show 0 < 8 by decide, rfl, rfl, rfl, rfl, rfl, show 0 ≤ 16 by decide⟩
theorem flags_g (gang : Nat) (w : List SlotWait) : FlagReady (tGroup gang w) always := ⟨ready_g gang w, rfl, rfl⟩
theorem flags_g1 (gang : Nat) (w : List SlotWait) : FlagReady (tGroup gang w) always 1 :=
  ⟨⟨rfl, show 0 < 8 by decide, rfl, rfl, rfl, rfl, rfl, show 1 ≤ 16 by decide⟩, rfl, rfl⟩

/-- Without a launch, the core of tSync; and with one flag of its window overflowed. -/
def tSign (w : List SlotWait) : State := tOn (tSync 0 w)
theorem ready_sg (w : List SlotWait) : (tSign w).ready always := ⟨rfl, show 0 < 8 by decide, rfl, rfl, rfl, rfl, rfl, show 0 ≤ 16 by decide⟩
def tOver : State := { tGroup 0 [] with dies := State.reset.dies.set 0 { Die.reset with sems := [(8, ⟨7, true⟩)] } }

/-- In a loop of two stages. -/
def tReplay : State := tOn { tCore with seq := { tCore.seq with loops := [{ start := 5, fin := 9, count := 3, index := 1, stages := 2 }] } }

theorem ready_rp : tReplay.ready always := ⟨rfl, by decide, rfl, rfl, rfl, rfl, rfl, by decide⟩

/-- A map of two rows of 16 elements over handle n: its format, its gather bit and its row stride. -/
def tRows (n fmt gather : Nat) : BitVec 512 := BitVec.ofNat 512
  (n + fmt * 2 ^ 8 + gather * 2 ^ 40 + 16 * 2 ^ 96 + 2 ^ 136 + 2 * 2 ^ 176 + 32 * 2 ^ 216 + 2 ^ 256 + 2 ^ 336 + 2 * 2 ^ 416)

/-- Handles 14 (LOCAL) and 15 (HBM), RAW, behind maps 1 to 6, and handle 16 (HBM), FP32, behind map 7; plane 0 holds INT8 weights of context 0. -/
def tCmd : State := { tGroup 0 [] with
  faces := State.reset.faces.set 0 { Face.reset with planes := #v[{ valid := true, info := { fmt := 1 } }, {}] }
  cores := State.reset.cores.set 0 { tSync 0 [] with
    run := some tRun
    regs := { tCore.regs with s := Vector.ofFn fun i =>
      ([0, 0, 0, 0, 0, 0, 0, 0, 14, 64, 64 + 2 * 2 ^ 23, 15 * 2 ^ 38, 15].getD i.val 0 : Nat) }
    vec := { tCore.vec with tm := #v[0, tRows 14 1 0, tRows 15 1 0, tRows 15 1 0, tRows 15 1 1, tRows 14 0x10 0, tRows 14 0 0, tRows 16 0x10 0, 0, 0, 0, 0, 0, 0, 0, 0] }
    sto := { tCore.sto with hcache := [(0, 0), (14, tEnt 0x100 0x440 1 0 2 2), (15, tEnt 0 0x400 2 0 2 0), (16, tEnt 0 0x400 2 0 2 0 ||| 0x10 <<< 160)] } } }

theorem ready_c : tCmd.ready always := ⟨rfl, by decide, rfl, rfl, rfl, rfl, rfl, by decide⟩

/-- A message on its way under number 3. -/
def tMsg (b : MsgBody) : State := { tOn tCore with msgs := [⟨3, 0, b⟩], nextMsg := 4 }

/-- Core 0 in a mode, long after. -/
def tMode (m : RunMode) : State := { tOn { tCore with seq := { tCore.seq with mode := m } } with clock := 0x20000 }

/-- A context whose handle table holds the future 10 and sixteen bytes of LOCAL data under handle 5. -/
def tCtx : Ctx := { newCtx [] false with handles := [(5, tEnt 0x100 0x40 1 0 2 2), (10, tEnt 0 0x40 1 1 0 0)] }

/-- A command numbered 4 of context 0, of a queue and with an opcode. -/
def tCommand (q : Nat) (op : BitVec 7) : Cmd :=
  { id := 4, op := op, pc := 7, slot := 2, queue := q, tpp := false, tpn := false, thp := false, thn := false, acq := none, rel := none,
    scope := 0, cf := 0, rq := none, after := 0, afterSys := 0, remote := 0, ctx := 0, launch := 3, cap := {} }

/-- Asleep in a handler until its promise, which is over, and still in queue 1. -/
def tAsleep : State := { tOn { tCore with
  seq := { tCore.seq with mode := .asleep 0x1FFF9 (some 4) }
  sys := { tCore.sys with epc := 0x800005 }
  eng := { tCore.eng with queues := #v[[], [tCommand 1 0x40], []] } } with clock := 0x20000 }

/-- The copy of segment 0 of the running image is due. -/
def tSeg : State := { tRunning { tCore with sto := { tCore.sto with seg := { tCore.sto.seg with copy := some (0, 1, 50) } } } with clock := 60 }

/-- At least as many frames are left as are free among the first 16. -/
theorem frames_free (s : State) (n : Nat) (h : n ≤ ((List.range 16).filter s.frameFree).length) : n ≤ s.framesLeft :=
  Nat.le_trans h ((List.range_sublist.mpr (show 16 ≤ frameCount by decide)).filter _).length_le

/-- No repair step runs in a package whose stacks are as after reset. -/
theorem rows_free (s : State) (h : s.hbmStacks = Vector.replicate 12 {}) (r : Nat) : s.rowStalled r = false := by
  simp [State.rowStalled, h, Table.get]

/-- Core 0 runs a record of context 0 whose pages 0 to 2 MiB are mapped, with a command in queue q, at cycle 5,000. -/
def tMapped : Ctx := { tCtx with
  handles := tCtx.handles ++ [(13, tEnt 0 0x40 0 2 0 0)], l1 := [(0, 1)], l2 := [(0, 10485763), (3, 14680067)]
  slots := [{ state := .inflight, page := 3, due := some 4, len := 4 }, {}]
  models := [{ id := 9, digest := [], objs := [⟨3, 0x40, 0, 0, 3, {}⟩, ⟨4, 0x40, 0, 0, 3, {}⟩], lastUse := 0 }]
  netWin := [(2, { w := true, base := 0, len := 0x100, rx := 0x40, peer := 7 })] }
def tQueue (q : Fin 3) (x : Cmd) : State := { tOn { tCore with
  run := some tRun, eng := { tCore.eng with queues := (Vector.replicate 3 []).set q [x] } } with clock := 5000, ctxs := [(0, tMapped)] }
def tLeased (x : Cmd) : State := { tQueue 1 x with
  faces := State.reset.faces.set 0 { Face.reset with lease := some { k := 0, mask := 1, left := 9, expiry := 9000 } } }

/-- HREBIND of handle h to page 4. -/
def tHome (h : Nat) : Cmd := { tCommand 2 0x52 with cap := { ha := ⟨h, 0⟩, x := 4 } }
/-- PUBLISH of version 1, and a packet sent. -/
def tPublish : Cmd := { tCommand 2 0x55 with prog := { outcome := 1 } }
def tSent : Cmd := { tCommand 0 0x4B with prog := { consumed := true } }

/-- The one command of queue 0 is the one with its number. -/
theorem now_q0 (x : Cmd) (q : Nat) : now ((tQueue 0 x).core 0) q x.id fun y => y = x := by
  intro y hy _
  match q, hy with
  | 0, hy => exact List.mem_singleton.mp hy
  | 1, hy => cases hy
  | 2, hy => cases hy
  | n + 3, hy => exact absurd (show y ∈ [] from hy) (by simp)

/-- A started command that is due. -/
def tDue (q : Nat) (op : BitVec 7) : Cmd := { tCommand q op with prog := { start := some 1, due := some 40 } }

/-- A subscription to two tiles of 64 bytes behind map 2, into the ring of handle 14. -/
def tSub (list ready : Bool) : Sub :=
  { id := 1, ring := ⟨14, tEnt 0x100 0x440 1 0 2 2⟩, unl := 0, list := list, next := 0, stream := 6, seq0 := 0, wrtot := 0, freetot := 0,
    suspended := false, endReq := false, logged := [], at_ := 0, ready := ready
    cmd := { tCommand 0 0x4C with cap := { ma := tRows 14 1 0, mb := tRows 15 1 0, ha := ⟨14, tEnt 0x100 0x440 1 0 2 2⟩
                                           hb := ⟨15, tEnt 0 0x400 2 0 2 0⟩, fa := { code := 1 }, fb := { code := 1 } } } }
def tStream (list ready : Bool) : State := tOn { tCore with run := some tRun, eng := { tCore.eng with subs := [tSub list ready] } }

/-- The first 2 MiB of context 0's address space lie in frame 5. -/
theorem map_m (x : Ctx) (h1 : x.l1 = [(0, 1)]) (h2 : x.l2 = [(0, 10485763), (3, 14680067)]) (i : Nat) (hi : i < 2 ^ 21) (w : Bool) :
    x.translate i w = .ok (5 * 2 ^ 21 + i) := by
  have a : i / 2 ^ 30 = 0 := by omega
  have b : i / 2 ^ 21 % 512 = 0 := by omega
  have c : i % 2 ^ 21 = i := by omega
  have e1 : ((Table.get [((0 : Nat), (1 : BitVec 64))] 0).getD 0).toNat = 1 := rfl
  have e2 : ((Table.get [((0 : Nat), (10485763 : BitVec 64)), (3, 14680067)] (1 / 2 ^ 12 * 512 + 0)).getD 0).toNat = 10485763 := rfl
  simp only [Ctx.translate, h1, h2, a, b, c, e1, e2]
  rw [if_neg (by omega), if_neg (by decide), if_neg (by decide), if_neg (by decide), if_neg (by simp)]
  all_goals rfl

theorem ok_of {ε α : Type} (r : Except ε α) (h : (match r with | .ok _ => true | .error _ => false) = true) : ∃ y, r = .ok y := by
  cases r with
  | ok y => exact ⟨y, rfl⟩
  | error _ => cases h

theorem is_of {ε α : Type} [DecidableEq α] (r : Except ε α) (y : α) (h : (match r with | .ok z => decide (z = y) | .error _ => false) = true) :
    r = .ok y := by
  cases r with
  | ok z => exact congrArg _ (of_decide_eq_true h)
  | error _ => cases h

/-- The same segment, its kernel image in HBM. -/
def tSegHbm : State := { tSeg with ctxs := [(0, tMapped)], launches := [(3, { tLaunch with imageAt := ⟨14, tEnt 0x100 0x440 2 0 2 0⟩ })] }

theorem tSeg_read : ∃ y, tSegHbm.hbmRead 0 (Ent.base (tEnt 0x100 0x440 2 0 2 0) + 0) (32 * 2) = .ok y := ok_of _ (by decide +kernel)

theorem places_m (x : Ctx) (h1 : x.l1 = [(0, 1)]) (h2 : x.l2 = [(0, 10485763), (3, 14680067)]) (va n : Nat) (h : va + n ≤ 2 ^ 21) (w : Bool) :
    Places x va n w fun i => 5 * 2 ^ 21 + (va + i) :=
  ⟨fun i hi => map_m x h1 h2 _ (by omega) w, fun i j _ _ e => by dsimp only at e; omega⟩

/-- One cluster in a power state, at cycle 5,000, its STAY bit as given. -/
def tPower (p : Power) (stay : BitVec 64) : State := { tOn Core.reset with power := State.reset.power.set 0 p, clock := 5000, stay := stay }

/-- A core of suspicion 70 whose test is scheduled, or runs since a cycle; a die with one ready record, and one bind record. -/
def tSuspect (testing : Option Nat) : State := tOn { Core.reset with suspicion := 70, testDue := testing.isNone, testing := testing }
def tRec : TaskRec := { id := 2, record := 0, launch := 3, prio := 1, state := .ready }
def tReady (bs : List Bind) (ts : List TaskRec) (clock : Nat) : State := { tOn Core.reset with
  clock := clock, dies := State.reset.dies.set 0 { Die.reset with binds := bs, tasks := ts }
  launches := [(3, tLaunch)], ctxs := [(0, tMapped)] }

/-- With the retirement of a page to report. -/
def tRetired : Retired := { cyc := 9, va := 0, res := 0, stack := 0, core := 0, unit := 0, pc := 0, at_ := 20 }
def tWorn : Ctx := { tMapped with retired := [tRetired] }

/-- The digest of the kernel image below, by an implementation of SHA-512 outside this package. Read as a number it is the x coordinate
of a point of P-521, so it is its own signature, (r, s) = (digest, digest), under the key that is that point less the base point. -/
def tDigest : Nat :=
  0x26461FF3860E626317B590CABC628B50F78E90B2E86FFD041E089A38B6589C7B7546C4901400BC737F772B9A8DD6803261E5AC5805431C9FD4BC5ED3C20DAB5F
def tKey : List Byte := 4 :: (natBe 66
  0x1383BF3502C4727647A7261CA9407B39CE8E6169D44D1F463F5ADF489D26340820C9FAF7046C9AAAE883472BDE658C50F0BB5D7AF10BA93FB04C13062C691D82A55
  ++ natBe 66
  0x35A834E798DA71045F829577AF4A8E2FCC49B7E63C583B2AB6B736EAF61B6099BD9D67CB3D2A8BC09C8F965745780D8CDC3B50B497247D57AE61188A29391D8724)

/-- A kernel image of two empty bundles, with one flag and one group. -/
def tKernel : List Byte :=
  natLe 0x3C (0x4B48524B + 2 ^ 32 + 2 * 2 ^ 48 + 2 ^ 112 + 2 ^ 128 + 2 ^ 160 + 0x140 * 2 ^ 192 + 0x240 * 2 ^ 384) ++
    natBe 64 tDigest ++ natBe 66 tDigest ++ natBe 66 tDigest ++ List.replicate 0x140 0

/-- The descriptor of a context: two queues from q, 16 semaphores, 4 token queues, 2 slots of 2 MiB, areas at pages 16 to 21; a
key and the bytes of its flash region. -/
def tDesc (n q : Nat) (key : List Byte := tKey) (room : Nat := 0) : List Byte :=
  natLe 0x40 (n + 2 ^ 8 + q * 2 ^ 32 + 2 * 2 ^ 48 + 64 * 2 ^ 128 + 16 * 2 ^ 256 + 4 * 2 ^ 272 + 2 * 2 ^ 288 + 2 ^ 341 + room * 2 ^ 384 + 2 ^ 473) ++ key ++
    natLe 59 (2 ^ 49 + 17 * 2 ^ 109 + 18 * 2 ^ 173 + 20 * 2 ^ 237)

/-- The cells of a memory that holds bytes from an address, the zeros among them unlisted. -/
def tCells (a : Nat) (bs : List Byte) : Memory := (bs.zipIdx.filter fun b => b.1 ≠ 0).map fun b => (a + b.2, b.1)

/-- That context; and with the kernel image in HBM behind handle 20. -/
def tHome0 : Ctx := { tMapped with desc := tDesc 0 0 }
def tHome1 : Ctx := { tHome0 with handles := [(20, tEnt 0x1000 0x240 2 0 2 0)] }

/-- A valid task record, and two launch records: the second without a quota. -/
def tRecord : Nat := 2 ^ 32 + 2 ^ 112
def tLaunch0 : Nat := 20 + 2 ^ 16 + 2 ^ 64 + 2 ^ 320 + tRecord * 2 ^ 1536

/-- A host-queue entry: kind, launch, address, length, argument, record. -/
def tEntry (kind launch addr len arg : Nat) (record : Nat := 0) : List Byte :=
  natLe 128 (kind + launch * 2 ^ 32 + addr * 2 ^ 128 + len * 2 ^ 192 + arg * 2 ^ 256 + record * 2 ^ 512)

/-- The package with one context, an entry in its queue 0, and the host memory at 0x1000 holding a number; and with the image in place. -/
def tHost (e : List Byte) (n : Nat) (x : Ctx := tHome0) : State := { tS with
  ctxs := [(0, x)], queues := [(0, { ring := e, pidx := 1, pending := true })], host := tCells 0x1000 (natLe 256 n)
  hbm := [(10485828, 1), (10485838, 1)] }
def tStaged : State := { tHost (tEntry 1 0 4096 256 0 0) tLaunch0 tHome1 with
  hbm := [(10485828, 1), (10485838, 1)] ++ tCells (5 * 2 ^ 21 + 0x1000) tKernel }
def tPosted (e : List Byte) : State := { tHost e 0 with launches := [(3, tLaunch)] }

/-- A model image of one RAW object of one byte, 0, at 16,384; its digest, by an implementation of SHA-512 outside this package; and
the signature (r, s) = (digest, digest / 5), whose key is a fifth of the point with x coordinate digest, less the base point. -/
def tModelDigest : Nat :=
  0xF2CCADA90DBA2C6EFF15DA4B5C90978A786D45BDE79C6DCF6A8A7D962B01EA23CBF6148AFA815E09A69C70541E0F7A2618DB709E4D59075CB32B8343AC4B9BE3
def tModelSign : List Byte := natBe 66
  0x6696F5BC5502BED5AFCC9DF87578E9B7E87E7C4125FB1F49297BB54C513BCD2ED2D2B2859C8B89CA7DD47B49EC376B6CCADDB6A5449164430249523EE072B3FFFC
def tModelKey : List Byte := 4 :: (natBe 66
  0x1A76D994C23DEA4DF28B6F435FB1320C8EB137DEBD4F6A61065197D27701480CC458B914E604DC4DE960BE77081AEE71C52651661168432677954E4EFF311AF76B9
  ++ natBe 66
  0x1653EC180F26353FC13433245DEBD45FA1A4AB79020A0305EB5CF130CAD84FAA8A3F4AF3D00AD4B0F7D2DA5EA9230483344E3B3E5139AC71B9E2EDC72D13B4002CC)
def tModelHead : List Byte := natLe 64 (0x4D48524B + 2 ^ 32 + 2 ^ 48 + 16385 * 2 ^ 128 + 11 * 2 ^ 192)
def tModelRest : List Byte := natLe 32 (16384 + 2 ^ 64) ++ List.replicate 15841 0
def tModelFront : List Byte := tModelHead ++ natBe 64 tModelDigest ++ natBe 66 tModelDigest ++ tModelSign ++ List.replicate 252 0 ++ natLe 32 (16384 + 2 ^ 64)
def tModel : List Byte := tModelFront ++ List.replicate 15841 0
def tHome2 : Ctx := { tMapped with desc := tDesc 0 0 tModelKey 0x40000 }
def tInstall : State := { tS with
  ctxs := [(0, tHome2)], queues := [(0, { ring := tEntry 3 0 4096 16385 0 0, pidx := 1, pending := true })], host := tCells 0x1000 tModelFront
  hbm := [(10485828, 1), (10485838, 1)] }

theorem readN_add (m : Memory) (a n k : Nat) : m.readN a (n + k) = m.readN a n ++ m.readN (a + n) k := by
  induction n generalizing a with
  | zero => simp [Memory.readN]
  | succ n ih => rw [Nat.succ_add]; simp [Memory.readN, ih, Nat.add_assoc, Nat.add_comm 1 n]

theorem read_above (m : Memory) (a : Nat) (h : ∀ c ∈ m, c.1 < a) : m.read a = 0 := by
  induction m with
  | nil => rfl
  | cons c r ih =>
    have g := h c (List.mem_cons_self ..)
    simp only [Memory.read]
    rw [if_neg (by omega), if_neg (by omega)]
    exact ih fun d hd => h d (List.mem_cons_of_mem _ hd)

theorem readN_above (m : Memory) (a n : Nat) (h : ∀ c ∈ m, c.1 < a) : m.readN a n = List.replicate n 0 := by
  induction n generalizing a with
  | zero => rfl
  | succ n ih => simp [Memory.readN, read_above m a h, ih (a + 1) (fun c hc => Nat.lt_succ_of_lt (h c hc)), List.replicate_succ]

theorem readN_cons (c : Host.Cell) (m : Memory) (a n : Nat) (h : c.1 < a) : Memory.readN (c :: m) a n = m.readN a n := by
  induction n generalizing a with
  | zero => rfl
  | succ n ih => simp [Memory.readN, Memory.read, Nat.ne_of_lt h, Nat.not_lt_of_gt h, ih (a + 1) (Nat.lt_succ_of_lt h)]

theorem read_below (m : Memory) (a : Nat) (h : ∀ c ∈ m, a < c.1) : m.read a = 0 := by
  cases m with
  | nil => rfl
  | cons c r =>
    have g := h c (List.mem_cons_self ..)
    simp [Memory.read, Nat.ne_of_gt g, g]

/-- The cells of some bytes from index k, by their addresses. -/
def tCellsFrom (a k : Nat) (bs : List Byte) : Memory := ((bs.zipIdx k).filter fun b => b.1 ≠ 0).map fun b => (a + b.2, b.1)

theorem tCellsFrom_mem (a k : Nat) (bs : List Byte) : ∀ c ∈ tCellsFrom a k bs, a + k ≤ c.1 ∧ c.1 < a + k + bs.length := by
  intro c h
  simp only [tCellsFrom, List.mem_map, List.mem_filter] at h
  obtain ⟨b, ⟨h, -⟩, rfl⟩ := h
  have := List.mem_zipIdx h
  simp only
  omega

theorem tCellsFrom_readN (a k : Nat) (bs : List Byte) : (tCellsFrom a k bs).readN (a + k) bs.length = bs := by
  induction bs generalizing k with
  | nil => rfl
  | cons b r ih =>
    by_cases z : b = 0
    · have e : tCellsFrom a k (b :: r) = tCellsFrom a (k + 1) r := by simp [tCellsFrom, z]
      rw [e]
      simp only [List.length_cons, Memory.readN]
      rw [read_below (tCellsFrom a (k + 1) r) (a + k) fun c h => (tCellsFrom_mem a (k + 1) r c h).1, z]
      exact congrArg _ (ih (k + 1))
    · have e : tCellsFrom a k (b :: r) = (a + k, b) :: tCellsFrom a (k + 1) r := by
        simp [tCellsFrom, List.zipIdx_cons, show ¬b = 0#8 from z]
      rw [e]
      simp only [List.length_cons, Memory.readN]
      rw [readN_cons _ _ _ _ (Nat.lt_succ_self _)]
      simp only [Memory.read, if_true]
      exact congrArg _ (ih (k + 1))

theorem tModelFront_length : tModelFront.length = 544 := by decide +kernel

theorem tModel_read : tInstall.host.readN 0x1000 16385 = tModel := by
  have r := tCellsFrom_readN 0x1000 0 tModelFront
  have b (c : Host.Cell) (h : c ∈ tCellsFrom 0x1000 0 tModelFront) := (tCellsFrom_mem 0x1000 0 tModelFront c h).2
  rw [tModelFront_length] at r b
  rw [show 16385 = 544 + 15841 from rfl, readN_add]
  exact congr (congrArg _ r) (readN_above _ _ 15841 b)

/-- The hash value of a message goes on from that of its whole blocks. -/
theorem shaBlocks_append (a b : Nat) (h : List Word) (m k : List Byte) (hm : m.length = 128 * a) :
    shaBlocks (a + b) h (m ++ k) = shaBlocks b (shaBlocks a h m) k := by
  induction a generalizing h m with
  | zero => simp [List.length_eq_zero_iff.mp hm, shaBlocks]
  | succ a ih =>
    rw [Nat.succ_add]
    simp only [shaBlocks]
    rw [List.take_append_of_le_length (by omega), List.drop_append_of_le_length (by omega)]
    exact ih _ _ (by simp; omega)

theorem sha512_eq (m : List Byte) :
    sha512 m = (shaBlocks ((shaPad m).length / 128) shaInit (shaPad m)).flatMap fun w => natBe 8 w.toNat := rfl

theorem shaBlocks_zeros (a b : Nat) (h : List Word) (k : List Byte) :
    shaBlocks (a + b) h (List.replicate (128 * a) 0 ++ k) = shaBlocks b (shaBlocks a h (List.replicate (128 * a) 0)) k :=
  shaBlocks_append a b h _ k (by simp)

/-- The zero bytes from block a to block 124, and the padded end of the model image's message. -/
def tModelTail (a : Nat) : List Byte := List.replicate (128 * (124 - a)) 0 ++ (List.replicate 65 0 ++ [0x80] ++ List.replicate 46 0 ++ natBe 16 127496)

theorem tModelTail_step (a b : Nat) (h : List Word) (hb : a + b ≤ 124) :
    shaBlocks (125 - a) h (tModelTail a) = shaBlocks (125 - (a + b)) (shaBlocks b h (List.replicate (128 * b) 0)) (tModelTail (a + b)) := by
  rw [show 125 - a = b + (125 - (a + b)) by omega]
  unfold tModelTail
  rw [show 128 * (124 - a) = 128 * b + 128 * (124 - (a + b)) by omega, ← List.replicate_append_replicate, List.append_assoc]
  exact shaBlocks_zeros b _ h _

/-- The hash values after 1, 16, 31, 46, 61, 76, 91, 106 and 124 blocks. -/
def tModelHashes : List (List Word) :=
  [[0xB9EAE945DDB5D6A5, 0xA8319ADD47040A10, 0xCBADBA06B30767B0, 0xA92EB863B295365A, 0xBE85708E0C616963, 0xB2C954FDAE433411, 0xB477453BC8364C56, 0x9FD29EBFC7B0BBF6],
   [0x7974BA46A01F0F5D, 0x9695938F7A0A9D80, 0xE1A4C194D0A4CE98, 0x3B6BF1A00268BC62, 0x380EBAB2E31E10D0, 0x7A4CE82D7BD77EFB, 0x8EE7AEF5D4451A1F, 0xF46BE3983DA10B89],
   [0x638DF1CD6C42E6AC, 0x6F498090D2A2E3C2, 0x937611321BFA6986, 0x381E7F41951AE768, 0x44B610066F689897, 0x1C08CE0AC5E43293, 0xF1AA162DB9000AF5, 0xC992D6D1802FC0C8],
   [0x5A0335DF2F8C64E8, 0xBEA2A5A262C02322, 0x6213134CE0EF2E42, 0x7E3E0CB7624E58A7, 0xEF94D061E881BE99, 0x764CA25F1D9FBE42, 0x5A9BEE7514141858, 0xBD8C8560509E40F0],
   [0xE953F06425BD543D, 0xF0C1443521642FF1, 0x5A1C0EEE9DACF9EC, 0x348BF826453EB976, 0x8D0111AEB52B1FC, 0x918CDBCCCB3B4AE5, 0xB4B6EDDC101FF43D, 0xDE713F1222F3B507],
   [0xCE6D38CE82CF8AE7, 0x423DC56813D6D50E, 0xB22609517D655AF2, 0x9895C96A10C9D6B0, 0xD62D06D6A904D054, 0x8664E24EA03D0E4B, 0xDA7EA378957CB636, 0xEB22B25B84B83DA6],
   [0xA71DDFE515A8D8C2, 0x683A61D977670F2F, 0x93943172963FC562, 0x59BEE8690B4C3A8, 0xB00964EB8207B6DE, 0x3C3EF519AA1BD501, 0xBC7D36738A9998B7, 0xCABCB4A1482FC7BA],
   [0x72C0B1BE61A6ECF7, 0xF58F319DAEE98694, 0x952B2866F3C6A0C0, 0x44BA2D0785B222BB, 0xDEA6DE92230B210E, 0x7EC3E763BBDC77D1, 0x6AD56D08E9F9FF50, 0x3AC3B34BFC9F9421],
   [0x361BB3C9518272B1, 0xBE5569BE00BB0EF2, 0x1E4F9B78B7796D92, 0x98E05B559CDDA68, 0xC1634D798F3D18EC, 0x4526EEBE504C52A6, 0xF16569B4F9C1C6EC, 0x270A1DF7CFBDD8C1]]

def tModelHash (i : Nat) : List Word := tModelHashes.getD i []

theorem tModel_pad : shaPad (tModelHead ++ tModelRest) = (tModelHead ++ natLe 32 (16384 + 2 ^ 64) ++ List.replicate 32 0) ++ tModelTail 1 := by
  have l : (tModelHead ++ tModelRest).length = 15937 := by
    have e : (natLe 32 (16384 + 2 ^ 64)).length = 32 := by decide +kernel
    have f : tModelHead.length = 64 := by decide +kernel
    rw [List.length_append, tModelRest, List.length_append, List.length_replicate, e, f]
  unfold shaPad
  rw [l]
  unfold tModelRest tModelTail
  rw [show 15841 = 32 + (128 * (124 - 1) + 65) from rfl, ← List.replicate_append_replicate, ← List.replicate_append_replicate]
  simp only [List.append_assoc]

/-! The hash values, part after part. -/

theorem tModel_chain0 : shaBlocks 1 shaInit (tModelHead ++ natLe 32 (16384 + 2 ^ 64) ++ List.replicate 32 0) = tModelHash 0 := by
  decide +kernel
theorem tModel_chain1 : shaBlocks 15 (tModelHash 0) (List.replicate (128 * 15) 0) = tModelHash 1 := by decide +kernel
theorem tModel_chain2 : shaBlocks 15 (tModelHash 1) (List.replicate (128 * 15) 0) = tModelHash 2 := by decide +kernel
theorem tModel_chain3 : shaBlocks 15 (tModelHash 2) (List.replicate (128 * 15) 0) = tModelHash 3 := by decide +kernel
theorem tModel_chain4 : shaBlocks 15 (tModelHash 3) (List.replicate (128 * 15) 0) = tModelHash 4 := by decide +kernel
theorem tModel_chain5 : shaBlocks 15 (tModelHash 4) (List.replicate (128 * 15) 0) = tModelHash 5 := by decide +kernel
theorem tModel_chain6 : shaBlocks 15 (tModelHash 5) (List.replicate (128 * 15) 0) = tModelHash 6 := by decide +kernel
theorem tModel_chain7 : shaBlocks 15 (tModelHash 6) (List.replicate (128 * 15) 0) = tModelHash 7 := by decide +kernel
theorem tModel_chain8 : shaBlocks 18 (tModelHash 7) (List.replicate (128 * 18) 0) = tModelHash 8 := by decide +kernel

theorem tModel_last : (shaBlocks 1 (tModelHash 8) (tModelTail 124)).flatMap (fun w => natBe 8 w.toNat) = natBe 64 tModelDigest := by decide +kernel

theorem tModel_placed : tInstall.host.readN (hdr (tEntry 3 0 4096 16385 0 0) 16 8) (hdr (tEntry 3 0 4096 16385 0 0) 24 8) = tModel := by
  rw [show hdr (tEntry 3 0 4096 16385 0 0) 16 8 = 0x1000 by decide +kernel, show hdr (tEntry 3 0 4096 16385 0 0) 24 8 = 16385 by decide +kernel]
  exact tModel_read

theorem tModel_sha : sha512 (tModelHead ++ tModelRest) = natBe 64 tModelDigest := by
  have n : (shaPad (tModelHead ++ tModelRest)).length / 128 = 1 + 124 := by
    have e : (natLe 32 (16384 + 2 ^ 64)).length = 32 := by decide +kernel
    have f : tModelHead.length = 64 := by decide +kernel
    have g : (natBe 16 127496).length = 16 := by decide +kernel
    rw [tModel_pad]
    simp only [tModelTail, List.length_append, List.length_replicate, List.length_cons, List.length_nil, e, f, g]
  have f : (tModelHead ++ natLe 32 (16384 + 2 ^ 64) ++ List.replicate 32 0).length = 128 * 1 := by decide +kernel
  rw [sha512_eq, n, tModel_pad, shaBlocks_append 1 124 _ _ _ f, tModel_chain0]
  rw [show 124 = 125 - 1 from rfl, tModelTail_step 1 15 _ (by decide), tModel_chain1,
    tModelTail_step 16 15 _ (by decide), tModel_chain2,
    tModelTail_step 31 15 _ (by decide), tModel_chain3,
    tModelTail_step 46 15 _ (by decide), tModel_chain4,
    tModelTail_step 61 15 _ (by decide), tModel_chain5,
    tModelTail_step 76 15 _ (by decide), tModel_chain6,
    tModelTail_step 91 15 _ (by decide), tModel_chain7,
    tModelTail_step 106 18 _ (by decide), tModel_chain8]
  exact tModel_last

theorem tModel_signed : signed tModelKey (tModelHead ++ tModelRest) (natBe 64 tModelDigest) (natBe 66 tModelDigest) tModelSign = true := by
  unfold signed ecdsaOk
  rw [tModel_sha]
  decide +kernel

theorem tModel_ok : modelOk tHome2 (tInstall.signEntry 0 tHome2) tModel = true := by
  have e : tModel.take 0x40 ++ (tModel.drop 0x200).take (hdr tModel 0x10 8 - 0x200) = tModelHead ++ tModelRest := by decide +kernel
  have d : (tModel.drop 0x40).take 64 = natBe 64 tModelDigest := by decide +kernel
  have r : (tModel.drop 0x80).take 66 = natBe 66 tModelDigest := by decide +kernel
  have z : (tModel.drop 0xC2).take 66 = tModelSign := by decide +kernel
  have k : tHome2.key = tModelKey := by decide +kernel
  unfold modelOk
  rw [e, d, r, z, k, tModel_signed]
  decide +kernel

theorem tModel_room : tInstall.installPlan 0 tHome2 ((modelObjs tModel).map Prod.snd) = some ([], [⟨0, 1, 0, 0, 0, {}⟩]) := by
  have h : ∀ a < 8, ∀ b < 16, (!(tInstall.hbfStacks.getD a {}).nowrite && (tInstall.hbfStacks.getD a {}).chan.getLsbD b) = true := by
    decide +kernel
  have o : (modelObjs tModel).map Prod.snd = [⟨0, 1, 0, 0, 0, {}⟩] := by decide +kernel
  have f : tInstall.pageFree 0 tHome2 (takenPages tHome2.models) 0 = true := by
    unfold State.pageFree
    rw [h _ (Nat.mod_lt _ (by decide)) _ (Nat.mod_lt _ (by decide))]
    decide +kernel
  have g : (List.range (tHome2.d 0x30 8 / 16384)) = 0 :: (List.range 15).map Nat.succ := by decide +kernel
  have k : (tHome2.models.filter fun m => !(([] : List Model).any fun g => g.id = m.id)) = tHome2.models := by decide +kernel
  have q : tInstall.placeObjs 0 tHome2 (takenPages tHome2.models) [⟨0, 1, 0, 0, 0, {}⟩] = some [⟨0, 1, 0, 0, 0, {}⟩] := by
    simp only [State.placeObjs]
    rw [g, List.find?_cons_of_pos]
    · rfl
    · simpa [Obj.pages, cdiv] using f
  unfold State.installPlan
  rw [o]
  simp only [List.range_succ_eq_map, List.findSome?_cons, List.take_zero, k, q, Option.map_some]

/-! ### Words -/

/-- The words of the listing in 07 (WINMAX). -/
theorem test_vectorWords :
    decodeSlot .vector 0xC8000100 = .ok (.vshp always 1) ∧ decodeSlot .vector 0xC2040001 = .ok (.viota always 2 0 0 0 1) ∧
    decodeSlot .vector 0xCA020200 = .ok (.kwin always 1 2 0) ∧ decodeSlot .vector 0xC00A0381 = .ok (.vbcast always 5 0 3 8 0 1) ∧
    decodeSlot .vector 0x30064100 = .ok (.vcvt always 3 2 0 8 0 0) ∧ decodeSlot .vector 0x2C086B04 = .ok (.vsel always 4 3 5 8 1) ∧
    decodeSlot .vector 0x3A0C8100 = .ok (.vredMax always 6 4 8 0 0) ∧ decodeSlot .vector 0xC400C000 = .ok (.vext always 0 6 0 0) ∧
    decodeSlot .vector 0xC402C400 = .ok (.vext always 1 6 4 0) := ⟨rfl, rfl, rfl, rfl, rfl, rfl, rfl, rfl, rfl⟩

/-- 02 R36, 07 R155: FRCP.FP32 v4, v1 is opcode 0x03 at bit 25, v4 at 17, v1 at 13, FP32 (8) at 4; its reserved bits and a reserved type are
illegal. -/
theorem test_functionWords :
    decodeSlot .fn 0x06082080 = .ok (.frcp always 4 1 8 0) ∧ decodeSlot .fn 0x06082081 = .error .reserved ∧
    decodeSlot .fn 0x06082000 = .error .reserved := ⟨rfl, rfl, rfl⟩

/-! ### Ill-formed terms -/

/-- One term for each check of `Instr.wf`, which refuses it. -/
theorem test_illFormed :
    ([.movhi always 24 0, .qpeek always 1 23, .qcnt always 1 0, .qclr always 5, .loopr always 3 4 1, .lbrk always 6, .lidx always 1 6,
      .lidxIn always 1 7, .vadd always 1 2 3 0 0 2, .vsub always 1 2 3 7 0 2, .vmul always 1 2 3 0 0 2, .vfma always 1 2 3 0 0 2,
      .vabs always 1 2 8 0 1, .vneg always 1 2 9 0 1, .vshl always 1 2 3 8 0, .vshr always 1 2 3 9 0, .vsar always 1 2 3 10 0,
      .vcvt always 1 2 0 8 0 3, .vredSum always 1 2 8 0 1 0, .vshlScalar always 1 2 3 8 0, .vshrScalar always 1 2 3 8 0,
      .vsarScalar always 1 2 3 8 0, .vbcast always 1 2 3 8 0 1, .viota always 1 0 8 0 0] : List Instr).all (fun i => !i.wf) = true ∧
    ([.fexp2 always 1 2 0 0, .flog2 always 1 2 11 0, .frcp always 1 2 7 0, .frsq always 1 2 15 0, .fsigm always 1 2 0 0, .ftanh always 1 2 0 0,
      .ferf always 1 2 0 0, .atomAdd always 24 1 2 0 0, .atomMin always 24 1 2 0 0, .atomMax always 24 1 2 0 0, .atomSwap always 31 1 2 0 0,
      .atomCas always 0 1 2 0 0, .atomCas always 23 1 2 0 0, .ratomAdd always 24 1 2 0 0 0, .ratomMin always 24 1 2 0 0 0,
      .ratomMax always 24 1 2 0 0 0, .ratomSwap always 24 1 2 0 0 0, .ratomCas always 23 1 2 0 0 0, .tmset always 1 2 5, .tmadd always 1 2 0,
      .fenceScope always 5, .tqpop always 24 1 0] : List Instr).all (fun i => !i.wf) = true ∧
    ([.mlease always 0 noOpts, .mlease always 65 noOpts, .mlease always 4 { noOpts with p := 1 }, .mfree always { noOpts with p := 1 },
      .mfree always { noOpts with y := 1 }, .mldw always 1 0 0 4 noOpts, .mrun always 1 2 0 1 0 noOpts, .mdrain always 1 2 0 0 { noOpts with y := 1 },
      .mclr always 1 { noOpts with y := 1 }, .massay always 0 1 0 { noOpts with y := 1 }, .copy always 1 2 { noOpts with y := 1 },
      .copy2 always 1 2 0 { noOpts with y := 1 }, .gath always 1 2 { noOpts with tpp := 1 }, .mcast always 1 2 0 0 { noOpts with tpn := 1 },
      .subs always 1 2 0 { noOpts with thp := 1 }, .unsub always 1 { noOpts with tpp := 1 }, .rfree always 1 2 { noOpts with thn := 1 },
      .hfetch always 1 0 { noOpts with tpp := 1 }, .prosp always 1 2 6 noOpts, .hrebind always 1 2 { noOpts with tpn := 1 },
      .decj always 1 6 noOpts, .decj always 1 0 { noOpts with p := 1 }, .publish always 6 noOpts] : List Instr).all (fun i => !i.wf) = true := by
  decide

/-! ### Single steps -/

/-- What an instruction leaves. -/
def after (i : Instr) (s : State) : State := match exec i s with
  | .next t => t
  | _ => s

/-- The writes on their way to core 0's registers. -/
def writes (s : State) : List Write := (s.core 0).seq.pend.map Pend.w

/-- 03 R60, R62: 20 + 30 and 20 − 30, written at the end of the cycle; a quotient by zero is still on its way. -/
theorem test_scalar :
    ((after (.add always 1 2 3) tS).core 0).sreg 1 = 50 ∧ ((after (.sub always 1 2 3) tS).core 0).sreg 1 = -10 ∧
    writes (after (.div always 1 2 0) tS) = [.scalar 1 (-1)] := by decide +kernel

/-- The listing of 07: KWIN under lo 1, hi 5, slope 1 over 2 rows of 8 columns gives bits 15:0 = 0x3C1E. -/
theorem test_kwin :
    let k := { tCore with regs := { tCore.regs with s := tCore.regs.s.set 2 0x0001000005000001 }, vec := { tCore.vec with vshape := 0xC00402 } }
    (writes (after (.kwin always 1 2 0) (tOn k))).map (fun w => match w with | .kmask r _ v => (r, v.toNat % 65536) | _ => (9, 0)) =
      [(1, 0x3C1E)] := by decide +kernel

/-- 03 R75, 21 R366: TRAP 5 of bundle 7 saves the next bundle and 5, and goes to the handler of TVEC. -/
theorem test_trap :
    let k := (after (.trap always 5) tS).core 0
    k.seq.pc = 0x200 ∧ k.sys.tval = 5 ∧ k.sys.epc.setWidth 13 = 8 ∧ k.live = true := by decide +kernel

/-- SHA-512 of "abc" (FIPS 180-4's example) begins DD AF 35 A1. -/
theorem test_sha512 : (sha512 [0x61, 0x62, 0x63]).take 4 = [0xDD, 0xAF, 0x35, 0xA1] := by decide +kernel

/-! ### Witnesses: for each statement, states and operands that meet the hypotheses of each of its clauses -/

theorem witness_ScalarResult :
    ∃ (i : Instr) (f : ScalarForm) (s s' t : State) (xs : List Word),
      scalarForm i = some f ∧ s.ready f.g ∧ (s.opened f.g false false []).readAll f.srcs = .ok (xs, s') ∧ s'.writeS f.d f.l (f.value s xs) = .ok t :=
  ⟨.add always 1 1 3, _, tS, _, _, _, rfl, ready_t, rfl, rfl⟩

theorem witness_PredicateResult :
    ∃ (i : Instr) (f : PredForm) (s s' : State) (xs : List Word),
      predForm i = some f ∧ s.ready f.g ∧ (s.opened f.g false false []).readAll f.srcs = .ok (xs, s') :=
  ⟨.cmpiGe always 1 1 50, _, tS, _, _, rfl, ready_t, rfl⟩

theorem witness_DelayBundles :
    ∃ (k : Core) (t : BitVec 13),
      k.seq.pc.toNat + 2 < 8192 :=
  ⟨{ tCore with seq := { tCore.seq with pc := 8189 } }, 3, by decide⟩

theorem witness_LoopIssues :
    ∃ (i : Instr) (f : LoopForm) (s s' : State) (xs : List Word),
      loopForm i = some f ∧ s.ready f.g ∧ (s.me.inDelay || s.me.rpl) = false ∧ (f.stages ≠ 0 → ∀ l ∈ s.me.seq.loops, l.stages = 0) ∧ s.me.seq.pc.toNat + 1 + f.len ≤ 8191 ∧
        (s.opened f.g false false []).readAll f.srcs = .ok (xs, s') ∧ (f.count xs).toNat ≤ 0xFFFFFFFF ∧ s.me.ldepth ≠ 6 ∧
        (∀ l r, s.me.seq.loops = l :: r → s.me.seq.pc.toNat + 1 + f.len ≤ l.fin.toNat) :=
  ⟨.loopr always 1 3 1, _, tS, _, _, rfl, ready_t, rfl, by decide, by decide, rfl, by decide, by decide, (by intro l r h; cases h)⟩

theorem witness_LoopEndAction :
    (∃ (k : Core) (l : Loop) (r : List Loop),
      k.seq.loops = l :: r ∧ k.seq.transfer = none ∧ k.seq.rollback = none ∧ (∀ x ∈ l :: r, x.stages = 0) ∧ k.seq.pc.toNat < 8191 ∧ l.fin = k.seq.pc ∧
        l.index.toNat + 1 < l.count.toNat) ∧
    (∃ (k : Core) (l : Loop) (r : List Loop),
      k.seq.loops = l :: r ∧ k.seq.transfer = none ∧ k.seq.rollback = none ∧ (∀ x ∈ l :: r, x.stages = 0) ∧ k.seq.pc.toNat < 8191 ∧ l.fin = k.seq.pc ∧
        l.count.toNat ≤ l.index.toNat + 1) ∧
    (∃ (k : Core) (l : Loop) (r : List Loop),
      k.seq.loops = l :: r ∧ k.seq.transfer = none ∧ k.seq.rollback = none ∧ (∀ x ∈ l :: r, x.stages = 0) ∧ k.seq.pc.toNat < 8191 ∧ l.fin ≠ k.seq.pc) :=
  ⟨⟨tLoop 1 7, _, _, rfl, rfl, rfl, (by decide), by decide, rfl, by decide⟩,
   ⟨tLoop 2 7, _, _, rfl, rfl, rfl, (by decide), by decide, rfl, by decide⟩,
   ⟨tLoop 2 8, _, _, rfl, rfl, rfl, (by decide), by decide, by decide⟩⟩

theorem witness_SequencerIssues :
    (∃ (s : State),
      s.ready ⟨0, 0⟩) ∧
    (∃ (g : Guard) (a : BitVec 5) (s : State),
      s.ready g) ∧
    (∃ (g : Guard) (d a : BitVec 5) (s t : State) (v : Word) (e : QEntry) (r : List QEntry),
      s.ready g ∧ s.me.regs.q.getD (a.toNat - 24) [] = e :: r ∧ e.val = some v ∧ (s.opened g false false []).writeS d.toNat 1 v = .ok t) ∧
    (∃ (g : Guard) (n : BitVec 3) (s : State),
      s.ready g ∧ (s.me.inDelay || s.me.rpl) = false ∧ n.toNat + 1 ≤ s.me.ldepth) ∧
    (∃ (g : Guard) (d : BitVec 5) (n : BitVec 3) (s t : State) (l : Loop),
      s.ready g ∧ s.me.seq.loops.reverse[n.toNat]? = some l ∧ (s.opened g false false []).writeS d.toNat 1 (l.index.setWidth 64) = .ok t) ∧
    (∃ (g : Guard) (d : BitVec 5) (n : BitVec 3) (s t : State) (l : Loop),
      s.ready g ∧ s.me.seq.loops[n.toNat]? = some l ∧ (s.opened g false false []).writeS d.toNat 1 (l.index.setWidth 64) = .ok t) ∧
    (∃ (g : Guard) (d : BitVec 5) (e : BitVec 6) (s s' : State) (v : Word),
      s.ready g ∧ s.me.rpl = false ∧ (s.opened g false false []).readS d.toNat = .ok (v, s') ∧ deltaOk v = true) ∧
    (∃ (g : Guard) (s : State),
      s.ready g ∧ s.me.inDelay = false) ∧
    (∃ (g : Guard) (a : BitVec 5) (s s' : State) (v : Word),
      s.ready g ∧ s.me.inDelay = false ∧ s.me.sys.mode = true ∧ (s.opened g true false []).readS a.toNat = .ok (v, s')) ∧
    (∃ (g : Guard) (a : BitVec 5) (s s' : State) (v : Word),
      s.ready g ∧ a.toNat ≠ 31 ∧ (s.opened g false false []).readS a.toNat = .ok (v, s')) ∧
    (∃ (g : Guard) (s s' : State) (v : Word) (p : Option Nat),
      s.ready g ∧ (s.opened g false false []).popQ 7 = .ok ((v, p), s')) ∧
    (∃ (g : Guard) (l st c t : BitVec 4) (s : State),
      s.ready g ∧ (∀ p ∈ [(0, l), (1, st), (2, c), (3, t)], p.2 = 15 ∨ s.me.eng.counter p.1 ≤ p.2.toNat) ∧
        (l = 0 ∨ st = 0 ∨ c = 0 ∨ t = 0)) ∧
    (∃ (g : Guard) (l st c t : BitVec 4) (s : State),
      s.ready g ∧ (∀ p ∈ [(0, l), (1, st), (2, c), (3, t)], p.2 = 15 ∨ s.me.eng.counter p.1 ≤ p.2.toNat) ∧
        ¬ (l = 0 ∨ st = 0 ∨ c = 0 ∨ t = 0)) :=
  ⟨⟨tS, ready_t⟩,
   ⟨always, 24, tS, ready_t⟩,
   ⟨always, 1, 24, tOn (tLoop 2 7), _, _, _, _, ready_l, rfl, rfl, rfl⟩,
   ⟨always, 0, tOn (tLoop 2 7), ready_l, rfl, by decide⟩,
   ⟨always, 1, 0, tOn (tLoop 2 7), _, _, ready_l, rfl, rfl⟩,
   ⟨always, 1, 0, tOn (tLoop 2 7), _, _, ready_l, rfl, rfl⟩,
   ⟨always, 1, 63, tS, _, _, ready_t, rfl, State.readS_reg _ (by decide), rfl⟩,
   ⟨always, tS, ready_t, rfl⟩,
   ⟨always, 1, tS, _, _, ready_t, rfl, rfl, State.readS_reg _ (by decide)⟩,
   ⟨always, 1, tS, _, _, ready_t, by decide, State.readS_reg _ (by decide)⟩,
   ⟨always, tOn (tLoop 2 7), _, _, _, ready_l, rfl⟩,
   ⟨always, 0, 15, 0, 15, tS, ready_t, by decide, by decide⟩, ⟨always, 1, 15, 14, 15, tS, ready_t, by decide, by decide⟩⟩

theorem witness_SegmentsIssue :
    (∃ (g : Guard) (d : BitVec 5) (s t : State),
      s.ready g ∧ s.me.sto.seg.copy = none ∧ (s.opened g false false []).writeS d.toNat 1 s.me.sto.seg.status = .ok t) ∧
    (∃ (g : Guard) (a : BitVec 5) (s s' : State) (v : Word),
      s.ready g ∧ s.me.rpl = false ∧ s.me.sto.seg.copy = none ∧ (s.opened g true false []).readS a.toNat = .ok (v, s') ∧
        v.toNat < hdr (s.image s.me) 0x13 1 ∧ (segEntry (s.image s.me) v.toNat).2.2.1 ≠ halfOf s.me.seq.pc.toNat) ∧
    (∃ (g : Guard) (a : BitVec 5) (s s' : State) (v : Word),
      s.ready g ∧ banTransfer s.me = false ∧ s.me.sto.seg.copy = none ∧ (s.opened g false true []).readS a.toNat = .ok (v, s') ∧ v.toNat ≤ 8191 ∧
        halfOf v.toNat ≠ halfOf s.me.seq.pc.toNat ∧ (if halfOf v.toNat = 0 then s.me.sto.seg.crcErr.1 else s.me.sto.seg.crcErr.2) = false) :=
  ⟨⟨always, 1, tS, _, ready_t, rfl, rfl⟩,
   ⟨always, 0, tRunning tCore, _, _, ready_r, rfl, rfl, State.readS_reg _ (by decide), by decide, by decide⟩,
   ⟨always, 23, tOn { tCore with regs := { tCore.regs with s := Vector.replicate 24 4096 } }, _, _, ⟨rfl, by decide, rfl, rfl, rfl, rfl, rfl, by decide⟩, rfl,
    rfl, State.readS_reg _ (by decide), by decide, by decide, rfl⟩⟩

theorem witness_SystemAccess :
    (∃ (g : Guard) (d : BitVec 5) (r : BitVec 10) (x : SysReg) (s t : State),
      s.ready g ∧ sysOf r = some x ∧ (s.me.sys.mode || x.userRead) = true ∧ (s.opened g false false []).writeS d.toNat 1 (s.sysRead s.cur x) = .ok t) ∧
    (∃ (i : Instr) (f : SysForm) (x : SysReg) (s s' : State) (v : Word),
      sysForm i = some f ∧ s.ready f.g ∧ sysOf f.r = some x ∧ x.writable s.me.sys.mode = true ∧
        (s.opened f.g true false []).readS f.src = .ok (v, s') ∧ sysRefuses s'.me x (f.new (s'.sysRead s.cur x) v) = false) :=
  ⟨⟨always, 1, 1, _, tS, _, ready_t, rfl, rfl, rfl⟩,
   ⟨.sysw always 10 12, _, _, tOn { tCore with regs := { tCore.regs with s := Vector.replicate 24 1 } }, _, _, rfl,
    ⟨rfl, by decide, rfl, rfl, rfl, rfl, rfl, by decide⟩, rfl, rfl, State.readS_reg _ (by decide), rfl⟩⟩

theorem witness_UserModeDenied :
    (∃ (s : State) (g : Guard) (d : BitVec 5) (r : BitVec 10) (x : SysReg),
      s.latch.phase = .solo ∧ s.me.sys.mode = false ∧ (s.me.inDelay || s.me.atEnd) = false ∧ sysOf r = some x ∧ x.userRead = false) ∧
    (∃ (s : State) (i : Instr) (f : SysForm) (x : SysReg),
      s.latch.phase = .solo ∧ s.me.sys.mode = false ∧ (s.me.inDelay || s.me.atEnd) = false ∧ sysForm i = some f ∧ sysOf f.r = some x ∧
        x.writable false = false) ∧
    (∃ (s : State) (g : Guard) (n : BitVec 15),
      s.latch.phase = .solo ∧ s.me.sys.mode = false ∧ (s.me.inDelay || s.me.atEnd) = false) ∧
    (∃ (s : State) (g : Guard),
      s.latch.phase = .solo ∧ s.me.sys.mode = false ∧ (s.me.inDelay || s.me.atEnd) = false) ∧
    (∃ (s : State) (g : Guard) (a : BitVec 5),
      s.latch.phase = .solo ∧ s.me.sys.mode = false ∧ (s.me.inDelay || s.me.atEnd) = false) :=
  ⟨⟨tUser, always, 1, 1, _, rfl, rfl, rfl, rfl, rfl⟩,
   ⟨tUser, .syss always 1 4, _, _, rfl, rfl, rfl, rfl, rfl, rfl⟩,
   ⟨tUser, always, 32767, rfl, rfl, rfl⟩,
   ⟨tUser, always, rfl, rfl, rfl⟩,
   ⟨tUser, always, 1, rfl, rfl, rfl⟩⟩

theorem witness_ScalarOperands :
    (∃ (s : State) (r : _),
      0 < r ∧ r < 24) ∧
    (∃ (s : State) (q : _) (e : _) (r : _) (v : _),
      q < 8 ∧ s.me.regs.q.getD q [] = e :: r ∧ e.val = some v) ∧
    (∃ (s : State) (q : _),
      q < 8 ∧ (∀ e r, s.me.regs.q.getD q [] = e :: r → e.val = none)) ∧
    (∃ (s : State) (l : Nat) (v : Word) (r : _),
      0 < r ∧ r < 24) ∧
    (∃ (s : State) (l : Nat) (v : Word) (q : _),
      q < 8 ∧ (s.me.regs.q.getD q []).length < 4) ∧
    (∃ (s : State) (l : Nat) (v : Word) (q : _),
      q < 8 ∧ 4 ≤ (s.me.regs.q.getD q []).length) :=
  ⟨⟨tS, 23, by decide, by decide⟩,
   ⟨tOn (tLoop 0 7), 0, _, _, _, by decide, rfl, rfl⟩,
   ⟨tOn (tLoop 0 7), 1, by decide, (by intro e r h; cases h; rfl)⟩,
   ⟨tS, 3, 9, 1, by decide, by decide⟩,
   ⟨tOn (tLoop 0 7), 3, 9, 7, by decide, by decide⟩,
   ⟨tOn (tLoop 0 7), 3, 9, 1, by decide, by decide⟩⟩

theorem witness_TransferIssues :
    (∃ (i : Instr) (f : BranchForm) (s s' t : State) (xs : List Word),
      branchForm i = some f ∧ s.ready f.g ∧ banTransfer s.me = false ∧ (s.opened f.g false true []).readAll f.srcs = .ok (xs, s') ∧
        0 ≤ f.target s xs ∧ f.target s xs ≤ 8191 ∧
        (match f.link with | none => t = s'.ctl (.transfer (BitVec.ofInt 13 (f.target s xs))) | some d => (s'.ctl (.transfer (BitVec.ofInt 13 (f.target s xs)))).writeS d 1 (BitVec.ofNat 64 (s.me.seq.pc.toNat + 3)) = .ok t)) ∧
    (∃ (i : Instr) (f : BranchForm) (s s' : State) (xs : List Word),
      branchForm i = some f ∧ s.ready f.g ∧ banTransfer s.me = false ∧ (s.opened f.g false true []).readAll f.srcs = .ok (xs, s') ∧
        (f.target s xs < 0 ∨ 8191 < f.target s xs)) :=
  ⟨⟨.call always 8184, _, tS, _, _, _, rfl, ready_t, rfl, rfl, by decide, by decide, rfl⟩,
   ⟨.br always 0x1FFFF8, _, tS, _, _, rfl, ready_t, rfl, rfl, by decide⟩⟩

theorem witness_RegisterFrame :
    (∃ (i : Instr) (f : ScalarForm) (s s' t : State) (xs : List Word),
      scalarForm i = some f ∧ s.ready f.g ∧ Calm s.me ∧ (s.opened f.g false false []).readAll f.srcs = .ok (xs, s') ∧
        s'.writeS f.d f.l (f.value s xs) = .ok t) ∧
    (∃ (i : Instr) (f : PredForm) (s s' : State) (xs : List Word),
      predForm i = some f ∧ s.ready f.g ∧ Calm s.me ∧ (s.opened f.g false false []).readAll f.srcs = .ok (xs, s')) :=
  ⟨⟨.mul always 1 1 3, _, tS, _, _, _, rfl, ready_t, calm_t, rfl, rfl⟩,
   ⟨.pmovPs always 0 0, _, tS, _, _, rfl, ready_t, calm_t, rfl⟩⟩

theorem witness_GuardedOff :
    (∃ (i : Instr) (g : Guard) (s : State),
      guardField i = some g ∧ s.me.runs g = false ∧ s.latch.phase = .apply) ∧
    (∃ (i : Instr) (g : Guard) (s : State),
      guardField i = some g ∧ s.me.runs g = false ∧ s.latch.phase = .probe ∧ (∀ w ∈ s.me.seq.wait, w.slot ≠ s.latch.slot)) ∧
    (∃ (i : Instr) (g : Guard) (s : State),
      guardField i = some g ∧ s.me.runs g = false ∧ s.latch.phase = .solo ∧ (s.me.inDelay && s.me.atEnd) = false ∧
        (∀ w ∈ s.me.seq.wait, w.slot ≠ s.latch.slot) ∧ s.me.releasing = false ∧ s.me.overrun = none) ∧
    (∃ (i : Instr) (g : Guard) (s : State),
      guardField i = some g ∧ s.me.runs g = false ∧ s.latch.phase = .solo ∧ Calm s.me ∧ s.me.releasing = false ∧ s.me.overrun = none ∧
        s.me.sys.mode = true) :=
  ⟨⟨.ret ⟨1, 0⟩ 3, _, tOff, rfl, rfl, rfl⟩,
   ⟨.ret ⟨1, 0⟩ 3, _, { tOff with latch := { phase := .probe } }, rfl, rfl, rfl, (fun w h => by cases h)⟩,
   ⟨.ret ⟨1, 0⟩ 3, _, tOn (tLoop 2 7), rfl, rfl, rfl, rfl, (fun w h => by cases h), rfl, rfl⟩,
   ⟨.ret ⟨1, 0⟩ 3, _, tS, rfl, rfl, rfl, calm_t, rfl, rfl, rfl⟩⟩

theorem witness_TrapEntry :
    (∃ (s : State) (c : Fin 256) (r : TrapReq),
      (s.core c).settled = false) ∧
    (∃ (s : State) (c : Fin 256) (r : TrapReq),
      (s.core c).settled = true) ∧
    (∃ (k : Core) (r : TrapReq) (halts : Bool),
      k.ldepth ≤ 6 ∧ halts = (r.trap.cause.fatal || !k.sys.tvec.getLsbD 0 || k.live) ∧ halts = true) ∧
    (∃ (k : Core) (r : TrapReq) (halts : Bool) (x : _),
      k.ldepth ≤ 6 ∧ halts = (r.trap.cause.fatal || !k.sys.tvec.getLsbD 0 || k.live) ∧ halts = false ∧ k.seq.transfer = some x) :=
  ⟨⟨tOn { tCore with seq := { tCore.seq with pend := [⟨3, 0, .scalar 1 5⟩] } }, 0, tReq .privilege, rfl⟩,
   ⟨tS, 0, tReq .privilege, rfl⟩,
   ⟨tCore, tReq .landingWatchdog, true, by decide, rfl, rfl⟩,
   ⟨{ tCore with seq := { tCore.seq with transfer := some ⟨20, 2⟩ } }, tReq .privilege, false, ⟨20, 2⟩, by decide, rfl, rfl, rfl⟩⟩

theorem witness_TrapAtIssue :
    ∃ (s : State) (t : Trap) (slot : Nat),
      Calm s.me ∧ s.me.sys.tvec.getLsbD 0 = true ∧ s.me.live = false ∧ t.cause.fatal = false :=
  ⟨tS, { cause := .privilege }, 1, calm_t, rfl, rfl, rfl⟩

theorem witness_TrapInstructions :
    (∃ (g : Guard) (n : BitVec 15) (s : State),
      s.ready g ∧ Calm s.me ∧ s.me.seq.mode = .running ∧ s.me.sys.tvec.getLsbD 0 = true ∧ s.me.live = false) ∧
    (∃ (g : Guard) (n : BitVec 15) (s : State),
      s.ready g ∧ Calm s.me ∧ s.me.sys.mode = true) ∧
    (∃ (n : BitVec 15) (s : State),
      s.me.seq.mode = .serving n ∧ s.me.settled = true) :=
  ⟨⟨always, 32767, tS, ready_t, calm_t, rfl, rfl, rfl⟩,
   ⟨always, 0, tS, ready_t, calm_t, rfl⟩,
   ⟨5, tMode (.serving 5), rfl, rfl⟩⟩

theorem witness_TrapReturn :
    (∃ (g : Guard) (s : State),
      s.ready g ∧ s.me.inDelay = false ∧ s.me.atEnd = false ∧ s.me.sys.mode = true ∧ s.me.settled = true ∧ s.me.live = true) ∧
    (∃ (g : Guard) (s : State) (q : Nat) (cmd : Cmd),
      s.ready g ∧ s.me.inDelay = false ∧ s.me.atEnd = false ∧ s.me.sys.mode = true ∧ s.me.settled = true ∧ s.me.live = true ∧ q < 3 ∧
        s.me.eng.fault.getD q none = some cmd) :=
  ⟨⟨always, tHandler, ready_h, rfl, rfl, rfl, rfl, rfl⟩,
   ⟨always, tOn { tCore with sys := { tCore.sys with mode := true, epc := 0x800005 }, eng := { tCore.eng with fault := #v[none, none, some (tCommand 2 0x50)] } },
    2, _, ⟨rfl, by decide, rfl, rfl, rfl, rfl, rfl, by decide⟩, rfl, rfl, rfl, rfl, rfl, by decide, rfl⟩⟩

theorem witness_LoadIssues :
    (∃ (i : Instr) (f : AccessForm) (d : BitVec 5) (sg : Bool) (s s' : State) (x : Word) (t : _),
      loadForm i = some (f, d, sg) ∧ s.ready f.g ∧ s.cached [f.h.toNat] ∧ (f.opened s).readS f.o.toNat = .ok (x, s') ∧ f.off x % f.n = 0 ∧
        coreFail (f.entry s) (f.off x) f.n false = none ∧ firstPoison s.me.poison (localAddr (f.entry s) (f.off x)) f.n = none ∧
        s'.writeS d.toNat 4 (loaded f.n sg (s.me.bytes (localAddr (f.entry s) (f.off x)) f.n)) = .ok t) ∧
    (∃ (i : Instr) (f : AccessForm) (d : BitVec 5) (sg : Bool) (s s' : State) (x : Word) (t : _) (r : _) (b : _),
      loadForm i = some (f, d, sg) ∧ s.ready f.g ∧ s.cached [f.h.toNat] ∧ (f.opened s).readS f.o.toNat = .ok (x, s') ∧ f.off x % f.n = 0 ∧
        coreFail (f.entry s) (f.off x) f.n false = some (r, b) ∧ (s'.violate s.memUnit f.h.toNat (f.off x) b r).writeS d.toNat 4 0 = .ok t) ∧
    (∃ (i : Instr) (f : AccessForm) (d : BitVec 5) (sg : Bool) (s s' : State) (x : Word) (k : _),
      loadForm i = some (f, d, sg) ∧ s.ready f.g ∧ s.cached [f.h.toNat] ∧ (f.opened s).readS f.o.toNat = .ok (x, s') ∧ f.off x % f.n = 0 ∧
        coreFail (f.entry s) (f.off x) f.n false = none ∧ firstPoison s.me.poison (localAddr (f.entry s) (f.off x)) f.n = some k) :=
  ⟨⟨.ld32s always 1 5 6 0, _, _, _, tOn tMem, _, _, _, rfl, ready_m, rfl, State.readS_reg _ (by decide), rfl, (by decide +kernel), rfl, rfl⟩,
   ⟨.ld16 always 1 5 0 7, _, _, _, tOn tMem, _, _, _, .bounds, 128, rfl, ready_m, rfl, State.readS_reg _ (by decide), rfl, (by decide +kernel), rfl⟩,
   ⟨.ld8 always 24 7 0 0, _, _, _, tOn tMem, _, _, _, rfl, ready_m, rfl, State.readS_reg _ (by decide), rfl, (by decide +kernel), rfl⟩⟩

theorem witness_StoreIssues :
    (∃ (i : Instr) (f : AccessForm) (d : BitVec 5) (s s1 s' : State) (x v : Word),
      storeForm i = some (f, d) ∧ s.ready f.g ∧ s.cached [f.h.toNat] ∧ (f.opened s).readS f.o.toNat = .ok (x, s1) ∧ f.off x % f.n = 0 ∧
        s1.readS d.toNat = .ok (v, s') ∧ coreFail (f.entry s) (f.off x) f.n true = none) ∧
    (∃ (i : Instr) (f : AccessForm) (d : BitVec 5) (s s1 s' : State) (x v : Word) (r : _) (b : _),
      storeForm i = some (f, d) ∧ s.ready f.g ∧ s.cached [f.h.toNat] ∧ (f.opened s).readS f.o.toNat = .ok (x, s1) ∧ f.off x % f.n = 0 ∧
        s1.readS d.toNat = .ok (v, s') ∧ coreFail (f.entry s) (f.off x) f.n true = some (r, b)) :=
  ⟨⟨.st32 always 1 5 6 0, _, _, tOn tMem, _, _, _, _, rfl, ready_m, rfl, State.readS_reg _ (by decide), rfl, State.readS_reg _ (by decide),
    (by decide +kernel)⟩,
   ⟨.st16 always 1 5 0 7, _, _, tOn tMem, _, _, _, _, .bounds, 128, rfl, ready_m, rfl, State.readS_reg _ (by decide), rfl, State.readS_reg _ (by decide),
    (by decide +kernel)⟩⟩

/-- The same core, its map 1 with elements of 4 bytes that stand 5 bytes apart. -/
def tSkew : Core := { tVec with vec := { tVec.vec with tm := tVec.vec.tm.set 1 (tMap + 2 ^ 136) } }
theorem ready_k : (tOn tSkew).ready always := ⟨rfl, by decide, rfl, rfl, rfl, rfl, rfl, by decide⟩

theorem witness_MisalignedAccess :
    (∃ (i : Instr) (f : AccessForm) (s s' : State) (x : Word),
      accessForm i = some f ∧ s.ready f.g ∧ s.cached [f.h.toNat] ∧ (f.once = true → s.me.rpl = false) ∧ (f.opened s).readS f.o.toNat = .ok (x, s') ∧
        f.off x % f.n ≠ 0) ∧
    (∃ (g : Guard) (v m : BitVec 4) (x : BitVec 5) (k : BitVec 3) (c t : BitVec 1) (s s' : State) (z : Word) (map : BitVec 512) (e : BitVec 256) (f : Fmt) (w : Nat) (places : List (Nat × Nat × Loc)) (out : List (Nat × ERead)) (p : Nat × ERead) (n r : Nat) (l : Loc) (y : Nat → Nat × Flags),
      s.ready g ∧ s.cached (s.tileUses m (decide (c = 1))) ∧
        (s.opened g false false (s.tileUses m (decide (c = 1)))).readS x.toNat = .ok (z, s') ∧ s'.tileChecks m (decide (c = 1)) (fun _ => .ok ()) = .ok (map, e, f, w) ∧
        (k ≠ 0 → (s.me.vreg v).tag = f.tag) ∧ places = s.me.tile map w z (decide (t = 1)) ∧
        out = (places.map fun q => (q.1, readElem f w (decide (c = 1)) (s.me.localRd e false) (s.me.localRd f.sh.e false) q.2.1 q.2.2)) ∧
        (∀ q ∈ out, q.2.poison = none) ∧ (places.zip out).find? (fun q => q.2.2.bad.isSome || q.2.2.sbad.isSome) = some ((n, r, l), p) ∧
        l.inside = true ∧ l.off % max 1 (w / 8) ≠ 0 ∧
        (∀ n, y n = match out.find? fun q => q.1 = n with | some q => if q.2.bad.isSome then (0, 0) else if c = 1 then FFmt.fp32.encode q.2.val .rne else (q.2.bits, 0) | none => (0, 0))) ∧
    (∃ (g : Guard) (v m : BitVec 4) (x : BitVec 5) (k : BitVec 3) (c t : BitVec 1) (s s' : State) (z : Word) (map : BitVec 512) (e : BitVec 256) (f : Fmt) (w : Nat) (places good : List (Nat × Nat × Loc)) (p : Nat × Nat × Loc) (ws : List EWrite) (ps : List Put) (fls : List Flags) (sbs : List (Option (Bool × Nat))) (cells : List Host.Cell),
      s.ready g ∧ s.cached (s.tileUses m (decide (c = 1))) ∧
        (s.opened g true false (s.tileUses m (decide (c = 1)))).readS x.toNat = .ok (z, s') ∧ s'.tileChecks m (decide (c = 1)) (fun _ => .ok ()) = .ok (map, e, f, w) ∧
        (s.me.vreg v).tag = f.tag ∧ places = ((s.me.tile map w z (decide (t = 1))).filter fun q => s.me.kbit k q.1) ∧
        good = (places.filter fun q => (readElem f w false (s.me.localRd e true) (s.me.localRd e true) q.2.1 q.2.2).bad.isNone) ∧
        places.find? (fun q => (readElem f w false (s.me.localRd e true) (s.me.localRd e true) q.2.1 q.2.2).bad.isSome) = some p ∧
        p.2.2.inside = true ∧ p.2.2.off % max 1 (w / 8) ≠ 0 ∧
        ws = ((List.range s.me.elems).filterMap fun n => (good.find? fun q => q.1 = n).map fun q => ({ loc := q.2.2, i1 := q.2.1, bits := (elemsOf (s.me.vreg v).bits s.me.ew s.me.elems).getD n 0, val := FFmt.fp32.decode ((elemsOf (s.me.vreg v).bits s.me.ew s.me.elems).getD n 0), idx := n } : EWrite)) ∧
        (c = 1 → narrow f (s.rndFor false (s.me.sys.fpstat.getLsbD 11)) (s.me.localRd f.sh.e false) (fun n => Config.freeNat (s.free + n)) ws = (ps, fls, sbs) ∧ (∀ b ∈ sbs, b = none) ∧ chanPoison f (s.me.localRd f.sh.e false) (good.map fun q => q.2.1) = none) ∧
        (c = 0 → ps = (ws.map fun y => y.put f w y.bits) ∧ fls = []) ∧ (∀ q ∈ ps, putFail (s.me.localRd e true) (s.me.localRd f.sh.e true) q = none) ∧
        cells = putCells (fun side o => if side then localAddr f.sh.e o else localAddr e o) s.me.byte ps []) :=
  ⟨⟨.ld32 always 1 5 1 0, _, tOn tMem, _, _, rfl, ready_m, rfl, (by decide), State.readS_reg _ (by decide), by decide⟩,
   ⟨always, 4, 1, 0, 1, 0, 0, tOn tSkew, _, _, _, _, _, _, _, _, _, _, _, _, _, ready_k, rfl, State.readS_reg _ (by decide), rfl, (fun _ => rfl), rfl, rfl,
    (by decide +kernel), (rfl), rfl, (by decide +kernel), (fun n => rfl)⟩,
   ⟨always, 1, 1, 0, 0, 0, 0, tOn tSkew, _, _, _, _, _, _, _, _, _, _, _, [], [], _, ready_k, rfl, State.readS_reg _ (by decide), rfl, rfl, rfl, rfl, (rfl), rfl,
    (by decide +kernel), (rfl), (fun h => absurd h (by decide)), (fun _ => ⟨rfl, rfl⟩), (by decide +kernel), (rfl)⟩⟩

theorem witness_AtomicIssues :
    (∃ (i : Instr) (f : AccessForm) (d : BitVec 5) (op : AtomOp) (u : Bool) (s s' : State) (x : Word) (t : _) (old : _),
      atomForm i = some (f, d, op, u) ∧ s.ready f.g ∧ s.cached [f.h.toNat] ∧ (f.opened s).readS f.o.toNat = .ok (x, s') ∧ f.off x % f.n = 0 ∧
        coreFail (f.entry s) (f.off x) f.n true = none ∧ firstPoison s.me.poison (localAddr (f.entry s) (f.off x)) f.n = none ∧
        old = leNat (s.me.bytes (localAddr (f.entry s) (f.off x)) f.n) ∧
        (atomPut s' op u (cellsAt (localAddr (f.entry s) (f.off x)) f.n (atomStep op (8 * f.n) u old ((s.me.sreg d.toNat).toNat % 2 ^ (8 * f.n)) ((s.me.sreg (d.toNat + 1)).toNat % 2 ^ (8 * f.n)))) ((s.me.sreg d.toNat).toNat % 2 ^ (8 * f.n)) ((s.me.sreg (d.toNat + 1)).toNat % 2 ^ (8 * f.n))).writeS d.toNat 4 (atomOld f.n u old) = .ok t) ∧
    (∃ (i : Instr) (f : AccessForm) (d : BitVec 5) (op : AtomOp) (u : Bool) (s s' : State) (x : Word) (t : _) (r : _) (b : _),
      atomForm i = some (f, d, op, u) ∧ s.ready f.g ∧ s.cached [f.h.toNat] ∧ (f.opened s).readS f.o.toNat = .ok (x, s') ∧ f.off x % f.n = 0 ∧
        coreFail (f.entry s) (f.off x) f.n true = some (r, b) ∧ (s'.violate s.memUnit f.h.toNat (f.off x) b r).writeS d.toNat 4 0 = .ok t) ∧
    (∃ (i : Instr) (f : AccessForm) (d : BitVec 5) (op : AtomOp) (u : Bool) (s s' : State) (x : Word) (k : _),
      atomForm i = some (f, d, op, u) ∧ s.ready f.g ∧ s.cached [f.h.toNat] ∧ (f.opened s).readS f.o.toNat = .ok (x, s') ∧ f.off x % f.n = 0 ∧
        coreFail (f.entry s) (f.off x) f.n true = none ∧ firstPoison s.me.poison (localAddr (f.entry s) (f.off x)) f.n = some k) :=
  ⟨⟨.atomAdd always 2 5 6 0 0, _, _, _, _, tOn tMem, _, _, _, _, rfl, ready_m, rfl, State.readS_reg _ (by decide), rfl, (by decide +kernel), rfl, rfl,
    rfl⟩,
   ⟨.atomCas always 2 6 0 1 0, _, _, _, _, tOn tMem, _, _, _, .space, 0, rfl, ready_m, rfl, State.readS_reg _ (by decide), rfl, (by decide +kernel), rfl⟩,
   ⟨.atomMin always 2 7 0 0 1, _, _, _, _, tOn tMem, _, _, _, rfl, ready_m, rfl, State.readS_reg _ (by decide), rfl, (by decide +kernel), rfl⟩⟩

theorem witness_RemoteAtomicIssues :
    (∃ (i : Instr) (f : AccessForm) (d : BitVec 5) (op : AtomOp) (u far : Bool) (s s' : State) (x : Word),
      ratomForm i = some (f, d, op, u, far) ∧ s.ready f.g 1 ∧ s.me.rpl = false ∧ s.me.fenced = false ∧ s.cached [f.h.toNat] ∧
        (f.opened s).readS f.o.toNat = .ok (x, s') ∧ f.off x % f.n = 0 ∧ remoteFail (f.entry s) (f.off x) f.n = none) ∧
    (∃ (i : Instr) (f : AccessForm) (d : BitVec 5) (op : AtomOp) (u far : Bool) (s s' : State) (x : Word) (r : _) (b : _),
      ratomForm i = some (f, d, op, u, far) ∧ s.ready f.g 1 ∧ s.me.rpl = false ∧ s.me.fenced = false ∧ s.cached [f.h.toNat] ∧
        (f.opened s).readS f.o.toNat = .ok (x, s') ∧ f.off x % f.n = 0 ∧ remoteFail (f.entry s) (f.off x) f.n = some (r, b)) :=
  ⟨⟨.ratomMax always 2 6 0 1 0 1, _, _, _, _, _, tOn tMem, _, _, rfl, ready_m1, rfl, rfl, rfl, State.readS_reg _ (by decide), rfl, (by decide +kernel)⟩,
   ⟨.ratomMax always 2 5 0 1 0 1, _, _, _, _, _, tOn tMem, _, _, .space, 0, rfl, ready_m1, rfl, rfl, rfl, State.readS_reg _ (by decide), rfl,
    (by decide +kernel)⟩⟩

theorem witness_TensorMapIssues :
    (∃ (i : Instr) (f : AccessForm) (g : Guard) (m z : BitVec 4) (h : BitVec 8) (o : BitVec 5) (s s' : State) (x : Word),
      i = .tmld g m h o z ∧ accessForm i = some f ∧ s.ready g ∧ s.cached [h.toNat] ∧ (f.opened s).readS o.toNat = .ok (x, s') ∧ f.off x % 64 = 0 ∧
        coreFail (f.entry s) (f.off x) 64 false = none ∧ firstPoison s.me.poison (localAddr (f.entry s) (f.off x)) 64 = none ∧
        TMap.reserved (BitVec.ofNat 512 (leNat (s.me.bytes (localAddr (f.entry s) (f.off x)) 64))) = false) ∧
    (∃ (i : Instr) (f : AccessForm) (g : Guard) (m z : BitVec 4) (h : BitVec 8) (o : BitVec 5) (s s' : State) (x : Word) (k : _),
      i = .tmld g m h o z ∧ accessForm i = some f ∧ s.ready g ∧ s.cached [h.toNat] ∧ (f.opened s).readS o.toNat = .ok (x, s') ∧ f.off x % 64 = 0 ∧
        coreFail (f.entry s) (f.off x) 64 false = none ∧ firstPoison s.me.poison (localAddr (f.entry s) (f.off x)) 64 = some k) ∧
    (∃ (i : Instr) (f : AccessForm) (g : Guard) (m z : BitVec 4) (h : BitVec 8) (o : BitVec 5) (s s' : State) (x : Word),
      i = .tmld g m h o z ∧ accessForm i = some f ∧ s.ready g ∧ s.cached [h.toNat] ∧ (f.opened s).readS o.toNat = .ok (x, s') ∧ f.off x % 64 = 0 ∧
        coreFail (f.entry s) (f.off x) 64 false = none ∧ firstPoison s.me.poison (localAddr (f.entry s) (f.off x)) 64 = none ∧
        TMap.reserved (BitVec.ofNat 512 (leNat (s.me.bytes (localAddr (f.entry s) (f.off x)) 64))) = true) ∧
    (∃ (i : Instr) (f : AccessForm) (g : Guard) (m z : BitVec 4) (h : BitVec 8) (o : BitVec 5) (s s' : State) (x : Word) (r : _) (b : _),
      i = .tmld g m h o z ∧ accessForm i = some f ∧ s.ready g ∧ s.cached [h.toNat] ∧ (f.opened s).readS o.toNat = .ok (x, s') ∧ f.off x % 64 = 0 ∧
        coreFail (f.entry s) (f.off x) 64 false = some (r, b)) ∧
    (∃ (i : Instr) (f : AccessForm) (g : Guard) (m z : BitVec 4) (h : BitVec 8) (o : BitVec 5) (s s' : State) (x : Word),
      i = .tmst g m h o z ∧ accessForm i = some f ∧ s.ready g ∧ s.me.rpl = false ∧ s.cached [h.toNat] ∧ (f.opened s).readS o.toNat = .ok (x, s') ∧
        f.off x % 64 = 0 ∧ coreFail (f.entry s) (f.off x) 64 true = none) ∧
    (∃ (i : Instr) (f : AccessForm) (g : Guard) (m z : BitVec 4) (h : BitVec 8) (o : BitVec 5) (s s' : State) (x : Word) (r : _) (b : _),
      i = .tmst g m h o z ∧ accessForm i = some f ∧ s.ready g ∧ s.me.rpl = false ∧ s.cached [h.toNat] ∧ (f.opened s).readS o.toNat = .ok (x, s') ∧
        f.off x % 64 = 0 ∧ coreFail (f.entry s) (f.off x) 64 true = some (r, b)) ∧
    (∃ (g : Guard) (m : BitVec 4) (a : BitVec 5) (x : BitVec 6) (s s' : State) (v : Word),
      s.ready g ∧ (s.opened g false false []).readS a.toNat = .ok (v, s') ∧ (x = 32 → v.toNat / 2 ^ 41 % 128 = 0)) ∧
    (∃ (g : Guard) (m : BitVec 4) (s : State),
      s.ready g) :=
  ⟨⟨.tmld always 3 5 0 0, _, _, _, _, _, _, tOn tMem, _, _, rfl, rfl, ready_m, rfl, State.readS_reg _ (by decide), rfl, (by decide +kernel), rfl,
    (by decide +kernel)⟩,
   ⟨.tmld always 3 7 0 0, _, _, _, _, _, _, tOn tMem, _, _, _, rfl, rfl, ready_m, rfl, State.readS_reg _ (by decide), rfl, (by decide +kernel), rfl⟩,
   ⟨.tmld always 3 5 0 0, _, _, _, _, _, _, tOn { tMem with sto := { tMem.sto with spad := [(0x6013F, 1)] } }, _, _, rfl, rfl,
    ⟨rfl, by decide, rfl, rfl, rfl, rfl, rfl, by decide⟩, rfl, State.readS_reg _ (by decide), rfl, (by decide +kernel), rfl, (by decide +kernel)⟩,
   ⟨.tmld always 3 5 0 1, _, _, _, _, _, _, tOn tMem, _, _, .bounds, 64, rfl, rfl, ready_m, rfl, State.readS_reg _ (by decide), rfl, (by decide +kernel)⟩,
   ⟨.tmst always 3 5 0 0, _, _, _, _, _, _, tOn tMem, _, _, rfl, rfl, ready_m, rfl, rfl, State.readS_reg _ (by decide), rfl, (by decide +kernel)⟩,
   ⟨.tmst always 3 5 0 1, _, _, _, _, _, _, tOn tMem, _, _, .bounds, 64, rfl, rfl, ready_m, rfl, rfl, State.readS_reg _ (by decide), rfl,
    (by decide +kernel)⟩,
   ⟨always, 15, 1, 32, tS, _, _, ready_t, State.readS_reg _ (by decide), (by decide)⟩,
   ⟨always, 0, tS, ready_t⟩⟩

theorem witness_VectorLoad :
    ∃ (g : Guard) (v m : BitVec 4) (x : BitVec 5) (k : BitVec 3) (c t : BitVec 1) (s s' : State) (z : Word) (map : BitVec 512) (e : BitVec 256) (f : Fmt) (w : Nat) (out : List (Nat × ERead)) (y : Nat → Nat × Flags),
      s.ready g ∧ s.cached (s.tileUses m (decide (c = 1))) ∧
        (s.opened g false false (s.tileUses m (decide (c = 1)))).readS x.toNat = .ok (z, s') ∧ s'.tileChecks m (decide (c = 1)) (fun _ => .ok ()) = .ok (map, e, f, w) ∧
        (k ≠ 0 → (s.me.vreg v).tag = f.tag) ∧
        out = ((s.me.tile map w z (decide (t = 1))).map fun p => (p.1, readElem f w (decide (c = 1)) (s.me.localRd e false) (s.me.localRd f.sh.e false) p.2.1 p.2.2)) ∧
        (∀ p ∈ out, p.2.bad = none ∧ p.2.sbad = none ∧ p.2.poison = none) ∧
        (∀ n, y n = match out.find? fun p => p.1 = n with | some p => if c = 1 then FFmt.fp32.encode p.2.val .rne else (p.2.bits, 0) | none => (0, 0)) :=
  ⟨always, 4, 1, 0, 1, 0, 0, tOn tVec, _, _, _, _, _, _, _, _, ready_v, rfl, State.readS_reg _ (by decide), rfl, (fun _ => rfl), (rfl),
    (by decide +kernel), (fun n => rfl)⟩

theorem witness_VectorStore :
    (∃ (g : Guard) (v m : BitVec 4) (x : BitVec 5) (k : BitVec 3) (c t : BitVec 1) (s s' : State) (z : Word) (map : BitVec 512) (e : BitVec 256) (f : Fmt) (w : Nat) (ws : List EWrite) (ps : List Put) (fls : List Flags) (sbs : List (Option (Bool × Nat))) (cells : List Host.Cell),
      s.ready g ∧ s.cached (s.tileUses m (decide (c = 1))) ∧
        (s.opened g true false (s.tileUses m (decide (c = 1)))).readS x.toNat = .ok (z, s') ∧ s'.tileChecks m (decide (c = 1)) (fun _ => .ok ()) = .ok (map, e, f, w) ∧
        (s.me.vreg v).tag = f.tag ∧
        (∀ p ∈ s.me.tile map w z (decide (t = 1)), (readElem f w false (s.me.localRd e true) (s.me.localRd e true) p.2.1 p.2.2).bad = none) ∧
        ws = ((List.range s.me.elems).filterMap fun n => (((s.me.tile map w z (decide (t = 1))).filter fun p => s.me.kbit k p.1).find? fun p => p.1 = n).map fun p => ({ loc := p.2.2, i1 := p.2.1, bits := (elemsOf (s.me.vreg v).bits s.me.ew s.me.elems).getD n 0, val := FFmt.fp32.decode ((elemsOf (s.me.vreg v).bits s.me.ew s.me.elems).getD n 0), idx := n } : EWrite)) ∧
        (c = 1 → narrow f (s.rndFor false (s.me.sys.fpstat.getLsbD 11)) (s.me.localRd f.sh.e false) (fun n => Config.freeNat (s.free + n)) ws = (ps, fls, sbs) ∧ (∀ b ∈ sbs, b = none) ∧ chanPoison f (s.me.localRd f.sh.e false) (((s.me.tile map w z (decide (t = 1))).filter fun p => s.me.kbit k p.1).map fun p => p.2.1) = none) ∧
        (c = 0 → ps = (ws.map fun y => y.put f w y.bits) ∧ fls = []) ∧ (∀ p ∈ ps, putFail (s.me.localRd e true) (s.me.localRd f.sh.e true) p = none) ∧
        cells = putCells (fun side o => if side then localAddr f.sh.e o else localAddr e o) s.me.byte ps [] ∧ c = 1) ∧
    (∃ (g : Guard) (v m : BitVec 4) (x : BitVec 5) (k : BitVec 3) (c t : BitVec 1) (s s' : State) (z : Word) (map : BitVec 512) (e : BitVec 256) (f : Fmt) (w : Nat) (ws : List EWrite) (ps : List Put) (fls : List Flags) (sbs : List (Option (Bool × Nat))) (cells : List Host.Cell) (u : _) (a : _),
      s.ready g ∧ s.cached (s.tileUses m (decide (c = 1))) ∧
        (s.opened g true false (s.tileUses m (decide (c = 1)))).readS x.toNat = .ok (z, s') ∧ s'.tileChecks m (decide (c = 1)) (fun _ => .ok ()) = .ok (map, e, f, w) ∧
        (s.me.vreg v).tag = f.tag ∧
        (∀ p ∈ s.me.tile map w z (decide (t = 1)), (readElem f w false (s.me.localRd e true) (s.me.localRd e true) p.2.1 p.2.2).bad = none) ∧
        ws = ((List.range s.me.elems).filterMap fun n => (((s.me.tile map w z (decide (t = 1))).filter fun p => s.me.kbit k p.1).find? fun p => p.1 = n).map fun p => ({ loc := p.2.2, i1 := p.2.1, bits := (elemsOf (s.me.vreg v).bits s.me.ew s.me.elems).getD n 0, val := FFmt.fp32.decode ((elemsOf (s.me.vreg v).bits s.me.ew s.me.elems).getD n 0), idx := n } : EWrite)) ∧
        (c = 1 → narrow f (s.rndFor false (s.me.sys.fpstat.getLsbD 11)) (s.me.localRd f.sh.e false) (fun n => Config.freeNat (s.free + n)) ws = (ps, fls, sbs) ∧ (∀ b ∈ sbs, b = none) ∧ chanPoison f (s.me.localRd f.sh.e false) (((s.me.tile map w z (decide (t = 1))).filter fun p => s.me.kbit k p.1).map fun p => p.2.1) = none) ∧
        (c = 0 → ps = (ws.map fun y => y.put f w y.bits) ∧ fls = []) ∧ (∀ p ∈ ps, putFail (s.me.localRd e true) (s.me.localRd f.sh.e true) p = none) ∧
        cells = putCells (fun side o => if side then localAddr f.sh.e o else localAddr e o) s.me.byte ps [] ∧ Calm s.me ∧ s.inv ∧
        exec (.vst g v m x k c t) s = .next u ∧ (∀ p ∈ cells, p.1 ≠ a)) ∧
    (∃ (g : Guard) (v m : BitVec 4) (x : BitVec 5) (k : BitVec 3) (c t : BitVec 1) (s s' : State) (z : Word) (map : BitVec 512) (e : BitVec 256) (f : Fmt) (w : Nat) (ws : List EWrite) (ps : List Put) (fls : List Flags) (sbs : List (Option (Bool × Nat))) (cells : List Host.Cell) (u : _) (o : _),
      s.ready g ∧ s.cached (s.tileUses m (decide (c = 1))) ∧
        (s.opened g true false (s.tileUses m (decide (c = 1)))).readS x.toNat = .ok (z, s') ∧ s'.tileChecks m (decide (c = 1)) (fun _ => .ok ()) = .ok (map, e, f, w) ∧
        (s.me.vreg v).tag = f.tag ∧
        (∀ p ∈ s.me.tile map w z (decide (t = 1)), (readElem f w false (s.me.localRd e true) (s.me.localRd e true) p.2.1 p.2.2).bad = none) ∧
        ws = ((List.range s.me.elems).filterMap fun n => (((s.me.tile map w z (decide (t = 1))).filter fun p => s.me.kbit k p.1).find? fun p => p.1 = n).map fun p => ({ loc := p.2.2, i1 := p.2.1, bits := (elemsOf (s.me.vreg v).bits s.me.ew s.me.elems).getD n 0, val := FFmt.fp32.decode ((elemsOf (s.me.vreg v).bits s.me.ew s.me.elems).getD n 0), idx := n } : EWrite)) ∧
        (c = 1 → narrow f (s.rndFor false (s.me.sys.fpstat.getLsbD 11)) (s.me.localRd f.sh.e false) (fun n => Config.freeNat (s.free + n)) ws = (ps, fls, sbs) ∧ (∀ b ∈ sbs, b = none) ∧ chanPoison f (s.me.localRd f.sh.e false) (((s.me.tile map w z (decide (t = 1))).filter fun p => s.me.kbit k p.1).map fun p => p.2.1) = none) ∧
        (c = 0 → ps = (ws.map fun y => y.put f w y.bits) ∧ fls = []) ∧ (∀ p ∈ ps, putFail (s.me.localRd e true) (s.me.localRd f.sh.e true) p = none) ∧
        cells = putCells (fun side o => if side then localAddr f.sh.e o else localAddr e o) s.me.byte ps [] ∧ Calm s.me ∧ s.inv ∧
        exec (.vst g v m x k c t) s = .next u ∧ o ≠ s.cur) :=
  ⟨⟨always, 1, 2, 0, 0, 1, 0, tOn tVec, _, _, _, _, _, _, _, _, _, _, _, ready_v, rfl, State.readS_reg _ (by decide), rfl, rfl,
    (by decide +kernel), rfl, (fun _ => ⟨rfl, by decide +kernel, rfl⟩), nofun, (by decide +kernel), rfl, rfl⟩,
   ⟨always, 1, 1, 0, 1, 0, 0, tOn tVec, _, _, _, _, _, _, _, _, [], [], _, _, 0, ready_v, rfl, State.readS_reg _ (by decide), rfl, rfl,
    (by decide +kernel), (rfl), (fun h => absurd h (by decide)), (fun _ => ⟨rfl, rfl⟩),
    (by decide +kernel), (rfl), calm_v, (inv_v), (rfl), (by decide +kernel)⟩,
   ⟨always, 1, 1, 0, 1, 0, 0, tOn tVec, _, _, _, _, _, _, _, _, [], [], _, _, 9, ready_v, rfl, State.readS_reg _ (by decide), rfl, rfl,
    (by decide +kernel), (rfl), (fun h => absurd h (by decide)), (fun _ => ⟨rfl, rfl⟩),
    (by decide +kernel), (rfl), calm_v, (inv_v), (rfl), (by decide +kernel)⟩⟩

theorem witness_TagTableIssues :
    (∃ (g : Guard) (d a : BitVec 5) (s s' t : State) (k v : Word),
      s.ready g ∧ (s.opened g false false []).readS a.toNat = .ok (k, s') ∧
        (∀ n, n < 64 → (s.me.sto.tags.getD n {}).v = true → (s.me.sto.tags.getD n {}).key = k → (∀ m, m < n → ¬ ((s.me.sto.tags.getD m {}).v = true ∧ (s.me.sto.tags.getD m {}).key = k)) → v = BitVec.ofNat 64 (n + (s.me.sto.tags.getD n {}).payload.toNat * 64)) ∧
        ((∀ n, n < 64 → ¬ ((s.me.sto.tags.getD n {}).v = true ∧ (s.me.sto.tags.getD n {}).key = k)) → v = BitVec.allOnes 64) ∧
        s'.writeS d.toNat 4 v = .ok t) ∧
    (∃ (g : Guard) (d a b : BitVec 5) (s s1 s' t : State) (k x : Word),
      s.ready g ∧ s.me.rpl = false ∧ (s.opened g true false []).readS a.toNat = .ok (k, s1) ∧ s1.readS b.toNat = .ok (x, s') ∧
        (if x.toNat / 64 % 2 ^ 26 ≠ 0 then s'.writeS d.toNat 4 5 else if (s.me.sto.tags.getD (x.toNat % 64) {}).v = true ∧ (s.me.sto.tags.getD (x.toNat % 64) {}).pins ≠ 0 then s'.writeS d.toNat 4 1 else (s'.setTag (x.toNat % 64) ⟨true, 0, BitVec.ofNat 32 (x.toNat / 2 ^ 32), k⟩).writeS d.toNat 4 0) = .ok t) ∧
    (∃ (i : Instr) (g : Guard) (d a : BitVec 5) (f : TagEntry → Nat × TagEntry) (s s' t : State) (x : Word),
      tagForm i = some (g, d, a, f) ∧ s.ready g ∧ s.me.rpl = false ∧ (s.opened g true false []).readS a.toNat = .ok (x, s') ∧
        (if 63 < x.toNat then s'.writeS d.toNat 4 5 else (s'.setTag x.toNat (f (s.me.sto.tags.getD x.toNat {})).2).writeS d.toNat 4 (BitVec.ofNat 64 (f (s.me.sto.tags.getD x.toNat {})).1)) = .ok t) ∧
    (∃ (g : Guard) (d a b : BitVec 5) (s s1 s' : State) (k c : Word),
      s.ready g 1 ∧ (s.opened g false false []).readS a.toNat = .ok (k, s1) ∧ s1.readS b.toNat = .ok (c, s') ∧ c.toNat ≤ 255 ∧ d.toNat < 24) ∧
    (∃ (g : Guard) (d a b : BitVec 5) (s s1 s' : State) (k c : Word),
      s.ready g 1 ∧ (s.opened g false false []).readS a.toNat = .ok (k, s1) ∧ s1.readS b.toNat = .ok (c, s') ∧ c.toNat ≤ 255 ∧ 24 ≤ d.toNat ∧
        (s'.me.regs.q.getD (d.toNat - 24) []).length < 4) ∧
    (∃ (g : Guard) (d a b : BitVec 5) (s s1 s' : State) (k c : Word),
      s.ready g 1 ∧ (s.opened g false false []).readS a.toNat = .ok (k, s1) ∧ s1.readS b.toNat = .ok (c, s') ∧ 255 < c.toNat) :=
  ⟨⟨always, 1, 2, tOn tMem, _, _, _, BitVec.ofNat 64 (9 + 4 * 64), ready_m, State.readS_reg _ (by decide), (by decide),
    (by intro h; exact absurd (h 9 (by decide)) (by decide)), rfl⟩,
   ⟨always, 1, 2, 1, tOn tMem, _, _, _, _, _, ready_m, rfl, State.readS_reg _ (by decide), State.readS_reg _ (by decide), rfl⟩,
   ⟨.tdel always 1 23, _, 1, 23, _, tOn tMem, _, _, _, rfl, ready_m, rfl, State.readS_reg _ (by decide), rfl⟩,
   ⟨always, 1, 2, 3, tOn tMem, _, _, _, _, ready_m1, State.readS_reg _ (by decide), State.readS_reg _ (by decide), by decide, by decide⟩,
   ⟨always, 31, 2, 3, tOn tMem, _, _, _, _, ready_m1, State.readS_reg _ (by decide), State.readS_reg _ (by decide), by decide, by decide, by decide⟩,
   ⟨always, 1, 2, 3, tOn { tMem with regs := { tMem.regs with s := Vector.replicate 24 256 } }, _, _, _, _,
    ⟨rfl, by decide, rfl, rfl, rfl, rfl, rfl, by decide⟩, State.readS_reg _ (by decide), State.readS_reg _ (by decide), by decide⟩⟩

theorem witness_AccessFrame :
    (∃ (i : Instr) (f : AccessForm) (d : BitVec 5) (s s1 s' : State) (x v : Word),
      storeForm i = some (f, d) ∧ s.ready f.g ∧ Calm s.me ∧ s.inv ∧ s.cached [f.h.toNat] ∧ (f.opened s).readS f.o.toNat = .ok (x, s1) ∧
        f.off x % f.n = 0 ∧ s1.readS d.toNat = .ok (v, s') ∧ coreFail (f.entry s) (f.off x) f.n true = none) ∧
    (∃ (i : Instr) (f : AccessForm) (d : BitVec 5) (sg : Bool) (s s' t : State) (x : Word),
      loadForm i = some (f, d, sg) ∧ s.ready f.g ∧ Calm s.me ∧ s.cached [f.h.toNat] ∧ (f.opened s).readS f.o.toNat = .ok (x, s') ∧ f.off x % f.n = 0 ∧
        coreFail (f.entry s) (f.off x) f.n false = none ∧ firstPoison s.me.poison (localAddr (f.entry s) (f.off x)) f.n = none ∧
        s'.writeS d.toNat 4 (loaded f.n sg (s.me.bytes (localAddr (f.entry s) (f.off x)) f.n)) = .ok t) :=
  ⟨⟨.st64 always 1 5 4 0, _, _, tOn tMem, _, _, _, _, rfl, ready_m, calm_m, inv_m, rfl, State.readS_reg _ (by decide), rfl,
    State.readS_reg _ (by decide), (by decide +kernel)⟩,
   ⟨.ld64 always 1 5 4 0, _, _, _, tOn tMem, _, _, _, rfl, ready_m, calm_m, rfl, State.readS_reg _ (by decide), rfl, (by decide +kernel), rfl, rfl⟩⟩

theorem witness_VectorResult :
    (∃ (i : Instr) (f : VecForm) (s s' : State) (xs : List Word) (tag : Tag),
      vecForm i = some f ∧ s.ready f.g ∧ (tyElem f.t.toNat).width = s.me.ew ∧
        (s.opened f.g false false []).readAll f.srcs = .ok (xs, s') ∧ (∀ r ∈ f.regs, (s.me.vreg r).tag = tag) ∧ (f.carry = false → tag = {})) ∧
    (∃ (w : Nat) (sg sat : Bool) (r : Rnd) (a b c : Nat),
      0 < w ∧ a < 2 ^ w ∧ b < 2 ^ w ∧ c < 2 ^ w) ∧
    (∃ (t : Nat) (f : FFmt) (sat : Bool) (r : Rnd) (a b c : Nat) (x y z : Machine.Num),
      tyElem t = .flt f ∧ a < 2 ^ f.w ∧ b < 2 ^ f.w ∧ c < 2 ^ f.w ∧ x = f.decode a ∧ y = f.decode b ∧ z = f.decode c ∧ x.isNan = false ∧
        y.isNan = false ∧ isFinite x ∧ isFinite y ∧ isFinite z) ∧
    (∃ (t : Nat) (f : FFmt) (sat : Bool) (r : Rnd) (a b c : Nat) (x y z : Machine.Num) (n : Bool),
      tyElem t = .flt f ∧ a < 2 ^ f.w ∧ b < 2 ^ f.w ∧ c < 2 ^ f.w ∧ x = f.decode a ∧ y = f.decode b ∧ z = f.decode c ∧ x.isNan = false ∧
        y.isNan = false ∧ isFinite x ∧ isFinite y ∧ z.isNan = false ∧ z = .inf n) ∧
    (∃ (t : Nat) (f : FFmt) (sat : Bool) (r : Rnd) (a b c : Nat) (x y z : Machine.Num) (n : Bool),
      tyElem t = .flt f ∧ a < 2 ^ f.w ∧ b < 2 ^ f.w ∧ c < 2 ^ f.w ∧ x = f.decode a ∧ y = f.decode b ∧ z = f.decode c ∧ x.isNan = false ∧
        y.isNan = false ∧ x = .inf n ∧ y = .inf (!n)) ∧
    (∃ (t : Nat) (f : FFmt) (sat : Bool) (r : Rnd) (a b c : Nat) (x y z : Machine.Num),
      tyElem t = .flt f ∧ a < 2 ^ f.w ∧ b < 2 ^ f.w ∧ c < 2 ^ f.w ∧ x = f.decode a ∧ y = f.decode b ∧ z = f.decode c ∧ x.isNan = false ∧
        y.isNan = false ∧ x.isZero = true ∧ y.isInf = true) ∧
    (∃ (t : Nat) (f : FFmt) (sat : Bool) (r : Rnd) (a b c : Nat) (x y z : Machine.Num),
      tyElem t = .flt f ∧ a < 2 ^ f.w ∧ b < 2 ^ f.w ∧ c < 2 ^ f.w ∧ x = f.decode a ∧ y = f.decode b ∧ z = f.decode c ∧
        (x.isNan = true ∨ y.isNan = true)) ∧
    (∃ (t : Nat) (f : FFmt) (sat : Bool) (r : Rnd) (a b c : Nat) (x y z : Machine.Num),
      tyElem t = .flt f ∧ a < 2 ^ f.w ∧ b < 2 ^ f.w ∧ c < 2 ^ f.w ∧ x = f.decode a ∧ y = f.decode b ∧ z = f.decode c ∧ f.ieee = true) ∧
    (∃ (t : Nat) (f : FFmt) (sat : Bool) (r : Rnd) (a b c : Nat) (x y z : Machine.Num),
      tyElem t = .flt f ∧ a < 2 ^ f.w ∧ b < 2 ^ f.w ∧ c < 2 ^ f.w ∧ x = f.decode a ∧ y = f.decode b ∧ z = f.decode c ∧ f.ieee = false) :=
  ⟨⟨.vadd always 4 1 2 8 1 0, _, tOn tVec, _, _, {}, rfl, ready_v, rfl, rfl, (by decide), by decide⟩,
   ⟨8, true, true, .rne, 0x80, 0x80, 0xFF, by decide, by decide, by decide, by decide⟩,
   ⟨8, .fp32, false, .rne, 0x3F800000, 0xBF800000, 0x80000000, _, _, _, rfl, by decide, by decide, by decide, rfl, rfl, rfl, rfl, rfl,
    ⟨rfl, rfl⟩, ⟨rfl, rfl⟩, ⟨rfl, rfl⟩⟩,
   ⟨8, .fp32, false, .rne, 0x3F800000, 0xBF800000, 0xFF800000, _, _, _, true, rfl, by decide, by decide, by decide, rfl, rfl, rfl, rfl, rfl,
    ⟨rfl, rfl⟩, ⟨rfl, rfl⟩, rfl, rfl⟩,
   ⟨8, .fp32, false, .rne, 0x7F800000, 0xFF800000, 0, _, _, _, false, rfl, by decide, by decide, by decide, rfl, rfl, rfl, rfl, rfl, rfl, rfl⟩,
   ⟨8, .fp32, false, .rne, 0x80000000, 0x7F800000, 0, _, _, _, rfl, by decide, by decide, by decide, rfl, rfl, rfl, rfl, rfl, rfl, rfl⟩,
   ⟨8, .fp32, false, .rne, 0x7F800001, 0x7FC00000, 0, _, _, _, rfl, by decide, by decide, by decide, rfl, rfl, rfl, Or.inl rfl⟩,
   ⟨8, .fp32, false, .rne, 0x7F800001, 0x7FC00000, 0, _, _, _, rfl, by decide, by decide, by decide, rfl, rfl, rfl, rfl⟩,
   ⟨11, _, false, .rne, 0x80, 0xFF, 0, _, _, _, rfl, by decide, by decide, by decide, rfl, rfl, rfl, rfl⟩⟩

theorem witness_MaskResult :
    (∃ (i : Instr) (f : VCmpForm) (s s' : State) (xs : List Word),
      vcmpForm i = some f ∧ s.ready f.g ∧ (tyElem f.t.toNat).width = s.me.ew ∧
        (s.opened f.g false false []).readAll f.srcs = .ok (xs, s') ∧ (∀ r ∈ f.regs, (s.me.vreg r).tag = {})) ∧
    (∃ (i : Instr) (g : Guard) (d : BitVec 3) (f : State → Nat → Bool) (s : State),
      maskForm i = some (g, d, f) ∧ s.ready g) ∧
    (∃ (g : Guard) (d : BitVec 3) (x : BitVec 5) (k : BitVec 3) (s s' : State) (z : Word),
      s.ready g ∧ (s.opened g false false []).readS x.toNat = .ok (z, s')) ∧
    (∃ (w : Nat) (sg : Bool) (a b : Nat),
      0 < w ∧ a < 2 ^ w ∧ b < 2 ^ w) ∧
    (∃ (t : Nat) (f : FFmt) (a b : Nat) (x y : Machine.Num) (nv : Flags),
      tyElem t = .flt f ∧ a < 2 ^ f.w ∧ b < 2 ^ f.w ∧ x = f.decode a ∧ y = f.decode b ∧ nv = (if x.isSig || y.isSig then Fl.nv else 0) ∧
        x.isNan = false ∧ y.isNan = false) ∧
    (∃ (t : Nat) (f : FFmt) (a b : Nat) (x y : Machine.Num) (nv : Flags),
      tyElem t = .flt f ∧ a < 2 ^ f.w ∧ b < 2 ^ f.w ∧ x = f.decode a ∧ y = f.decode b ∧ nv = (if x.isSig || y.isSig then Fl.nv else 0) ∧
        (x.isNan = true ∨ y.isNan = true)) :=
  ⟨⟨.vcmpLtScalar always 1 1 1 0 0, _, tOn tVec, _, _, rfl, ready_v, rfl, rfl, by decide⟩,
   ⟨.knot always 1 1, _, _, _, tOn tVec, rfl, ready_v⟩,
   ⟨always, 1, 1, 0, tOn tVec, _, _, ready_v, State.readS_reg _ (by decide)⟩,
   ⟨8, true, 0x80, 0x7F, by decide, by decide, by decide⟩,
   ⟨8, .fp32, 0x80000000, 0, _, _, _, rfl, by decide, by decide, rfl, rfl, rfl, rfl, rfl⟩,
   ⟨8, .fp32, 0x7F800001, 0, _, _, _, rfl, by decide, by decide, rfl, rfl, rfl, Or.inl rfl⟩⟩

theorem witness_VectorLayout :
    (∃ (g : Guard) (v a b t : BitVec 4) (k : BitVec 3) (s : State),
      s.ready g ∧ (tyElem t.toNat).width = s.me.ew ∧ (s.me.vreg b).tag = (s.me.vreg a).tag) ∧
    (∃ (g : Guard) (v a t : BitVec 4) (k : BitVec 3) (s : State),
      s.ready g ∧ (tyElem t.toNat).width = s.me.ew ∧ s.me.cols ≤ 64 ∧ (∀ r ∈ [a] ++ kept k v, (s.me.vreg r).tag = {})) ∧
    (∃ (g : Guard) (v a : BitVec 4) (x : BitVec 5) (t : BitVec 4) (k : BitVec 3) (f : BitVec 1) (s s' : State) (z : Word) (tag : Tag),
      s.ready g ∧ (tyElem t.toNat).width = s.me.ew ∧ (s.opened g false false []).readS x.toNat = .ok (z, s') ∧
        (∀ r ∈ (if f = 1 then [] else [a]) ++ kept k v, (s.me.vreg r).tag = tag) ∧ (f = 1 → k = 0 → tag = {}) ∧
        (f = 0 → z.toNat % 65536 < if z.getLsbD 16 then s.me.cols else s.me.rows)) ∧
    (∃ (g : Guard) (v : BitVec 4) (x : BitVec 5) (t : BitVec 4) (k : BitVec 3) (f : BitVec 1) (s s' : State) (z : Word),
      s.ready g ∧ (tyElem t.toNat).width = s.me.ew ∧ (s.opened g false false []).readS x.toNat = .ok (z, s')) ∧
    (∃ (g : Guard) (q : BitVec 3) (a : BitVec 4) (x : BitVec 5) (f : BitVec 1) (s s' t : State) (z : Word),
      s.ready g ∧ (s.opened g false false []).readS x.toNat = .ok (z, s') ∧ z.toNat < s.me.elems ∧
        (s'.occupy 1).pushQ q 3 (if f = 1 then (BitVec.ofNat s.me.ew (velem s a s.me.ew z.toNat)).signExtend 64 else BitVec.ofNat 64 (velem s a s.me.ew z.toNat)) = .ok t) ∧
    (∃ (g : Guard) (v : BitVec 4) (x : BitVec 5) (s s' : State) (z : Word),
      s.ready g ∧ (s.opened g false false []).readS x.toNat = .ok (z, s') ∧ z.toNat / 2 ^ 32 % 16384 < s.me.elems) ∧
    (∃ (g : Guard) (x : BitVec 5) (s s' : State) (z : Word),
      s.ready g ∧ (s.opened g false false []).readS x.toNat = .ok (z, s') ∧ shapeOk z = true) :=
  ⟨⟨always, 4, 1, 2, 8, 1, tOn tVec, ready_v, rfl, rfl⟩,
   ⟨always, 4, 1, 8, 1, tOn tVec, ready_v, rfl, by decide, by decide⟩,
   ⟨always, 4, 1, 0, 8, 1, 0, tOn tVec, _, _, {}, ready_v, rfl, State.readS_reg _ (by decide), (by decide), (by decide), (by decide)⟩,
   ⟨always, 4, 1, 8, 1, 1, tOn tVec, _, _, ready_v, rfl, State.readS_reg _ (by decide)⟩,
   ⟨always, 1, 1, 0, 1, tOn tVec, _, _, _, ready_v, State.readS_reg _ (by decide), by decide, rfl⟩,
   ⟨always, 1, 0, tOn tVec, _, _, ready_v, State.readS_reg _ (by decide), by decide⟩,
   ⟨always, 1, tOn { tVec with regs := { tVec.regs with s := Vector.replicate 24 0xC00801 } }, _, _, ⟨rfl, by decide, rfl, rfl, rfl, rfl, rfl, by decide⟩,
    State.readS_reg _ (by decide), rfl⟩⟩

theorem witness_ConversionResult :
    (∃ (i : Instr) (f : ConvForm) (s : State),
      convForm i = some f ∧ ConvReady s f ∧ (s.me.vreg f.a).tag = f.tag s) ∧
    (∃ (i : Instr) (f : ConvForm) (s : State) (fwd : Bool) (t : Tag) (mask : BitVec 128),
      convForm i = some f ∧ ConvReady s f ∧ (s.me.vreg f.a).tag ≠ f.tag s ∧
        (if fwd then (s.me.vreg f.a).tag = {} ∧ t = f.tag s else f.tag s = {} ∧ t = (s.me.vreg f.a).tag) ∧ 1 ≤ t.code.toNat ∧ t.code.toNat ≤ 4 ∧
        s.me.cols % (8 * 2 ^ t.code.toNat) = 0 ∧ s.me.findMask t.id = .ok mask) :=
  ⟨⟨.vcvt always 4 1 8 9 0 0, _, tOn tVec, rfl, ⟨ready_v, nofun, by decide, rfl, nofun⟩, rfl⟩,
   ⟨.vrot always 4 1 0 8 0 0, _, tOn tVec, true, _, _, rfl, ⟨ready_v, fun _ => rfl, by decide, rfl, by decide⟩, by decide, ⟨rfl, rfl⟩, by decide,
    by decide, rfl, rfl⟩⟩

theorem witness_EncodeRule :
    (∀ k : Fin 5, ∃ (t : Nat) (f : FFmt) (n : Bool) (m d : Nat) (e : Int) (r : Rnd) (v : Rat) (out : Nat × Flags),
      tyElem t = .flt f ∧ 0 < m ∧ 0 < d ∧ v = mag (ratVal (.fin n m d e)) ∧ out = f.encode (.fin n m d e) r ∧ r.rm.toNat ≤ 4 ∧
        v ≤ codeMag f f.maxCode ∧ r.rm.toNat = k.val) ∧
    (∃ (t : Nat) (f : FFmt) (n : Bool) (m d : Nat) (e : Int) (r : Rnd) (v : Rat) (out : Nat × Flags),
      tyElem t = .flt f ∧ 0 < m ∧ 0 < d ∧ v = mag (ratVal (.fin n m d e)) ∧ out = f.encode (.fin n m d e) r ∧ r.rm.toNat ≤ 4 ∧
        2 * codeMag f f.maxCode ≤ v) :=
  ⟨fun k => ⟨8, .fp32, true, 1, 3, 0, ⟨BitVec.ofNat 3 k.val, false, 0⟩, _, _, rfl, by decide, by decide, rfl, rfl, by revert k; decide,
    by decide +kernel, by revert k; decide⟩,
   ⟨11, .b8 3 false false, true, 1, 1, 40, .rne, _, _, rfl, by decide, by decide, rfl, rfl, by decide, by decide +kernel⟩⟩

theorem witness_EncodeEdges :
    (∃ (t : Nat) (f : FFmt), tyElem t = .flt f) ∧
    (∃ (p : Nat) (fin : Bool) (m d : Nat) (e : Int), 1 ≤ p ∧ p ≤ 7 ∧ 0 < m ∧ 0 < d ∧ codeMag (.b8 p true fin) 1 ≤ ratVal (.fin false m d e)) ∧
    (∃ (p : Nat) (fin : Bool) (m d : Nat) (e : Int) (r : Rnd),
      1 ≤ p ∧ p ≤ 7 ∧ 0 < m ∧ 0 < d ∧ r.rm = 0 ∧ 2 * ratVal (.fin false m d e) < codeMag (.b8 p true fin) 1) :=
  ⟨⟨14, _, rfl⟩, ⟨3, true, 1, 1, 0, by decide, by decide, by decide, by decide, by decide +kernel⟩,
   ⟨3, false, 1, 1, -40, .rne, by decide, by decide, by decide, by decide, rfl, by decide +kernel⟩⟩

theorem witness_NarrowRule (code w top : Nat) (mul : Rat)
    (h : (code = 0x40 ∧ w = 8 ∧ mul = 64 ∧ top = 127) ∨ (code = 0x42 ∧ w = 4 ∧ mul = 4 ∧ top = 7)) :
    (∃ (xs : List Machine.Num) (sc : Option Nat) (es : List Nat) (fl : Flags),
      narrowBlock code 0 false xs = (sc, es, fl) ∧ ∃ x ∈ xs, x.isNan = true ∨ x.isInf = true) ∧
    (∃ (xs : List Machine.Num) (sc : Option Nat) (es : List Nat) (fl : Flags),
      narrowBlock code 0 false xs = (sc, es, fl) ∧ ∀ x ∈ xs, x.isZero = true) ∧
    (∃ (xs : List Machine.Num) (sc : Option Nat) (es : List Nat) (fl : Flags),
      narrowBlock code 0 false xs = (sc, es, fl) ∧ (∀ x ∈ xs, realNum x) ∧ ∃ x ∈ xs, x.isZero = false) := by
  rcases h with ⟨rfl, _⟩ | ⟨rfl, _⟩ <;>
    exact ⟨⟨[.inf true], _, _, _, rfl, _, List.mem_singleton.mpr rfl, Or.inr rfl⟩,
      ⟨[.zero true], _, _, _, rfl, fun x h => by rw [List.mem_singleton.mp h]; rfl⟩,
      ⟨[.fin false 3 1 0], _, _, _, rfl, fun x h => by rw [List.mem_singleton.mp h]; exact ⟨by decide, by decide⟩, _, List.mem_singleton.mpr rfl, rfl⟩⟩

/-- Sixteen exact values. -/
def tBlock : List Machine.Num := ([9, -7, 0, 3, 5, 1, -2, 8, 100, -4, 6, 2, -1, 7, 4, -3] : List Int).map Num.ofInt

theorem witness_RotationRule :
    (∃ xs : List Machine.Num, ∃ x ∈ xs, x.isNan = true) ∧
    (∃ xs : List Machine.Num, (∀ x ∈ xs, x.isNan = false) ∧ ∃ x ∈ xs, x.isInf = true) ∧
    (∃ (t : Nat) (q : List Int) (i : Nat), i + 2 ^ t < q.length ∧ i / 2 ^ t % 2 = 0) ∧
    (∃ (code : Nat) (zs : List Int), zs.length = 8 * 2 ^ code ∧ ∀ z ∈ zs, z.natAbs < 2 ^ 30) ∧
    (∃ (code : Nat) (mask : BitVec 128) (xs ys zs : List Machine.Num), 1 ≤ code ∧ code ≤ 4 ∧ xs.length = 8 * 2 ^ code ∧ (∀ x ∈ xs, realNum x) ∧
      rotateBlock code mask true xs = (ys, 0) ∧ rotateBlock code mask false ys = (zs, 0)) :=
  ⟨⟨[.canon], _, List.mem_singleton.mpr rfl, rfl⟩,
   ⟨[.inf true], fun x h => by rw [List.mem_singleton.mp h]; rfl, _, List.mem_singleton.mpr rfl, rfl⟩,
   ⟨1, [4, 5, 6, 7], 1, by decide, by decide⟩,
   ⟨1, [9, -7, 0, 3, 5, 1, -2, 8, 100, -4, 6, 2, -1, 7, 4, -3], by decide, by decide⟩,
   ⟨1, 0xA5, tBlock, _, _, by decide, by decide, rfl, (by
      have : ∀ x ∈ tBlock, (match x with | .zero _ => True | .fin _ m d _ => 0 < m ∧ 0 < d | _ => False) := by
        simp [tBlock, Num.ofInt]
      exact fun x h => by have := this x h; cases x <;> exact this),
    Prod.ext rfl (by decide +kernel), Prod.ext rfl (by decide +kernel)⟩⟩

theorem witness_FunctionValues :
    (∃ (n : Bool) (m d : Nat) (e : Int) (x : Machine.Num), x = .fin n m d e ∧ 0 < m ∧ 0 < d) ∧
    (∃ (n : Bool) (m d : Nat) (e k : Int) (x : Machine.Num), x = .fin n m d e ∧ 0 < m ∧ 0 < d ∧ ratVal x = k ∧ -2048 < k ∧ k < 2048) ∧
    (∃ (n : Bool) (m d : Nat) (e k : Int) (x : Machine.Num), x = .fin n m d e ∧ 0 < m ∧ 0 < d ∧ ratVal x = (2 : Rat) ^ k) ∧
    (∃ (n : Bool) (m d : Nat) (e k : Int) (x : Machine.Num), x = .fin n m d e ∧ 0 < m ∧ 0 < d ∧ m < 2 ^ 200 ∧ ratVal x = (4 : Rat) ^ k) :=
  ⟨⟨true, 3, 1, 0, _, rfl, by decide, by decide⟩,
   ⟨true, 3, 1, 1, -6, _, rfl, by decide, by decide, by decide +kernel, by decide, by decide⟩,
   ⟨false, 1, 1, 3, 3, _, rfl, by decide, by decide, by decide +kernel⟩,
   ⟨false, 1, 1, 4, 2, _, rfl, by decide, by decide, by decide, by decide +kernel⟩⟩

theorem witness_SelectionOrder :
    ∀ t : Fin 16, ∃ (n : Nat) (v : Nat → Nat) (l : List (Nat × Nat)), (∀ j, j < n → v j < 2 ^ (tyElem t.val).width) ∧
      l = ((List.range n).map fun j => (v j, j)) :=
  fun t => ⟨2, fun j => 1 - j, _, by revert t; decide, rfl⟩

theorem witness_ReductionResult :
    (∃ (i : Instr) (f : RedForm) (s : State) (el : Elem) (tag : Tag) (r : Nat → Nat × Flags),
      redForm i = some f ∧ s.ready f.g ∧ el = tyElem f.t.toNat ∧ el.width = s.me.ew ∧ (s.me.vreg f.a).tag = tag ∧
        (s.me.vreg f.v).tag = tag ∧ ((f.op ≠ .sum ∨ f.down = false) → tag = {}) ∧
        (∀ e, r e = f.op.elem el f.sat (s.rndFor false (if el.isFloat then s.me.sys.fpstat.getLsbD 11 else f.sat) e) (if f.down then (List.range s.me.rows).map fun j => velem s f.a s.me.ew (j * s.me.cols + e % s.me.cols) else (List.range s.me.cols).map fun j => velem s f.a s.me.ew (e / s.me.cols * s.me.cols + j)))) ∧
    (∃ (w : Nat) (sg sat : Bool) (r : Rnd) (l : List Nat),
      0 < w ∧ l ≠ [] ∧ (∀ a ∈ l, a < 2 ^ w)) ∧
    (∃ (t : Nat) (f : FFmt) (sat : Bool) (r : Rnd) (l : List Nat) (xs : List Machine.Num),
      tyElem t = .flt f ∧ l ≠ [] ∧ (∀ a ∈ l, a < 2 ^ f.w) ∧ xs = l.map f.decode ∧ (∀ x ∈ xs, isFinite x)) ∧
    (∃ (t : Nat) (f : FFmt) (sat : Bool) (r : Rnd) (l : List Nat) (xs : List Machine.Num),
      tyElem t = .flt f ∧ l ≠ [] ∧ (∀ a ∈ l, a < 2 ^ f.w) ∧ xs = l.map f.decode ∧ (∀ x ∈ xs, x.isNan = false) ∧ .inf true ∈ xs ∧ .inf false ∈ xs) ∧
    (∃ (t : Nat) (f : FFmt) (sat : Bool) (r : Rnd) (l : List Nat) (xs : List Machine.Num) (n : Bool),
      tyElem t = .flt f ∧ l ≠ [] ∧ (∀ a ∈ l, a < 2 ^ f.w) ∧ xs = l.map f.decode ∧ (∀ x ∈ xs, x.isNan = false) ∧ .inf n ∈ xs ∧ .inf (!n) ∉ xs) ∧
    (∃ (t : Nat) (f : FFmt) (sat : Bool) (r : Rnd) (l : List Nat) (xs : List Machine.Num),
      tyElem t = .flt f ∧ l ≠ [] ∧ (∀ a ∈ l, a < 2 ^ f.w) ∧ xs = l.map f.decode ∧ (∃ x ∈ xs, x.isNan = true)) :=
  ⟨⟨.vredSum always 5 1 8 0 0 0, _, tOn tVec, _, _, _, rfl, ready_v, rfl, rfl, rfl, rfl, (fun _ => rfl), (fun e => rfl)⟩,
   ⟨8, true, false, .rne, [0x80, 0x80], by decide, by decide, by decide⟩,
   ⟨8, .fp32, false, .rne, [0x80000000, 0x3F800000], _, rfl, by decide, by decide, rfl, fun x h => by
      simp only [List.map, List.mem_cons, List.not_mem_nil, or_false] at h; rcases h with rfl | rfl <;> exact ⟨rfl, rfl⟩⟩,
   ⟨8, .fp32, false, .rne, [0xFF800000, 0x7F800000], [.inf true, .inf false], rfl, by decide, by decide, rfl, fun x h => by
      simp only [List.mem_cons, List.not_mem_nil, or_false] at h; rcases h with rfl | rfl <;> rfl, by simp, by simp⟩,
   ⟨8, .fp32, false, .rne, [0xFF800000, 0xFF800000], [.inf true, .inf true], true, rfl, by decide, by decide, rfl, fun x h => by
      simp only [List.mem_cons, List.not_mem_nil, or_false] at h; rcases h with rfl | rfl <;> rfl, by simp, by simp⟩,
   ⟨8, .fp32, false, .rne, [0, 0x7F800001], _, rfl, by decide, by decide, rfl, _, List.mem_cons_of_mem _ (List.mem_singleton.mpr rfl), rfl⟩⟩

theorem witness_FunctionResult :
    (∃ (i : Instr) (g : Guard) (o : FnOp) (v a t : BitVec 4) (k : BitVec 3) (s : State),
      fnForm i = some (g, o, v, a, t, k) ∧ s.ready g ∧ (tyElem t.toNat).width = s.me.ew ∧
        (∀ r ∈ [a] ++ kept k v, (s.me.vreg r).tag = {})) ∧
    (∃ (i : Instr) (g : Guard) (o : FnOp) (v a t : BitVec 4) (k : BitVec 3) (s : State) (x : Nat) (fl : Flags) (ws : List Write),
      slowForm i = some (g, o, v, a, t, k) ∧ s.ready g 1 ∧ (tyElem t.toNat).width = s.me.ew ∧
        (∀ r ∈ [a] ++ kept k v, (s.me.vreg r).tag = {}) ∧ (∀ l ∈ s.me.seq.landings, l.id < s.me.seq.nextLanding) ∧
        x = slowPasses s.me.ew ((List.range s.me.elems).map fun e => (tyElem t.toNat).decode (velem s a s.me.ew e)) ∧
        fl = orFlags (flagsUnder s k fun e => (fnValue s o a t e).2) ∧
        ws = [.vec v.toNat (BitVec.ofNat 65536 (packVals s.me.ew (under s k fun e => (fnValue s o a t e).1)).1) (BitVec.ofNat 65536 (packVals s.me.ew (under s k fun e => (fnValue s o a t e).1)).2) {}] ++ (if fl = 0 then [] else [.flags fl (firstNp (flagsUnder s k fun e => (fnValue s o a t e).2) s.me.cols 3 s.me.seq.pc s.latch.slot)])) ∧
    (∃ (s : State) (l : Landing) (n : Nat) (ws : List Write),
      l ∈ s.me.seq.landings ∧ l.due ≤ s.me.seq.rn ∧ l.arrived = none ∧ l.late = some (n, ws) ∧ (∀ y ∈ s.me.seq.landings, y.id = l.id → y = l)) ∧
    (∃ (g : Guard) (v a : BitVec 4) (y : BitVec 5) (t : BitVec 4) (k : BitVec 3) (l : BitVec 1) (s s' : State) (z : Word) (el : Elem),
      s.ready g ∧ el = tyElem t.toNat ∧ el.width = s.me.ew ∧ (s.opened g false false []).readS y.toNat = .ok (z, s') ∧
        (s.me.vreg a).tag = {} ∧ (s.me.vreg v).tag = {} ∧ 1 ≤ z.toNat ∧ z.toNat ≤ min s.me.cols 256 ∧ (l = 0 → s.me.cols ≤ 2 ^ s.me.ew)) ∧
    (∃ (g : Guard) (q : BitVec 3) (a : BitVec 4) (y : BitVec 5) (r : BitVec 6) (s s' t : State) (z : Word),
      s.ready g ∧ (s.opened g false false []).readS y.toNat = .ok (z, s') ∧ (s.me.vreg a).tag = {} ∧ r.toNat < s.me.rows ∧
        16 ≤ s.me.cols ∧
        (s'.occupy 1).pushQ q 4 ((List.range 16).foldl (fun (h : Word) n => h ^^^ (BitVec.ofNat 64 (velem s a s.me.ew (r.toNat * s.me.cols + n))).rotateLeft (4 * n)) (z.rotateLeft 13)) = .ok t) :=
  ⟨⟨.frcp always 4 1 8 0, _, _, _, _, _, _, tOn tVec, rfl, ready_v, rfl, by decide⟩,
   ⟨.ftanh always 4 1 8 1, _, _, _, _, _, _, tOn tVec, _, _, _, rfl, ready_v1, rfl, by decide, by decide, rfl, rfl, rfl⟩,
   ⟨tOn { tCore with seq := { tCore.seq with landings := [⟨1, 0, 2, 7, none, some (4, [])⟩] } }, _, 4, [], List.mem_singleton.mpr rfl, by decide, rfl, rfl,
    fun y h _ => List.mem_singleton.mp h⟩,
   ⟨always, 4, 1, 1, 0, 0, 0, tOn { tVec with regs := { tVec.regs with s := Vector.replicate 24 16 } }, _, _, _,
    ⟨rfl, by decide, rfl, rfl, rfl, rfl, rfl, by decide⟩, rfl, rfl, State.readS_reg _ (by decide), rfl, rfl, by decide, by decide, (by decide)⟩,
   ⟨always, 3, 1, 1, 0, tOn tVec, _, _, _, ready_v, State.readS_reg _ (by decide), rfl, by decide, by decide, rfl⟩⟩

theorem witness_VectorLanding :
    (∃ (k : Core) (s : State) (r : BitVec 4) (l w : Nat) (vals : List (Option Nat)) (tag : Tag) (p : Pend) (e : _),
      0 < w ∧ vals.length * w ≤ 65536 ∧ (s.writeVec r l w vals tag).me.seq.pend = s.me.seq.pend ++ [p] ∧ e < vals.length) ∧
    (∃ (k : Core) (s : State) (r : BitVec 4) (l w : Nat) (vals : List (Option Nat)) (tag : Tag) (p : Pend) (q : _),
      0 < w ∧ vals.length * w ≤ 65536 ∧ (s.writeVec r l w vals tag).me.seq.pend = s.me.seq.pend ++ [p] ∧ q ≠ r) ∧
    (∃ (k : Core) (s : State) (r : BitVec 3) (l : Nat) (vals : List (Option Bool)) (p : Pend) (e : _),
      vals.length ≤ 16384 ∧ (s.writeK r l vals).me.seq.pend = s.me.seq.pend ++ [p] ∧ e < 16384 ∧ r ≠ 0) ∧
    (∃ (k : Core) (s : State) (r : BitVec 3) (l : Nat) (vals : List (Option Bool)) (p : Pend) (q : _),
      vals.length ≤ 16384 ∧ (s.writeK r l vals).me.seq.pend = s.me.seq.pend ++ [p] ∧ q ≠ r) :=
  ⟨⟨tVec, tOn tVec, 4, 3, 32, [some 1, none], {}, _, 1, by decide, by decide, rfl, by decide⟩,
   ⟨tVec, tOn tVec, 4, 3, 32, [some 1, none], {}, _, 3, by decide, by decide, rfl, by decide⟩,
   ⟨tVec, tOn tVec, 2, 3, [some true, none], _, 16383, by decide, rfl, by decide, by decide⟩,
   ⟨tVec, tOn tVec, 2, 3, [some true, none], _, 7, by decide, rfl, by decide⟩⟩

theorem witness_VectorFrame :
    ∃ (i : Instr) (f : VecForm) (s s' : State) (xs : List Word) (tag : Tag),
      vecForm i = some f ∧ s.ready f.g ∧ Calm s.me ∧ (tyElem f.t.toNat).width = s.me.ew ∧
        (s.opened f.g false false []).readAll f.srcs = .ok (xs, s') ∧ (∀ r ∈ f.regs, (s.me.vreg r).tag = tag) ∧ (f.carry = false → tag = {}) :=
  ⟨.vmaxScalar always 4 1 3 8 1, _, tOn tVec, _, _, {}, rfl, ready_v, calm_v, rfl, rfl, (by decide), by decide⟩

theorem witness_GroupIssues :
    (∃ (g : Guard) (d : BitVec 3) (x : BitVec 2) (s : State) (n : Nat),
      FlagReady s g ∧ s.groupRef x.toNat = .ok n ∧ (∀ e, Table.get s.groups n = some e → e.arrived.getLsbD s.cur.val = false)) ∧
    (∃ (g : Guard) (m : BitVec 4) (s : State),
      s.ready g ∧ s.me.rpl = false ∧ m.getLsbD (s.cur.val % 4) = true ∧ m.toNat ≠ 2 ^ (s.cur.val % 4) ∧ s.me.gstate = 0) ∧
    (∃ (g : Guard) (m : BitVec 4) (s : State),
      s.ready g ∧ s.me.rpl = false ∧ (m.getLsbD (s.cur.val % 4) = false ∨ m.toNat = 2 ^ (s.cur.val % 4) ∨ s.me.gstate ≠ 0)) ∧
    (∃ (g : Guard) (s : State),
      s.ready g ∧ s.me.rpl = false ∧ s.me.gstate = 1) ∧
    (∃ (g : Guard) (s : State),
      s.ready g ∧ s.me.rpl = false ∧ s.me.gstate ≠ 1) ∧
    (∃ (g : Guard) (s : State),
      s.ready g ∧ s.me.rpl = false ∧ s.me.gstate = 2) ∧
    (∃ (g : Guard) (s : State),
      s.ready g ∧ s.me.rpl = false ∧ s.me.gstate ≠ 2) ∧
    (∃ k : Core, k.gstate = 1) ∧
    (∃ (s : State) (c x : Fin 256), (s.core c).gstate = 1 ∧ x ∈ (s.core c).gang c ∧ (s.core x).gmask = (s.core c).gmask ∧ (s.core x).gstate = 2) :=
  ⟨⟨always, 1, 0, tGroup 0 [], 5, flags_g _ _, rfl, (by decide)⟩,
   ⟨always, 3, tGroup 0 [], ready_g _ _, rfl, rfl, by decide, rfl⟩,
   ⟨always, 2, tGroup 0 [], ready_g _ _, rfl, by decide⟩,
   ⟨always, tGroup (1 + 3 * 4) [], ready_g _ _, rfl, rfl⟩,
   ⟨always, tGroup 0 [], ready_g _ _, rfl, by decide⟩,
   ⟨always, tGroup (2 + 3 * 4) [], ready_g _ _, rfl, rfl⟩,
   ⟨always, tGroup 0 [], ready_g _ _, rfl, by decide⟩,
   ⟨Core.reset.setGang 3 1, by decide⟩,
   ⟨{ State.reset with cores := (State.reset.cores.set 0 (Core.reset.setGang 3 1)).set 1 (Core.reset.setGang 3 2) }, 0, 1, by decide +kernel,
    by decide +kernel, by decide +kernel, by decide +kernel⟩⟩

/-- The same package, the record of handle 5 in a poisoned sector. -/
def tTainted : State := { tRunning { tSync 0 [] with sto := { (tSync 0 []).sto with poison := [0x60100 / 32] } } with
  groups := [(5, { ctx := 0, members := 3 })] }

theorem witness_TaskIssues :
    (∃ (g : Guard) (d : BitVec 3) (a b : BitVec 5) (s s1 s' : State) (x off : Word) (run : RunRec) (r : BitVec 512),
      FlagReady s g 1 ∧ s.cached [(s.me.peekS a.toNat).toNat % 256] ∧
        (s.opened g true false [(s.me.peekS a.toNat).toNat % 256]).readS a.toNat = .ok (x, s1) ∧ s1.readS b.toNat = .ok (off, s') ∧
        off.toNat % 64 = 0 ∧ coreFail (s.entry s.me (x.toNat % 256)) off.toNat 64 false = none ∧
        firstPoison s.me.poison (localAddr (s.entry s.me (x.toNat % 256)) off.toNat) 64 = none ∧ s.me.run = some run ∧
        r = BitVec.ofNat 512 (leNat (s.me.bytes (localAddr (s.entry s.me (x.toNat % 256)) off.toNat) 64)) ∧
        recValid (hdr (s.image s.me) 6 2) (fun h => Ent.kind (s.launchEntry run.launch h)) r = true) ∧
    (∃ (g : Guard) (d : BitVec 3) (a b : BitVec 5) (s s1 s' : State) (x off : Word) (run : RunRec) (r : BitVec 512),
      FlagReady s g 1 ∧ s.cached [(s.me.peekS a.toNat).toNat % 256] ∧
        (s.opened g true false [(s.me.peekS a.toNat).toNat % 256]).readS a.toNat = .ok (x, s1) ∧ s1.readS b.toNat = .ok (off, s') ∧
        off.toNat % 64 = 0 ∧ coreFail (s.entry s.me (x.toNat % 256)) off.toNat 64 false = none ∧
        firstPoison s.me.poison (localAddr (s.entry s.me (x.toNat % 256)) off.toNat) 64 = none ∧ s.me.run = some run ∧
        r = BitVec.ofNat 512 (leNat (s.me.bytes (localAddr (s.entry s.me (x.toNat % 256)) off.toNat) 64)) ∧
        recValid (hdr (s.image s.me) 6 2) (fun h => Ent.kind (s.launchEntry run.launch h)) r = false) ∧
    (∃ (g : Guard) (d : BitVec 3) (a b : BitVec 5) (s s1 s' : State) (x off : Word) (r : _) (k : _),
      FlagReady s g 1 ∧ s.cached [(s.me.peekS a.toNat).toNat % 256] ∧
        (s.opened g true false [(s.me.peekS a.toNat).toNat % 256]).readS a.toNat = .ok (x, s1) ∧ s1.readS b.toNat = .ok (off, s') ∧
        off.toNat % 64 = 0 ∧ coreFail (s.entry s.me (x.toNat % 256)) off.toNat 64 false = some (r, k)) ∧
    (∃ (g : Guard) (d : BitVec 3) (a b : BitVec 5) (s s1 s' : State) (x off : Word) (k : _),
      FlagReady s g 1 ∧ s.cached [(s.me.peekS a.toNat).toNat % 256] ∧
        (s.opened g true false [(s.me.peekS a.toNat).toNat % 256]).readS a.toNat = .ok (x, s1) ∧ s1.readS b.toNat = .ok (off, s') ∧
        off.toNat % 64 = 0 ∧ coreFail (s.entry s.me (x.toNat % 256)) off.toNat 64 false = none ∧
        firstPoison s.me.poison (localAddr (s.entry s.me (x.toNat % 256)) off.toNat) 64 = some k) ∧
    (∃ (g : Guard) (d a : BitVec 5) (s s' : State) (x : Word) (e : BitVec 256) (t : _),
      s.ready g ∧ s.me.rpl = false ∧ s.cached [(s.me.peekS a.toNat).toNat % 256] ∧
        (s.opened g false false [(s.me.peekS a.toNat).toNat % 256]).readS a.toNat = .ok (x, s') ∧ e = s.entry s.me (x.toNat % 256) ∧
        s.me.seq.entryRegion = true ∧ Ent.space e ≠ 0 ∧ Ent.state e ≠ 4 ∧ (Ent.kind e = 1 ∨ Ent.kind e = 2) ∧ Ent.state e = 2 ∧
        (s'.setMe s'.me.seesEngines).writeS d.toNat 2 (BitVec.ofNat 64 (if Ent.kind e = 1 then Ent.auxw e else Ent.base e)) = .ok t) ∧
    (∃ (g : Guard) (d a : BitVec 5) (s s' : State) (x : Word) (e : BitVec 256),
      s.ready g ∧ s.me.rpl = false ∧ s.cached [(s.me.peekS a.toNat).toNat % 256] ∧
        (s.opened g false false [(s.me.peekS a.toNat).toNat % 256]).readS a.toNat = .ok (x, s') ∧ e = s.entry s.me (x.toNat % 256) ∧
        s.me.seq.entryRegion = true ∧ Ent.space e ≠ 0 ∧ Ent.state e ≠ 4 ∧ (Ent.kind e = 1 ∨ Ent.kind e = 2) ∧ Ent.state e ≠ 2 ∧
        ¬ (Ent.kind e = 1 ∧ Ent.state e = 3)) ∧
    (∃ (g : Guard) (a b : BitVec 5) (s s1 s' : State) (x v : Word),
      s.ready g ∧ s.me.rpl = false ∧ s.cached [(s.me.peekS a.toNat).toNat % 256] ∧
        (s.opened g true false [(s.me.peekS a.toNat).toNat % 256]).readS a.toNat = .ok (x, s1) ∧ s1.readS b.toNat = .ok (v, s') ∧
        (∀ h w, SlotWait.futSent s.latch.slot h w ∉ s.me.seq.wait) ∧ (∀ r, SlotWait.futAnswer s.latch.slot r ∈ s.me.seq.wait → r = none) ∧
        SlotWait.futAnswer s.latch.slot none ∈ s.me.seq.wait) ∧
    (∃ (g : Guard) (a b : BitVec 5) (s s1 s' : State) (x v : Word) (r : BitVec 4),
      s.ready g ∧ s.me.rpl = false ∧ s.cached [(s.me.peekS a.toNat).toNat % 256] ∧
        (s.opened g true false [(s.me.peekS a.toNat).toNat % 256]).readS a.toNat = .ok (x, s1) ∧ s1.readS b.toNat = .ok (v, s') ∧
        (∀ h w, SlotWait.futSent s.latch.slot h w ∉ s.me.seq.wait) ∧ (∀ y, SlotWait.futAnswer s.latch.slot y ∈ s.me.seq.wait → y = some r) ∧
        SlotWait.futAnswer s.latch.slot (some r) ∈ s.me.seq.wait) ∧
    (∃ (g : Guard) (a b : BitVec 5) (s s1 s' : State) (x v : Word),
      s.ready g ∧ s.me.rpl = false ∧ s.cached [(s.me.peekS a.toNat).toNat % 256] ∧
        (s.opened g true false [(s.me.peekS a.toNat).toNat % 256]).readS a.toNat = .ok (x, s1) ∧ s1.readS b.toNat = .ok (v, s') ∧
        (∀ h w, SlotWait.futSent s.latch.slot h w ∉ s.me.seq.wait) ∧ (∀ r, SlotWait.futAnswer s.latch.slot r ∉ s.me.seq.wait) ∧ s.me.eng.remote = [] ∧ s.me.fenced = false) :=
  ⟨⟨always, 1, 1, 0, tGroup 0 [], _, _, _, _, tRun, _, flags_g1 _ _, rfl, State.readS_reg _ (by decide), State.readS_reg _ (by decide), (by decide),
    (by decide +kernel), rfl, rfl, rfl, rfl⟩,
   ⟨always, 1, 4, 0, tGroup 0 [], _, _, _, _, tRun, _, flags_g1 _ _, rfl, State.readS_reg _ (by decide), State.readS_reg _ (by decide), rfl,
    (by decide +kernel), rfl, rfl, rfl, rfl⟩,
   ⟨always, 1, 5, 0, tGroup 0 [], _, _, _, _, .space, 0, flags_g1 _ _, rfl, State.readS_reg _ (by decide), State.readS_reg _ (by decide), rfl,
    (by decide +kernel)⟩,
   ⟨always, 1, 1, 0, tTainted, _, _, _, _, _, ⟨⟨rfl, show 0 < 8 by decide, rfl, rfl, rfl, rfl, rfl, show 1 ≤ 16 by decide⟩, rfl, rfl⟩, rfl,
    State.readS_reg _ (by decide), State.readS_reg _ (by decide), rfl, (by decide +kernel), rfl⟩,
   ⟨always, 1, 2, tGroup 0 [], _, _, _, _, ready_g _ _, rfl, rfl, State.readS_reg _ (by decide), rfl, rfl, by decide, by decide, by decide, rfl, rfl⟩,
   ⟨always, 1, 3, tGroup 0 [], _, _, _, ready_g _ _, rfl, rfl, State.readS_reg _ (by decide), rfl, rfl, by decide, by decide, by decide, by decide,
    by decide⟩,
   ⟨always, 3, 0, tGroup 0 [.futAnswer 0 none], _, _, _, _, ready_g _ _, rfl, rfl, State.readS_reg _ (by decide), State.readS_reg _ (by decide),
    ((fun _ _ h => by change _ ∈ ([.futAnswer 0 none] : List SlotWait) at h; simp at h)),
    (fun _ h => by change _ ∈ ([.futAnswer 0 none] : List SlotWait) at h; simp at h; exact h.2), (List.mem_singleton.mpr rfl)⟩,
   ⟨always, 3, 0, tGroup 0 [.futAnswer 0 (some 2)], _, _, _, _, 2, ready_g _ _, rfl, rfl, State.readS_reg _ (by decide), State.readS_reg _ (by decide),
    ((fun _ _ h => by change _ ∈ ([.futAnswer 0 (some 2)] : List SlotWait) at h; simp at h)),
    (fun _ h => by change _ ∈ ([.futAnswer 0 (some 2)] : List SlotWait) at h; simp at h; exact h.2), (List.mem_singleton.mpr rfl)⟩,
   ⟨always, 3, 0, tGroup 0 [], _, _, _, _, ready_g _ _, rfl, rfl, State.readS_reg _ (by decide), State.readS_reg _ (by decide),
    ((fun _ _ h => by change _ ∈ ([] : List SlotWait) at h; simp at h)), ((fun _ h => by change _ ∈ ([] : List SlotWait) at h; simp at h)), rfl, rfl⟩⟩

theorem witness_SignAndFenceIssues :
    (∃ (g : Guard) (d : BitVec 3) (a b : BitVec 5) (s s1 s' : State) (x y : Word) (e : BitVec 256) (bs : _),
      s.ready g ∧ s.cached [(s.me.peekS b.toNat).toNat % 256] ∧ (∀ n r, SlotWait.sgSent s.latch.slot n r ∉ s.me.seq.wait) ∧
        (s.opened g false false [(s.me.peekS b.toNat).toNat % 256]).readS a.toNat = .ok (x, s1) ∧ s1.readS b.toNat = .ok (y, s') ∧
        e = s.entry s.me (y.toNat % 256) ∧ (Ent.space e = 2 → SlotWait.sgArrived s.latch.slot ∈ s.me.seq.wait) ∧ Ent.kind e = 3 ∧ Ent.state e = 2 ∧
        x.toNat % 65536 ≠ 0 ∧ 32 * (x.toNat % 65536) + 32 ≤ Ent.len e ∧ s'.signBytes e (x.toNat % 65536) = .ok (bs, none) ∧
        (leNat bs) / 2 ^ 144 % 2 = 1 ∧ (leNat bs) / 2 ^ 128 % 65536 = x.toNat % 65536) ∧
    (∃ (g : Guard) (d : BitVec 3) (a b : BitVec 5) (s s1 s' : State) (x y : Word) (e : BitVec 256),
      s.ready g ∧ s.cached [(s.me.peekS b.toNat).toNat % 256] ∧ (∀ n r, SlotWait.sgSent s.latch.slot n r ∉ s.me.seq.wait) ∧
        (s.opened g false false [(s.me.peekS b.toNat).toNat % 256]).readS a.toNat = .ok (x, s1) ∧ s1.readS b.toNat = .ok (y, s') ∧
        e = s.entry s.me (y.toNat % 256) ∧ Ent.space e = 2 ∧ SlotWait.sgArrived s.latch.slot ∉ s.me.seq.wait) ∧
    (∃ (g : Guard) (x : BitVec 3) (s : State),
      s.ready g ∧ s.me.holds = false) ∧
    (∃ (g : Guard) (x : BitVec 3) (s : State),
      s.ready g ∧ s.me.holds = true) :=
  ⟨⟨always, 1, 7, 4, tSign [], _, _, _, _, _, _, ready_sg _, rfl, ((fun _ _ h => by change _ ∈ ([] : List SlotWait) at h; simp at h)),
    State.readS_reg _ (by decide), State.readS_reg _ (by decide), rfl, by decide, rfl, rfl, by decide, by decide, rfl, rfl, rfl⟩,
   ⟨always, 1, 7, 5, tSign [], _, _, _, _, _, ready_sg _, rfl, ((fun _ _ h => by change _ ∈ ([] : List SlotWait) at h; simp at h)),
    State.readS_reg _ (by decide), State.readS_reg _ (by decide), rfl, rfl, ((fun h => by change _ ∈ ([] : List SlotWait) at h; simp at h))⟩,
   ⟨always, 1, tGroup 0 [], ready_g _ _, rfl⟩,
   ⟨always, 1, tReplay, ready_rp, rfl⟩⟩

theorem witness_FlagStoreIssues :
    (∃ (g : Guard) (a : BitVec 5) (n : BitVec 6) (s s' : State) (x : Word) (f : FlagRef),
      FlagReady s g ∧ (s.opened g true false []).readS a.toNat = .ok (x, s') ∧ s.flagRef x = .ok f) ∧
    (∃ (g : Guard) (a : BitVec 5) (n : BitVec 6) (s s' : State) (x : Word) (f : FlagRef),
      FlagReady s g ∧ (s.opened g true false []).readS a.toNat = .ok (x, s') ∧ s.me.sys.syncwin.toNat % 256 ≤ x.toNat) ∧
    (∃ (g : Guard) (a : BitVec 5) (s s' : State) (x : Word) (f : FlagRef),
      s.ready g ∧ s.me.rpl = false ∧ (s.opened g true false []).readS a.toNat = .ok (x, s') ∧ s.flagRef x = .ok f ∧
        (∀ d m t, SlotWait.semGranted s.latch.slot d m t ∈ s.me.seq.wait → t ≤ s.clock) ∧
        (∀ d m n, SlotWait.semSent s.latch.slot d m n ∉ s.me.seq.wait) ∧ (∃ d m t, SlotWait.semGranted s.latch.slot d m t ∈ s.me.seq.wait) ∧
        ((Table.get (s.dies.getD f.die Die.reset).sems f.sem).getD {}).ovf = false) ∧
    (∃ (g : Guard) (a : BitVec 5) (s s' : State) (x : Word) (f : FlagRef),
      s.ready g ∧ s.me.rpl = false ∧ (s.opened g true false []).readS a.toNat = .ok (x, s') ∧ s.flagRef x = .ok f ∧
        (∀ d m t, SlotWait.semGranted s.latch.slot d m t ∈ s.me.seq.wait → t ≤ s.clock) ∧
        (∀ d m n, SlotWait.semSent s.latch.slot d m n ∉ s.me.seq.wait) ∧ (∀ d m t, SlotWait.semGranted s.latch.slot d m t ∉ s.me.seq.wait) ∧
        ((Table.get (s.dies.getD f.die Die.reset).sems f.sem).getD {}).ovf = false) ∧
    (∃ (g : Guard) (a : BitVec 5) (s s' : State) (x : Word) (f : FlagRef),
      s.ready g ∧ s.me.rpl = false ∧ (s.opened g true false []).readS a.toNat = .ok (x, s') ∧ s.flagRef x = .ok f ∧
        (∀ d m t, SlotWait.semGranted s.latch.slot d m t ∈ s.me.seq.wait → t ≤ s.clock) ∧
        (∀ d m n, SlotWait.semSent s.latch.slot d m n ∉ s.me.seq.wait) ∧
        ((Table.get (s.dies.getD f.die Die.reset).sems f.sem).getD {}).ovf = true) ∧
    (∃ (g : Guard) (a : BitVec 5) (s s' : State) (x : Word),
      s.ready g ∧ s.me.rpl = false ∧ (s.opened g true false []).readS a.toNat = .ok (x, s') ∧
        (∀ d m t, SlotWait.semGranted s.latch.slot d m t ∈ s.me.seq.wait → t ≤ s.clock) ∧
        (∀ d m n, SlotWait.semSent s.latch.slot d m n ∉ s.me.seq.wait) ∧ s.me.sys.syncwin.toNat % 256 ≤ x.toNat) ∧
    (∃ (g : Guard) (d : BitVec 3) (a b : BitVec 5) (s s1 s' : State) (x v : Word),
      FlagReady s g 1 ∧ (s.opened g true false []).readS a.toNat = .ok (x, s1) ∧ s1.readS b.toNat = .ok (v, s') ∧
        s.me.sys.syncwin.toNat / 2 ^ 20 % 256 ≤ x.toNat) ∧
    (∃ (g : Guard) (d a : BitVec 5) (k : BitVec 3) (s s' : State) (x : Word),
      FlagReady s g 1 ∧ (s.opened g true false []).readS a.toNat = .ok (x, s') ∧ s.me.sys.syncwin.toNat / 2 ^ 20 % 256 ≤ x.toNat) ∧
    (∃ (g : Guard) (d : BitVec 3) (a b : BitVec 5) (s s1 s' : State) (x v : Word) (die q l : Nat),
      FlagReady s g 1 ∧ (s.opened g true false []).readS a.toNat = .ok (x, s1) ∧ s1.readS b.toNat = .ok (v, s') ∧ s.tqRef x = .ok (die, q) ∧
        l = (if die = (dieOf s.cur).val then 64 else 512)) ∧
    (∃ (g : Guard) (d a : BitVec 5) (k : BitVec 3) (s s' : State) (x : Word) (die q l : Nat),
      FlagReady s g 1 ∧ (s.opened g true false []).readS a.toNat = .ok (x, s') ∧ s.tqRef x = .ok (die, q) ∧
        l = (if die = (dieOf s.cur).val then 64 else 512)) :=
  ⟨⟨always, 0, 2, tGroup 0 [], _, _, _, flags_g _ _, State.readS_reg _ (by decide), rfl⟩,
   ⟨always, 1, 2, tGroup 0 [], _, _, ⟨0, 0, 0⟩, flags_g _ _, State.readS_reg _ (by decide), by decide⟩,
   ⟨always, 0, tGroup 0 [.semGranted 0 0 8 0], _, _, _, ready_g _ _, rfl, State.readS_reg _ (by decide), rfl,
    (fun d m t h => by change _ ∈ ([.semGranted 0 0 8 0] : List SlotWait) at h; simp at h; omega),
    ((fun _ _ _ h => by change _ ∈ ([.semGranted 0 0 8 0] : List SlotWait) at h; simp at h)), (⟨0, 8, 0, List.mem_singleton.mpr rfl⟩), rfl⟩,
   ⟨always, 0, tGroup 0 [], _, _, _, ready_g _ _, rfl, State.readS_reg _ (by decide), rfl,
    ((fun _ _ _ h => by change _ ∈ ([] : List SlotWait) at h; simp at h)), ((fun _ _ _ h => by change _ ∈ ([] : List SlotWait) at h; simp at h)),
    ((fun _ _ _ h => by change _ ∈ ([] : List SlotWait) at h; simp at h)), rfl⟩,
   ⟨always, 0, tOver, _, _, _, ⟨rfl, by decide, rfl, rfl, rfl, rfl, rfl, by decide⟩, rfl, State.readS_reg _ (by decide), rfl,
    ((fun _ _ _ h => by change _ ∈ ([] : List SlotWait) at h; simp at h)), ((fun _ _ _ h => by change _ ∈ ([] : List SlotWait) at h; simp at h)), rfl⟩,
   ⟨always, 1, tGroup 0 [], _, _, ready_g _ _, rfl, State.readS_reg _ (by decide),
    ((fun _ _ _ h => by change _ ∈ ([] : List SlotWait) at h; simp at h)), ((fun _ _ _ h => by change _ ∈ ([] : List SlotWait) at h; simp at h)), by decide⟩,
   ⟨always, 1, 1, 1, tGroup 0 [], _, _, _, _, flags_g1 _ _, State.readS_reg _ (by decide), State.readS_reg _ (by decide), by decide⟩,
   ⟨always, 1, 1, 1, tGroup 0 [], _, _, flags_g1 _ _, State.readS_reg _ (by decide), by decide⟩,
   ⟨always, 1, 0, 1, tGroup 0 [], _, _, _, _, _, _, _, flags_g1 _ _, State.readS_reg _ (by decide), State.readS_reg _ (by decide), rfl, rfl⟩,
   ⟨always, 1, 0, 1, tGroup 0 [], _, _, _, _, _, flags_g1 _ _, State.readS_reg _ (by decide), rfl, rfl⟩⟩

theorem witness_CommandIssues :
    (∃ (pl : PlaneInfo) (i : Instr) (f : CmdForm) (s s1 : State) (a r : Option FlagRef) (mask : Option (BitVec 128)),
      cmdForm pl i = some f ∧ s.ready f.g ∧ s.queueRoom (f.queue s) ∧ s.cached (f.uses s) ∧ tokenBad (f.queue s) f.e = false ∧ f.checks s ∧
        f.mask s = .ok mask ∧ (∀ h ∈ f.pins s, Ent.pin (s.homeEntry (s.me.ctx.getD 64) h.h) + s.pinsSent (s.me.ctx.getD 64) h.h < 65535) ∧
        (s.opened f.g true false (f.uses s)).flagOperand f.e = .ok (a, r, s1) ∧ (∀ k, f.rq = some k → (s1.me.regs.q.getD k []).length < 4) ∧
        (f.e.p = 1 → (s1.me.regs.q.getD 7 []).length < 4) ∧
        (s.me.holds = true → (s.me.eng.held.filter fun h => match h.eff with | .cmd x => x.queue = f.queue s | _ => false).length < 16)) ∧
    (∃ (pl : PlaneInfo) (i : Instr) (f : CmdForm) (s s1 : State) (a r : Option FlagRef) (mask : Option (BitVec 128)),
      cmdForm pl i = some f ∧ s.ready f.g ∧ s.queueRoom (f.queue s) ∧ s.cached (f.uses s) ∧ tokenBad (f.queue s) f.e = false ∧ f.checks s ∧
        f.mask s = .ok mask ∧ (∀ h ∈ f.pins s, Ent.pin (s.homeEntry (s.me.ctx.getD 64) h.h) + s.pinsSent (s.me.ctx.getD 64) h.h < 65535) ∧
        (s.opened f.g true false (f.uses s)).flagOperand f.e = .ok (a, r, s1) ∧ (∀ k, f.rq = some k → (s1.me.regs.q.getD k []).length < 4) ∧
        (f.e.p = 1 → (s1.me.regs.q.getD 7 []).length < 4) ∧
        (s.me.holds = true → (s.me.eng.held.filter fun h => match h.eff with | .cmd x => x.queue = f.queue s | _ => false).length < 16)) ∧
    (∃ (pl : PlaneInfo) (i : Instr) (f : CmdForm) (s s1 : State) (a r : Option FlagRef) (mask : Option (BitVec 128)),
      cmdForm pl i = some f ∧ s.ready f.g ∧ s.queueRoom (f.queue s) ∧ s.cached (f.uses s) ∧ tokenBad (f.queue s) f.e = false ∧ f.checks s ∧
        f.mask s = .ok mask ∧ (∀ h ∈ f.pins s, Ent.pin (s.homeEntry (s.me.ctx.getD 64) h.h) + s.pinsSent (s.me.ctx.getD 64) h.h < 65535) ∧
        (s.opened f.g true false (f.uses s)).flagOperand f.e = .ok (a, r, s1) ∧ (∀ k, f.rq = some k → (s1.me.regs.q.getD k []).length < 4) ∧
        (f.e.p = 1 → (s1.me.regs.q.getD 7 []).length < 4) ∧
        (s.me.holds = true → (s.me.eng.held.filter fun h => match h.eff with | .cmd x => x.queue = f.queue s | _ => false).length < 16)) ∧
    (∃ (pl : PlaneInfo) (i : Instr) (f : CmdForm) (s s1 : State) (a r : Option FlagRef) (mask : Option (BitVec 128)),
      cmdForm pl i = some f ∧ s.ready f.g ∧ s.queueRoom (f.queue s) ∧ s.cached (f.uses s) ∧ tokenBad (f.queue s) f.e = false ∧ f.checks s ∧
        f.mask s = .ok mask ∧ (∀ h ∈ f.pins s, Ent.pin (s.homeEntry (s.me.ctx.getD 64) h.h) + s.pinsSent (s.me.ctx.getD 64) h.h < 65535) ∧
        (s.opened f.g true false (f.uses s)).flagOperand f.e = .ok (a, r, s1) ∧ (∀ k, f.rq = some k → (s1.me.regs.q.getD k []).length < 4) ∧
        (f.e.p = 1 → (s1.me.regs.q.getD 7 []).length < 4) ∧
        (s.me.holds = true → (s.me.eng.held.filter fun h => match h.eff with | .cmd x => x.queue = f.queue s | _ => false).length < 16)) ∧
    (∃ (pl : PlaneInfo) (i : Instr) (f : CmdForm) (s s1 : State) (a r : Option FlagRef) (mask : Option (BitVec 128)),
      cmdForm pl i = some f ∧ s.ready f.g ∧ s.queueRoom (f.queue s) ∧ s.cached (f.uses s) ∧ tokenBad (f.queue s) f.e = false ∧ f.checks s ∧
        f.mask s = .ok mask ∧ (∀ h ∈ f.pins s, Ent.pin (s.homeEntry (s.me.ctx.getD 64) h.h) + s.pinsSent (s.me.ctx.getD 64) h.h < 65535) ∧
        (s.opened f.g true false (f.uses s)).flagOperand f.e = .ok (a, r, s1) ∧ (∀ k, f.rq = some k → (s1.me.regs.q.getD k []).length < 4) ∧
        (f.e.p = 1 → (s1.me.regs.q.getD 7 []).length < 4) ∧
        (s.me.holds = true → (s.me.eng.held.filter fun h => match h.eff with | .cmd x => x.queue = f.queue s | _ => false).length < 16)) ∧
    (∃ (pl : PlaneInfo) (i : Instr) (f : CmdForm) (s s1 : State) (a r : Option FlagRef) (mask : Option (BitVec 128)),
      cmdForm pl i = some f ∧ s.ready f.g ∧ s.queueRoom (f.queue s) ∧ s.cached (f.uses s) ∧ tokenBad (f.queue s) f.e = false ∧ f.checks s ∧
        f.mask s = .ok mask ∧ (∀ h ∈ f.pins s, Ent.pin (s.homeEntry (s.me.ctx.getD 64) h.h) + s.pinsSent (s.me.ctx.getD 64) h.h < 65535) ∧
        (s.opened f.g true false (f.uses s)).flagOperand f.e = .ok (a, r, s1) ∧ (∀ k, f.rq = some k → (s1.me.regs.q.getD k []).length < 4) ∧
        (f.e.p = 1 → (s1.me.regs.q.getD 7 []).length < 4) ∧
        (s.me.holds = true → (s.me.eng.held.filter fun h => match h.eff with | .cmd x => x.queue = f.queue s | _ => false).length < 16)) ∧
    (∃ (pl : PlaneInfo) (i : Instr) (f : CmdForm) (s s1 : State) (a r : Option FlagRef) (mask : Option (BitVec 128)),
      cmdForm pl i = some f ∧ s.ready f.g ∧ s.queueRoom (f.queue s) ∧ s.cached (f.uses s) ∧ tokenBad (f.queue s) f.e = false ∧ f.checks s ∧
        f.mask s = .ok mask ∧ (∀ h ∈ f.pins s, Ent.pin (s.homeEntry (s.me.ctx.getD 64) h.h) + s.pinsSent (s.me.ctx.getD 64) h.h < 65535) ∧
        (s.opened f.g true false (f.uses s)).flagOperand f.e = .ok (a, r, s1) ∧ (∀ k, f.rq = some k → (s1.me.regs.q.getD k []).length < 4) ∧
        (f.e.p = 1 → (s1.me.regs.q.getD 7 []).length < 4) ∧
        (s.me.holds = true → (s.me.eng.held.filter fun h => match h.eff with | .cmd x => x.queue = f.queue s | _ => false).length < 16)) ∧
    (∃ (pl : PlaneInfo) (i : Instr) (f : CmdForm) (s s1 : State) (a r : Option FlagRef) (mask : Option (BitVec 128)),
      cmdForm pl i = some f ∧ s.ready f.g ∧ s.queueRoom (f.queue s) ∧ s.cached (f.uses s) ∧ tokenBad (f.queue s) f.e = false ∧ f.checks s ∧
        f.mask s = .ok mask ∧ (∀ h ∈ f.pins s, Ent.pin (s.homeEntry (s.me.ctx.getD 64) h.h) + s.pinsSent (s.me.ctx.getD 64) h.h < 65535) ∧
        (s.opened f.g true false (f.uses s)).flagOperand f.e = .ok (a, r, s1) ∧ (∀ k, f.rq = some k → (s1.me.regs.q.getD k []).length < 4) ∧
        (f.e.p = 1 → (s1.me.regs.q.getD 7 []).length < 4) ∧
        (s.me.holds = true → (s.me.eng.held.filter fun h => match h.eff with | .cmd x => x.queue = f.queue s | _ => false).length < 16)) ∧
    (∃ (pl : PlaneInfo) (i : Instr) (f : CmdForm) (s s1 : State) (a r : Option FlagRef) (mask : Option (BitVec 128)),
      cmdForm pl i = some f ∧ s.ready f.g ∧ s.queueRoom (f.queue s) ∧ s.cached (f.uses s) ∧ tokenBad (f.queue s) f.e = false ∧ f.checks s ∧
        f.mask s = .ok mask ∧ (∀ h ∈ f.pins s, Ent.pin (s.homeEntry (s.me.ctx.getD 64) h.h) + s.pinsSent (s.me.ctx.getD 64) h.h < 65535) ∧
        (s.opened f.g true false (f.uses s)).flagOperand f.e = .ok (a, r, s1) ∧ (∀ k, f.rq = some k → (s1.me.regs.q.getD k []).length < 4) ∧
        (f.e.p = 1 → (s1.me.regs.q.getD 7 []).length < 4) ∧
        (s.me.holds = true → (s.me.eng.held.filter fun h => match h.eff with | .cmd x => x.queue = f.queue s | _ => false).length < 16)) ∧
    (∃ (pl : PlaneInfo) (i : Instr) (f : CmdForm) (s s1 : State) (a r : Option FlagRef) (mask : Option (BitVec 128)),
      cmdForm pl i = some f ∧ s.ready f.g ∧ s.queueRoom (f.queue s) ∧ s.cached (f.uses s) ∧ tokenBad (f.queue s) f.e = false ∧ f.checks s ∧
        f.mask s = .ok mask ∧ (∀ h ∈ f.pins s, Ent.pin (s.homeEntry (s.me.ctx.getD 64) h.h) + s.pinsSent (s.me.ctx.getD 64) h.h < 65535) ∧
        (s.opened f.g true false (f.uses s)).flagOperand f.e = .ok (a, r, s1) ∧ (∀ k, f.rq = some k → (s1.me.regs.q.getD k []).length < 4) ∧
        (f.e.p = 1 → (s1.me.regs.q.getD 7 []).length < 4) ∧
        (s.me.holds = true → (s.me.eng.held.filter fun h => match h.eff with | .cmd x => x.queue = f.queue s | _ => false).length < 16)) ∧
    (∃ (pl : PlaneInfo) (i : Instr) (f : CmdForm) (s s1 : State) (a r : Option FlagRef) (mask : Option (BitVec 128)),
      cmdForm pl i = some f ∧ s.ready f.g ∧ s.queueRoom (f.queue s) ∧ s.cached (f.uses s) ∧ tokenBad (f.queue s) f.e = false ∧ f.checks s ∧
        f.mask s = .ok mask ∧ (∀ h ∈ f.pins s, Ent.pin (s.homeEntry (s.me.ctx.getD 64) h.h) + s.pinsSent (s.me.ctx.getD 64) h.h < 65535) ∧
        (s.opened f.g true false (f.uses s)).flagOperand f.e = .ok (a, r, s1) ∧ (∀ k, f.rq = some k → (s1.me.regs.q.getD k []).length < 4) ∧
        (f.e.p = 1 → (s1.me.regs.q.getD 7 []).length < 4) ∧
        (s.me.holds = true → (s.me.eng.held.filter fun h => match h.eff with | .cmd x => x.queue = f.queue s | _ => false).length < 16)) ∧
    (∃ (pl : PlaneInfo) (i : Instr) (f : CmdForm) (s s1 : State) (a r : Option FlagRef) (mask : Option (BitVec 128)),
      cmdForm pl i = some f ∧ s.ready f.g ∧ s.queueRoom (f.queue s) ∧ s.cached (f.uses s) ∧ tokenBad (f.queue s) f.e = false ∧ f.checks s ∧
        f.mask s = .ok mask ∧ (∀ h ∈ f.pins s, Ent.pin (s.homeEntry (s.me.ctx.getD 64) h.h) + s.pinsSent (s.me.ctx.getD 64) h.h < 65535) ∧
        (s.opened f.g true false (f.uses s)).flagOperand f.e = .ok (a, r, s1) ∧ (∀ k, f.rq = some k → (s1.me.regs.q.getD k []).length < 4) ∧
        (f.e.p = 1 → (s1.me.regs.q.getD 7 []).length < 4) ∧
        (s.me.holds = true → (s.me.eng.held.filter fun h => match h.eff with | .cmd x => x.queue = f.queue s | _ => false).length < 16)) ∧
    (∃ (pl : PlaneInfo) (i : Instr) (f : CmdForm) (s s1 : State) (a r : Option FlagRef) (mask : Option (BitVec 128)),
      cmdForm pl i = some f ∧ s.ready f.g ∧ s.queueRoom (f.queue s) ∧ s.cached (f.uses s) ∧ tokenBad (f.queue s) f.e = false ∧ f.checks s ∧
        f.mask s = .ok mask ∧ (∀ h ∈ f.pins s, Ent.pin (s.homeEntry (s.me.ctx.getD 64) h.h) + s.pinsSent (s.me.ctx.getD 64) h.h < 65535) ∧
        (s.opened f.g true false (f.uses s)).flagOperand f.e = .ok (a, r, s1) ∧ (∀ k, f.rq = some k → (s1.me.regs.q.getD k []).length < 4) ∧
        (f.e.p = 1 → (s1.me.regs.q.getD 7 []).length < 4) ∧
        (s.me.holds = true → (s.me.eng.held.filter fun h => match h.eff with | .cmd x => x.queue = f.queue s | _ => false).length < 16)) ∧
    (∃ (pl : PlaneInfo) (i : Instr) (f : CmdForm) (s s1 : State) (a r : Option FlagRef) (mask : Option (BitVec 128)),
      cmdForm pl i = some f ∧ s.ready f.g ∧ s.queueRoom (f.queue s) ∧ s.cached (f.uses s) ∧ tokenBad (f.queue s) f.e = false ∧ f.checks s ∧
        f.mask s = .ok mask ∧ (∀ h ∈ f.pins s, Ent.pin (s.homeEntry (s.me.ctx.getD 64) h.h) + s.pinsSent (s.me.ctx.getD 64) h.h < 65535) ∧
        (s.opened f.g true false (f.uses s)).flagOperand f.e = .ok (a, r, s1) ∧ (∀ k, f.rq = some k → (s1.me.regs.q.getD k []).length < 4) ∧
        (f.e.p = 1 → (s1.me.regs.q.getD 7 []).length < 4) ∧
        (s.me.holds = true → (s.me.eng.held.filter fun h => match h.eff with | .cmd x => x.queue = f.queue s | _ => false).length < 16)) ∧
    (∃ (pl : PlaneInfo) (i : Instr) (f : CmdForm) (s s1 : State) (a r : Option FlagRef) (mask : Option (BitVec 128)),
      cmdForm pl i = some f ∧ s.ready f.g ∧ s.queueRoom (f.queue s) ∧ s.cached (f.uses s) ∧ tokenBad (f.queue s) f.e = false ∧ f.checks s ∧
        f.mask s = .ok mask ∧ (∀ h ∈ f.pins s, Ent.pin (s.homeEntry (s.me.ctx.getD 64) h.h) + s.pinsSent (s.me.ctx.getD 64) h.h < 65535) ∧
        (s.opened f.g true false (f.uses s)).flagOperand f.e = .ok (a, r, s1) ∧ (∀ k, f.rq = some k → (s1.me.regs.q.getD k []).length < 4) ∧
        (f.e.p = 1 → (s1.me.regs.q.getD 7 []).length < 4) ∧
        (s.me.holds = true → (s.me.eng.held.filter fun h => match h.eff with | .cmd x => x.queue = f.queue s | _ => false).length < 16)) ∧
    (∃ (pl : PlaneInfo) (i : Instr) (f : CmdForm) (s s1 : State) (a r : Option FlagRef) (mask : Option (BitVec 128)),
      cmdForm pl i = some f ∧ s.ready f.g ∧ s.queueRoom (f.queue s) ∧ s.cached (f.uses s) ∧ tokenBad (f.queue s) f.e = false ∧ f.checks s ∧
        f.mask s = .ok mask ∧ (∀ h ∈ f.pins s, Ent.pin (s.homeEntry (s.me.ctx.getD 64) h.h) + s.pinsSent (s.me.ctx.getD 64) h.h < 65535) ∧
        (s.opened f.g true false (f.uses s)).flagOperand f.e = .ok (a, r, s1) ∧ (∀ k, f.rq = some k → (s1.me.regs.q.getD k []).length < 4) ∧
        (f.e.p = 1 → (s1.me.regs.q.getD 7 []).length < 4) ∧
        (s.me.holds = true → (s.me.eng.held.filter fun h => match h.eff with | .cmd x => x.queue = f.queue s | _ => false).length < 16)) ∧
    (∃ (pl : PlaneInfo) (i : Instr) (f : CmdForm) (s s1 : State) (a r : Option FlagRef) (mask : Option (BitVec 128)),
      cmdForm pl i = some f ∧ s.ready f.g ∧ s.queueRoom (f.queue s) ∧ s.cached (f.uses s) ∧ tokenBad (f.queue s) f.e = false ∧ f.checks s ∧
        f.mask s = .ok mask ∧ (∀ h ∈ f.pins s, Ent.pin (s.homeEntry (s.me.ctx.getD 64) h.h) + s.pinsSent (s.me.ctx.getD 64) h.h < 65535) ∧
        (s.opened f.g true false (f.uses s)).flagOperand f.e = .ok (a, r, s1) ∧ (∀ k, f.rq = some k → (s1.me.regs.q.getD k []).length < 4) ∧
        (f.e.p = 1 → (s1.me.regs.q.getD 7 []).length < 4) ∧
        (s.me.holds = true → (s.me.eng.held.filter fun h => match h.eff with | .cmd x => x.queue = f.queue s | _ => false).length < 16)) ∧
    (∃ (pl : PlaneInfo) (i : Instr) (f : CmdForm) (s s1 : State) (a r : Option FlagRef) (mask : Option (BitVec 128)),
      cmdForm pl i = some f ∧ s.ready f.g ∧ s.queueRoom (f.queue s) ∧ s.cached (f.uses s) ∧ tokenBad (f.queue s) f.e = false ∧ f.checks s ∧
        f.mask s = .ok mask ∧ (∀ h ∈ f.pins s, Ent.pin (s.homeEntry (s.me.ctx.getD 64) h.h) + s.pinsSent (s.me.ctx.getD 64) h.h < 65535) ∧
        (s.opened f.g true false (f.uses s)).flagOperand f.e = .ok (a, r, s1) ∧ (∀ k, f.rq = some k → (s1.me.regs.q.getD k []).length < 4) ∧
        (f.e.p = 1 → (s1.me.regs.q.getD 7 []).length < 4) ∧
        (s.me.holds = true → (s.me.eng.held.filter fun h => match h.eff with | .cmd x => x.queue = f.queue s | _ => false).length < 16)) ∧
    (∃ (pl : PlaneInfo) (i : Instr) (f : CmdForm) (s s1 : State) (a r : Option FlagRef) (mask : Option (BitVec 128)),
      cmdForm pl i = some f ∧ s.ready f.g ∧ s.queueRoom (f.queue s) ∧ s.cached (f.uses s) ∧ tokenBad (f.queue s) f.e = false ∧ f.checks s ∧
        f.mask s = .ok mask ∧ (∀ h ∈ f.pins s, Ent.pin (s.homeEntry (s.me.ctx.getD 64) h.h) + s.pinsSent (s.me.ctx.getD 64) h.h < 65535) ∧
        (s.opened f.g true false (f.uses s)).flagOperand f.e = .ok (a, r, s1) ∧ (∀ k, f.rq = some k → (s1.me.regs.q.getD k []).length < 4) ∧
        (f.e.p = 1 → (s1.me.regs.q.getD 7 []).length < 4) ∧
        (s.me.holds = true → (s.me.eng.held.filter fun h => match h.eff with | .cmd x => x.queue = f.queue s | _ => false).length < 16)) :=
  ⟨⟨{ fmt := 1 }, .mlease always 4 noOpts, _, tCmd, _, _, _, _, rfl, ready_c, (Or.inr (by decide)), (rfl), rfl, (trivial), (rfl),
    (by decide +kernel), (rfl), (by decide), (by decide), (by decide)⟩,
   ⟨{ fmt := 1 }, .mfree always noOpts, _, tCmd, _, _, _, _, rfl, ready_c, (Or.inr (by decide)), (rfl), rfl, (trivial), (rfl),
    (by decide +kernel), (rfl), (by decide), (by decide), (by decide)⟩,
   ⟨{ fmt := 1 }, .mldw always 2 0 0 0 noOpts, _, tCmd, _, _, _, _, rfl, ready_c, (Or.inr (by decide)), (rfl), rfl,
    (⟨rfl, rfl, rfl, ⟨rfl, by decide⟩, rfl, by decide, by decide, by decide, rfl, Or.inl rfl, rfl⟩), (rfl),
    (by decide +kernel), (rfl), (by decide), (by decide), (by decide)⟩,
   ⟨{ fmt := 1 }, .mrun always 1 9 0 0 0 noOpts, _, tCmd, _, _, _, _, rfl, ready_c, (Or.inr (by decide)), (rfl), rfl,
    (⟨⟨by decide, by decide, by decide, by decide⟩, rfl, ⟨rfl, by decide⟩, Or.inl rfl, ⟨rfl, rfl⟩, rfl, rfl, nofun, rfl, fun _ n hn => (by match n, hn with | 0, _ => exact ⟨rfl, Or.inl rfl⟩)⟩),
    (rfl), (by decide +kernel), (rfl), (by decide), (by decide), (by decide)⟩,
   ⟨{ fmt := 1 }, .mdrain always 1 10 0 0 noOpts, _, tCmd, _, _, _, _, rfl, ready_c, (Or.inr (by decide)), (rfl), rfl,
    (⟨⟨by decide, by decide, by decide, by decide⟩, by decide, by decide, rfl, ⟨rfl, by decide⟩, by decide, by decide, by decide, rfl, rfl, Or.inl rfl⟩),
    (rfl), (by decide +kernel), (rfl), (by decide), (by decide), (by decide)⟩,
   ⟨{ fmt := 1 }, .mclr always 9 noOpts, _, tCmd, _, _, _, _, rfl, ready_c, (Or.inr (by decide)), (rfl), rfl,
    (⟨by decide, by decide, by decide, by decide⟩), (rfl), (by decide +kernel), (rfl), (by decide),
    (by decide), (by decide)⟩,
   ⟨{ fmt := 1 }, .massay always 3 9 0 noOpts, _, tCmd, _, _, _, _, rfl, ready_c, (Or.inr (by decide)), (rfl), rfl, (⟨rfl, rfl⟩), (rfl),
    (by decide +kernel), (rfl), (by decide), (by decide), (by decide)⟩,
   ⟨{ fmt := 1 }, .copy always 1 2 noOpts, _, tCmd, _, _, _, _, rfl, ready_c, (Or.inr (by decide)), (rfl), rfl,
    (⟨trivial, _, ⟨rfl, ⟨by decide, by decide⟩, by decide, ⟨⟨rfl, by decide⟩, ⟨rfl, by decide⟩⟩, rfl, by decide, Or.inl rfl, ⟨Or.inl rfl, Or.inl rfl⟩, Or.inl rfl, by decide⟩⟩),
    (rfl), (by decide +kernel), (rfl), (by decide), (by decide), (by decide)⟩,
   ⟨{ fmt := 1 }, .copy2 always 1 2 0 noOpts, _, tCmd, _, _, _, _, rfl, ready_c, (Or.inr (by decide)), (rfl), rfl,
    (⟨trivial, _, ⟨rfl, ⟨by decide, by decide⟩, by decide, ⟨⟨rfl, by decide⟩, ⟨rfl, by decide⟩⟩, rfl, by decide, Or.inl rfl, ⟨Or.inl rfl, Or.inl rfl⟩, Or.inl rfl, by decide⟩⟩),
    (rfl), (by decide +kernel), (rfl), (by decide), (by decide), (by decide)⟩,
   ⟨{ fmt := 1 }, .gath always 1 4 noOpts, _, tCmd, _, _, _, _, rfl, ready_c, (Or.inr (by decide)), (rfl), rfl,
    (⟨trivial, _, ⟨rfl, ⟨by decide, by decide⟩, by decide, ⟨⟨rfl, by decide⟩, ⟨rfl, by decide⟩⟩, rfl, by decide, Or.inl rfl, ⟨Or.inl rfl, Or.inl rfl⟩, Or.inl rfl, by decide⟩⟩),
    (rfl), (by decide +kernel), (rfl), (by decide), (by decide), (by decide)⟩,
   ⟨{ fmt := 1 }, .mcast always 1 2 0 0 noOpts, _, tCmd, _, _, _, _, rfl, ready_c, (Or.inr (by decide)), (rfl), rfl,
    (⟨⟨rfl, 5, rfl⟩, _, ⟨rfl, ⟨by decide, by decide⟩, by decide, ⟨⟨rfl, by decide⟩, ⟨rfl, by decide⟩⟩, rfl, by decide, Or.inl rfl, ⟨Or.inl rfl, Or.inl rfl⟩, Or.inl rfl, by decide⟩⟩),
    (rfl), (by decide +kernel), (rfl), (by decide), (by decide), (by decide)⟩,
   ⟨{ fmt := 1 }, .subs always 6 2 0 noOpts, _, tCmd, _, _, _, _, rfl, ready_c, (Or.inr (by decide)), (rfl), rfl,
    (⟨⟨rfl, by decide, by decide, by decide, rfl, Or.inl rfl⟩, rfl, nofun, fun _ => ⟨by decide, ⟨rfl, by decide⟩, rfl, rfl, rfl, Or.inr rfl, Or.inl rfl, Or.inl rfl⟩⟩),
    (rfl), (by decide +kernel), (rfl), (by decide), (by decide), (by decide)⟩,
   ⟨{ fmt := 1 }, .unsub always 1 noOpts, _, tCmd, _, _, _, _, rfl, ready_c, (Or.inr (by decide)), (rfl), rfl, (trivial), (rfl),
    (by decide +kernel), (rfl), (by decide), (by decide), (by decide)⟩,
   ⟨{ fmt := 1 }, .rfree always 1 0 noOpts, _, tCmd, _, _, _, _, rfl, ready_c, (Or.inr (by decide)), (rfl), rfl, (trivial), (rfl),
    (by decide +kernel), (rfl), (by decide), (by decide), (by decide)⟩,
   ⟨{ fmt := 1 }, .hfetch always 12 0 noOpts, _, tCmd, _, _, _, _, rfl, ready_c, (Or.inr (by decide)), (rfl), rfl, (trivial), (rfl),
    (by decide +kernel), (rfl), (by decide), (by decide), (by decide)⟩,
   ⟨{ fmt := 1 }, .prosp always 7 11 0 noOpts, _, tCmd, _, _, _, _, rfl, ready_c, (Or.inr (by decide)), (rfl), rfl,
    (⟨rfl, by decide, rfl, Or.inl (by decide), rfl, rfl, Or.inr ⟨rfl, rfl⟩, by decide, by decide⟩), (rfl),
    (by decide +kernel), (rfl), (by decide), (by decide), (by decide)⟩,
   ⟨{ fmt := 1 }, .hrebind always 12 0 noOpts, _, tCmd, _, _, _, _, rfl, ready_c, (Or.inr (by decide)), (rfl), rfl, (trivial), (rfl),
    (by decide +kernel), (rfl), (by decide), (by decide), (by decide)⟩,
   ⟨{ fmt := 1 }, .decj always 8 0 noOpts, _, tCmd, _, _, _, _, rfl, ready_c, (Or.inr (by decide)), (rfl), rfl, (⟨by decide, by decide, rfl, rfl, Or.inl rfl⟩),
    (rfl), (by decide +kernel), (rfl), (by decide), (by decide), (by decide)⟩,
   ⟨{ fmt := 1 }, .publish always 7 noOpts, _, tCmd, _, _, _, _, rfl, ready_c, (Or.inr (by decide)), (rfl), rfl, (trivial), (rfl),
    (by decide +kernel), (rfl), (by decide), (by decide), (by decide)⟩⟩

theorem witness_FlagStoreEvents :
    (∃ (m : Nat) (s : State) (d : Fin 4) (f n : Nat),
      waiting s m (.semInc d.val f n)) ∧
    (∃ (d : Fin 4) (f : Fin 4096) (s : State) (w : SemWaiter),
      (s.dies[d]).semWait.find? (fun w => decide (w.sem = f.val)) = some w ∧ 0 < (semOf s d f.val).count.toNat ∧ w.cmd = none ∧ s.clock ≤ w.limit) ∧
    (∃ (m : Nat) (s : State) (c l p q slot limit r : Nat) (d : Fin 4) (v : Word),
      waiting s m (.tqPush c l p d.val q slot limit r v)) ∧
    (∃ (m : Nat) (s : State) (c l p dst q slot limit r : Nat) (d : Fin 4),
      waiting s m (.tqPop c l p dst d.val q slot limit r)) :=
  ⟨⟨3, tMsg (.semInc 0 8 2), 0, 8, 2, rfl⟩,
   ⟨0, 8, { tS with dies := State.reset.dies.set 0 { Die.reset with sems := [(8, ⟨7, false⟩)], semWait := [⟨8, 0, 2, 4, none, 20⟩] } },
    ⟨8, 0, 2, 4, none, 20⟩, rfl, by decide, rfl, by decide⟩,
   ⟨3, tMsg (.tqPush 0 1 2 0 4 3 64 7 99), 0, 1, 2, 4, 3, 64, 7, 0, 99, rfl⟩,
   ⟨3, tMsg (.tqPop 0 1 2 6 0 4 3 64 7), 0, 1, 2, 6, 4, 3, 64, 7, 0, rfl⟩⟩

theorem witness_GroupEvents :
    (∃ (m : Nat) (s : State) (c n : Nat) (g : Group),
      waiting s m (.arrive c n) ∧ Table.get s.groups n = some g ∧ ({ g with arrived := g.arrived ||| (1#256 <<< c) } : Group).complete = false) ∧
    (∃ (m : Nat) (s : State) (c n : Nat) (g : Group),
      waiting s m (.arrive c n) ∧ Table.get s.groups n = some g ∧ c < 256 ∧
        ({ g with arrived := g.arrived ||| (1#256 <<< c) } : Group).complete = true) ∧
    (∃ (m : Nat) (s : State) (c n p slot : Nat) (st : Bool) (gen : BitVec 32),
      waiting s m (.resume c n gen st) ∧ (s.core (coreId c)).seq.mode = .barrier n p (some gen) slot ∧ 0 < p ∧ p < 8 ∧
        (p < 4 ∨ (s.core (coreId c)).rpl = false)) ∧
    (∃ (m : Nat) (s : State) (c n p slot : Nat) (st : Bool) (gen : BitVec 32),
      waiting s m (.resume c n gen st) ∧ (s.core (coreId c)).seq.mode.suspends = true ∧
        (s.core (coreId c)).seq.resume = .barrier n p (some gen) slot ∧ 0 < p ∧ p < 8 ∧ (p < 4 ∨ (s.core (coreId c)).rpl = false)) ∧
    (∃ (m : Nat) (s : State) (c n : Nat) (st : Bool) (gen : BitVec 32),
      waiting s m (.resume c n gen st) ∧ (∀ p slot, RunMode.barrier n p (some gen) slot ∉ (s.core (coreId c)).waits)) ∧
    (∃ (k : Fin 64) (mask : BitVec 4) (s : State),
      s.mismatched k = [] ∧ mask ≠ 0 ∧ s.allFused k mask = true) ∧
    (∃ (c : Fin 256) (s : State) (mask : BitVec 4) (t n : Nat),
      ((s.core c).seq.mode = .fusing mask t n ∨ (s.core c).seq.mode = .rejoining t n) ∧ s.since c.val t 65536 = true) ∧
    (∃ (k : Fin 64) (mask : BitVec 4) (s : State),
      mask ≠ 0 ∧ (∀ c ∈ maskCores k mask, (s.core c).gmask = mask.toNat ∧ (s.core c).seq.next = [] ∧
          ∃ t n, (s.core c).seq.mode = .rejoining t n ∧ t < s.clock) ∧
        (∀ c ∈ clusterCores k, c ∉ maskCores k mask → (s.core c).gmask = 0)) ∧
    (∃ (k : Fin 64) (c : Fin 256) (s : State) (t n : Nat),
      c ∈ clusterCores k ∧ (∀ o ∈ clusterCores k, (s.core o).gmask = 0) ∧ (s.core c).seq.mode = .rejoining t n ∧ t < s.clock ∧
        (s.core c).seq.next = []) :=
  ⟨⟨3, { tMsg (.arrive 0 5) with groups := [(5, { ctx := 0, members := 3 })] }, 0, 5, { ctx := 0, members := 3 }, rfl, rfl, rfl⟩,
   ⟨3, { tMsg (.arrive 0 5) with groups := [(5, { ctx := 0, members := 1 })] }, 0, 5, { ctx := 0, members := 1 }, rfl, rfl, by decide, rfl⟩,
   ⟨3, { tMode (.barrier 5 6 (some 0) 2) with msgs := [⟨3, 0, .resume 0 5 0 true⟩] }, 0, 5, 6, 2, true, 0, rfl, rfl, by decide, by decide, Or.inr rfl⟩,
   ⟨3, { tOn { tCore with seq := { tCore.seq with mode := .frozen 0, resume := .barrier 5 7 (some 0) 2 } } with msgs := [⟨3, 0, .resume 0 5 0 true⟩] },
    0, 5, 7, 2, true, 0, rfl, rfl, rfl, by decide, by decide, Or.inr rfl⟩,
   ⟨3, { tMode (.barrier 5 1 (some 1) 2) with msgs := [⟨3, 0, .resume 0 5 0 true⟩] }, 0, 5, true, 0, rfl,
    (fun p slot h => by change _ ∈ [RunMode.barrier 5 1 (some 1) 2] at h; simp at h)⟩,
   ⟨0, 3,
    { tMode (.fusing 1 0 2) with cores := (State.reset.cores.set 0 { Core.reset with seq := { Core.reset.seq with mode := .fusing 3 0 2 } }).set 1 { Core.reset with seq := { Core.reset.seq with mode := .fusing 3 0 2 } } },
    (by decide +kernel), by decide, (by decide +kernel)⟩,
   ⟨0, tMode (.rejoining 0 2), 3, 0, 2, Or.inr rfl, (by decide +kernel)⟩,
   ⟨0, 3,
    { tMode (.rejoining 0 2) with cores := (State.reset.cores.set 0 (({ Core.reset with seq := { Core.reset.seq with mode := .rejoining 0 2 } } : Core).setGang 3 2)).set 1 (({ Core.reset with seq := { Core.reset.seq with mode := .rejoining 0 2 } } : Core).setGang 3 2) },
    by decide,
    (by intro c hc; revert c; change ∀ c ∈ [(0 : Fin 256), 1], _; intro c hc; simp at hc; rcases hc with rfl | rfl <;> exact ⟨rfl, rfl, 0, 2, rfl, by decide +kernel⟩),
    (by intro c hc; revert c; change ∀ c ∈ [(0 : Fin 256), 1, 2, 3], _; decide +kernel)⟩,
   ⟨0, 0, tMode (.rejoining 0 2), 0, 2, (by decide +kernel), (by intro c hc; revert c; change ∀ c ∈ [(0 : Fin 256), 1, 2, 3], _; decide +kernel), rfl,
    (by decide +kernel), rfl⟩⟩

theorem witness_RemoteEvents :
    (∃ (m : Nat) (s : State) (c l ctx h d r slot limit a old n : Nat) (e : BitVec 256) (off v new : Word) (op : AtomOp) (w64 u : Bool) (pc : BitVec 13),
      waiting s m (.ratom c l ctx h e off op.code w64 u v new d r pc slot limit) ∧ n = (if w64 then 8 else 4) ∧
        a = bankAddr (Ent.rbank e) (Ent.base e + off.toNat) ∧ old = leNat ((s.core (coreId (Ent.rcore e))).sto.spad.readN a n) ∧
        v.toNat < 2 ^ (8 * n) ∧ new.toNat < 2 ^ (8 * n) ∧ s.runsCtx (Ent.rcore e) ctx = true) ∧
    (∃ (m : Nat) (s : State) (c l ctx h d r slot limit a old n : Nat) (e : BitVec 256) (off v new : Word) (op : AtomOp) (w64 u : Bool) (pc : BitVec 13),
      waiting s m (.ratom c l ctx h e off op.code w64 u v new d r pc slot limit) ∧ n = (if w64 then 8 else 4) ∧
        a = bankAddr (Ent.rbank e) (Ent.base e + off.toNat) ∧ old = leNat ((s.core (coreId (Ent.rcore e))).sto.spad.readN a n) ∧
        v.toNat < 2 ^ (8 * n) ∧ new.toNat < 2 ^ (8 * n) ∧ s.runsCtx (Ent.rcore e) ctx = false) ∧
    (∃ (m : Nat) (s : State) (c l ctx target d qid limit : Nat) (key : Word),
      waiting s m (.probe c l ctx target key d qid limit)) ∧
    (∃ (m : Nat) (s : State) (c ctx h id : Nat) (v : BitVec 32) (x : Ctx),
      waiting s m (.futFill c ctx h v id) ∧ Table.get s.ctxs ctx = some x ∧ Ent.space (x.entry h) ≠ 0 ∧ Ent.kind (x.entry h) = 1 ∧
        Ent.state (x.entry h) = 0) ∧
    (∃ (m : Nat) (s : State) (c ctx h id : Nat) (v : BitVec 32) (e : BitVec 256) (r : BitVec 4),
      waiting s m (.futFill c ctx h v id) ∧ e = s.homeEntry ctx h ∧
        ((Ent.space e = 0 ∨ Ent.state e = 4) ∧ r = 1 ∨ Ent.space e ≠ 0 ∧ Ent.state e ≠ 4 ∧
          (Ent.kind e ≠ 1 ∧ r = 0 ∨ Ent.kind e = 1 ∧ Ent.state e ≠ 0 ∧ r = 2))) ∧
    (∃ (m : Nat) (s : State) (c id : Nat) (r : Option (BitVec 4)),
      waiting s m (.futAnswer c r id)) :=
  ⟨⟨3,
    { tMsg (.ratom 0 1 0 6 (tEnt 0 0x40 4 0 2 0) 8 (AtomOp.code .add) true false 5 0 3 7 9 2 256) with cores := State.reset.cores.set 0 { tCore with run := some { tRun with ctx := 0 } } },
    0, 1, 0, 6, 3, 7, 2, 256, _, _, 8, (tEnt 0 0x40 4 0 2 0), 8, 5, 0, .add, true, false, 9, rfl, (rfl), (rfl), (rfl), by decide, by decide,
    (by decide +kernel)⟩,
   ⟨3, tMsg (.ratom 0 1 0 6 (tEnt 0 0x40 4 0 2 0) 8 (AtomOp.code .add) true false 5 0 3 7 9 2 256), 0, 1, 0, 6, 3, 7, 2, 256, _, _, 8,
    (tEnt 0 0x40 4 0 2 0), 8, 5, 0, .add, true, false, 9, rfl, (rfl), (rfl), (rfl), by decide, by decide, (by decide +kernel)⟩,
   ⟨3, tMsg (.probe 0 1 0 4 77 2 6 300), 0, 1, 0, 4, 2, 6, 300, 77, rfl⟩,
   ⟨3, { tMsg (.futFill 0 0 10 9 4) with ctxs := [(0, tCtx)] }, 0, 0, 10, 4, 9, tCtx, rfl, rfl, (by decide +kernel), (by decide +kernel),
    (by decide +kernel)⟩,
   ⟨3, { tMsg (.futFill 0 0 5 9 4) with ctxs := [(0, tCtx)] }, 0, 0, 5, 4, 9, _, 0, rfl, rfl,
    Or.inr ⟨by decide +kernel, by decide +kernel, Or.inl ⟨by decide +kernel, rfl⟩⟩⟩,
   ⟨3, tMsg (.futAnswer 0 none 4), 0, 4, none, rfl⟩⟩

theorem witness_FillAndSegmentArrival :
    (∃ (c : Fin 256) (s : State) (t u : Nat) (hs : List Nat),
      (s.core c).seq.mode = .filling t u hs ∧ hs ≠ [] ∧ hs.Nodup ∧ hs.length ≤ 32 ∧ u ≤ s.clock ∧ (∀ h ∈ hs, s.tableStalled c h = false) ∧
        (∀ h ∈ hs, s.tablePoison c h = false)) ∧
    (∃ (c : Fin 256) (s : State) (t u : Nat),
      (s.core c).seq.mode = .filling t u [] ∧ u ≤ s.clock ∧ (∀ w, (s.core c).seq.resume = .asleep w none → (s.cycle - w).toInt < 0)) ∧
    (∃ (c : Fin 256) (s : State) (t u : Nat) (w : Word),
      (s.core c).seq.mode = .filling t u [] ∧ u ≤ s.clock ∧ (s.core c).seq.resume = .asleep w none ∧ 0 ≤ (s.cycle - w).toInt) ∧
    (∃ (c : Fin 256) (s : State) (t u h : Nat) (hs : List Nat),
      (s.core c).seq.mode = .filling t u (h :: hs) ∧ s.since c.val t 65536 = true ∧ (s.core c).settled = true) ∧
    (∃ (c : Fin 256) (s : State) (n half t off len crc : Nat) (code : List Byte) (bad : Bool),
      s.inv ∧ (s.core c).sto.seg.copy = some (n, half, t) ∧ t ≤ s.clock ∧ s.segmentStalled (s.core c) n = false ∧ (off, len, half, crc) = segEntry (s.image (s.core c)) n ∧
        (code, bad) = s.segmentCode (s.core c) n) ∧
    (∃ (c : Fin 256) (s : State) (n off len half crc : Nat) (r : RunRec) (l : Launch) (bs : List Byte) (po : Option Nat),
      (off, len, half, crc) = segEntry (s.image (s.core c)) n ∧ (s.core c).run = some r ∧ Table.get s.launches r.launch = some l ∧
        Ent.space l.imageAt.e = 2 ∧ s.hbmRead l.ctx (Ent.base l.imageAt.e + off) (32 * len) = .ok (bs, po)) :=
  ⟨⟨0, tMode (.filling 0 100 [5, 9]), 0, 100, [5, 9], rfl, by decide, by decide, by decide, (by decide +kernel), (fun h _ => rows_free _ rfl _), (by decide +kernel)⟩,
   ⟨0, tMode (.filling 0 100 []), 0, 100, rfl, (by decide +kernel), (fun w h => by cases h)⟩,
   ⟨0, { tOn { tCore with seq := { tCore.seq with mode := .filling 0 100 [], resume := .asleep 0x1FFF9 none } } with clock := 0x20000 }, 0, 100, 0x1FFF9,
    rfl, (by decide +kernel), rfl, (by decide +kernel)⟩,
   ⟨0, tMode (.filling 0 100 [5, 9]), 0, 100, 5, [9], rfl, (by decide +kernel), (by decide +kernel)⟩,
   ⟨0, tSeg, 0, 1, 50, _, _, _, _, _, (⟨by decide +kernel, by decide⟩), rfl, (by decide +kernel), (by decide +kernel), (rfl), (rfl)⟩,
   tSeg_read.elim fun y h => ⟨0, tSegHbm, 0, 0, 2, 1, 0, tRun, _, y.1, y.2, (by decide +kernel), rfl, rfl, (by decide +kernel), h⟩⟩

theorem witness_CoreWaitEvents :
    (∃ (c : Fin 256) (s : State) (r : TrapReq),
      (s.core c).seq.mode = .trapping r ∧ (s.core c).settled = true ∧ (s.core c).sys.tvec.getLsbD 0 = true ∧ (s.core c).live = false ∧
        r.trap.cause.fatal = false) ∧
    (∃ (c : Fin 256) (s : State) (r : TrapReq),
      (s.core c).seq.mode = .running ∧ (s.core c).settled = true ∧ (s.core c).live = false ∧ (s.core c).seq.wait = [] ∧
        (s.core c).sys.tvec.getLsbD 0 = true ∧ (s.core c).nextEvent = some r ∧ r.trap.cause.fatal = false) ∧
    (∃ (c : Fin 256) (s : State) (w : Word) (p : Option Nat),
      (s.core c).seq.mode = .asleep w p ∧ (s.cycle - w).toInt < 0) ∧
    (∃ (c : Fin 256) (s : State) (w : Word) (p : Option Nat),
      (s.core c).seq.mode = .asleep w p ∧ 0 ≤ (s.cycle - w).toInt ∧ (p.bind fun id => (s.core c).cmd id) = none) ∧
    (∃ (c : Fin 256) (s : State) (w : Word) (p : Option Nat) (cmd : _),
      (s.core c).seq.mode = .asleep w p ∧ 0 ≤ (s.cycle - w).toInt ∧ (p.bind fun id => (s.core c).cmd id) = some cmd ∧ (s.core c).live = true) ∧
    (∃ (c : Fin 256) (s : State) (w : Word) (p : Option Nat) (cmd : _),
      (s.core c).seq.mode = .asleep w p ∧ 0 ≤ (s.cycle - w).toInt ∧ (p.bind fun id => (s.core c).cmd id) = some cmd ∧ (s.core c).live = false ∧
        (s.core c).seq.events = [] ∧ (s.core c).seq.wait = [] ∧ (s.core c).settled = true ∧ (s.core c).sys.tvec.getLsbD 0 = true) ∧
    (∃ (m : Nat) (s : State) (n l : Nat) (ws : List Write),
      waiting s m (.landed n l ws) ∧ (∀ t, (s.core (coreId n)).seq.mode ≠ .frozen t)) ∧
    (∃ (c : Fin 256) (s : State) (t : Nat),
      (s.core c).seq.mode = .frozen t ∧ t + 4096 ≤ s.clock ∧ (s.core c).seq.pend = [] ∧
        (∀ l ∈ (s.core c).seq.landings, l.due ≤ (s.core c).seq.rn ∧ l.arrived = none)) :=
  ⟨⟨0, tMode (.trapping (tReq .privilege)), tReq .privilege, rfl, (rfl), (rfl), (rfl), (rfl)⟩,
   ⟨0, tOn { tCore with seq := { tCore.seq with events := [tReq .privilege] } }, tReq .privilege, rfl, rfl, rfl, rfl, rfl, rfl, rfl⟩,
   ⟨0, tMode (.asleep 0x20009 none), 0x20009, none, rfl, (by decide +kernel)⟩,
   ⟨0, tMode (.asleep 0x1FFF9 none), 0x1FFF9, none, rfl, (by decide +kernel), rfl⟩,
   ⟨0, tAsleep, 0x1FFF9, some 4, _, rfl, (by decide +kernel), rfl, rfl⟩,
   ⟨0, { tOn { tCore with seq := { tCore.seq with mode := .asleep 0x1FFF9 (some 4) }, eng := { tCore.eng with queues := #v[[], [tCommand 1 0x40], []] } } with clock := 0x20000 },
    0x1FFF9, some 4, _, rfl, (by decide +kernel), rfl, rfl, rfl, rfl, rfl, rfl⟩,
   ⟨3, tMsg (.landed 0 1 [.scalar 5 9]), 0, 1, [.scalar 5 9], rfl, (fun t h => by cases h)⟩,
   ⟨0, tMode (.frozen 0), 0, rfl, (by decide +kernel), rfl, (fun l hl => by cases hl)⟩⟩

theorem witness_LeaseEvents :
    (∃ (f : Fin 64) (s : State) (r : LeaseReq) (pre post : List LeaseReq),
      (s.faces[f]).lease = none ∧ (s.faces[f]).testing = none ∧ (s.faces[f]).endedAt ≠ some s.clock ∧ (s.faces[f]).waiting = pre ++ r :: post ∧
        (∀ x ∈ (s.faces[f]).waiting, x.k < 4) ∧ (∀ x ∈ pre, searchRank (s.faces[f]).lastGrant r.k < searchRank (s.faces[f]).lastGrant x.k) ∧
        (∀ x ∈ post, searchRank (s.faces[f]).lastGrant r.k ≤ searchRank (s.faces[f]).lastGrant x.k) ∧
        (∀ cmd, r.cmd = some cmd.id → (s.core (coreId (4 * f.val + r.who))).cmd cmd.id = some cmd → cmd.op.toNat = 0x40)) ∧
    (∃ (f : Fin 64) (s : State) (r : LeaseReq) (pre post : List LeaseReq) (cmd : Cmd),
      (s.faces[f]).lease = none ∧ (s.faces[f]).testing = none ∧ (s.faces[f]).endedAt ≠ some s.clock ∧ (s.faces[f]).waiting = pre ++ r :: post ∧
        (∀ x ∈ (s.faces[f]).waiting, x.k < 4) ∧ (∀ x ∈ pre, searchRank (s.faces[f]).lastGrant r.k < searchRank (s.faces[f]).lastGrant x.k) ∧
        (∀ x ∈ post, searchRank (s.faces[f]).lastGrant r.k ≤ searchRank (s.faces[f]).lastGrant x.k) ∧
        r.cmd = some cmd.id ∧ (s.core (coreId (4 * f.val + r.who))).cmd cmd.id = some cmd ∧ cmd.op.toNat ≠ 0x40) ∧
    (∃ (f : Fin 64) (s : State) (l : Lease),
      (s.faces[f]).lease = some l) ∧
    (∃ (f : Fin 64) (s : State) (l : Lease),
      (s.faces[f]).lease = some l ∧ (l.expired || l.freed) = true ∧
        (∀ c ∈ clusterCores f, l.mask.getLsbD (c.val % 4) = true → ∀ x ∈ (s.core c).started, x.isMatrix = false)) ∧
    (∃ (c : Fin 256) (n t : Nat) (s : State) (cmd : Cmd),
      ((s.core c).eng.queues.getD 1 []).find? (fun x => decide (x.id = n)) = some cmd ∧ cmd.op.toNat = 0x43 ∧ cmd.prog.tile = [] ∧
        cmd.prog.start = some t ∧ t + stretch (s.dies[dieOf c.val].step) (mrunTiming cmd).1 ≤ s.clock) :=
  ⟨⟨0, { tQueue 1 (tCommand 1 0x40) with faces := State.reset.faces.set 0 { Face.reset with waiting := [⟨0, 4, some 4, 0⟩, ⟨2, 9, none, 2⟩] } },
    ⟨0, 4, some 4, 0⟩, [], [⟨2, 9, none, 2⟩], rfl, rfl, (nofun), rfl, (by decide), (by decide), (by decide),
    (fun x h h2 => by have e : 4 = x.id := Option.some.inj h; rw [← e] at h2; cases Option.some.inj h2; rfl)⟩,
   ⟨0, { tQueue 1 (tCommand 1 0x43) with faces := State.reset.faces.set 0 { Face.reset with waiting := [⟨0, 64, some 4, 0⟩, ⟨2, 9, none, 2⟩] } },
    ⟨0, 64, some 4, 0⟩, [], [⟨2, 9, none, 2⟩], tCommand 1 0x43, rfl, rfl, (nofun), rfl, (by decide), (by decide), (by decide), rfl, rfl, (by decide)⟩,
   ⟨0, { tS with faces := State.reset.faces.set 0 { Face.reset with lease := some ⟨0, 1, 0, 0, true, false⟩ } }, _, rfl⟩,
   ⟨0, { tS with faces := State.reset.faces.set 0 { Face.reset with lease := some ⟨0, 1, 0, 0, true, false⟩ } }, ⟨0, 1, 0, 0, true, false⟩, rfl, rfl,
    (by intro c hc; revert c; change ∀ c ∈ [(0 : Fin 256), 1, 2, 3], _; intro c hc; simp at hc; rcases hc with rfl | rfl | rfl | rfl <;> intro _ x hx <;> cases hx)⟩,
   ⟨0, 4, 1, tQueue 1 { tCommand 1 0x43 with prog := { start := some 1 } }, _, rfl, rfl, rfl, rfl, (by decide +kernel)⟩⟩

/-- A due MRUN of one row into row 0, of 32 elements 3 under scale 128, on a plane of 32 by 2 weights. -/
def tMrun : Cmd := { tDue 1 0x43 with
  cap := { x := 64, mb := 2 }
  prog := { start := some 1, due := some 40, tile := [List.replicate 32 (3, 128)] } }
def tPlane (layout : BitVec 1) : Plane :=
  { valid := true, info := { fmt := 1, layout := layout, kext := 32, next := 2 }, w := List.replicate 32 [1, -2], scale := [[127, 130]] }
def tArray (layout : BitVec 1) (x : Cmd) : State := { tQueue 1 x with
  faces := State.reset.faces.set 0 { Face.reset with planes := #v[tPlane layout, {}] } }


/-- A due MLDW of 16 by 2 dense INT8 weights, or of one sparse record, behind handle 14 into plane 0. -/
def tMldw (fmt : BitVec 8) : Cmd := { tDue 1 0x42 with
  cap := { ma := tRows 14 1 0, ha := ⟨14, tEnt 0x100 0x440 1 0 2 2⟩, fa := { code := 1 }
           plane := if fmt = 1 then { fmt := 1, kext := 16, next := 2 } else { fmt := fmt, kext := 12, next := 128 } } }
/-- A due load or drain on a core whose bank 2 holds bytes from handle 14 on. -/
def tBank (x : Cmd) (bs : List Byte) : State := { tQueue 1 x with
  cores := (tQueue 1 x).cores.set 0 { (tQueue 1 x).core 0 with sto := { ((tQueue 1 x).core 0).sto with spad := tCells (0x60100) bs } } }
/-- A due MDRAIN of one FP32 element of row 0 to handle 14. -/
def tMdrain : Cmd := { tDue 1 0x44 with
  cap := { x := 64 + 2 ^ 23, ma := tRows 14 0x10 0, mb := 1, ha := ⟨14, tEnt 0x100 0x440 1 0 2 2⟩, fa := { code := 0x10 } } }
/-- A due MASSAY of plane 0. -/
def tMassay : Cmd := { tDue 1 0x46 with cap := { x := 9, y := 7 } }
/-- A due COPY of 16 bytes from handle 15 (HBM) to handle 14 (LOCAL); and one refused for its overlap. -/
def tCopy : Cmd := { tDue 0 0x48 with
  cap := { ma := tRows 14 1 0, mb := tRows 15 1 0, ha := ⟨14, tEnt 0x100 0x440 1 0 2 2⟩, hb := ⟨15, tEnt 0 0x400 2 0 2 0⟩
           fa := { code := 1 }, fb := { code := 1 } } }
def tRefused : Cmd := { tCopy with prog := { tCopy.prog with outcome := 1 } }
/-- The load through a map whose handle ends before its place; and of MXINT8 blocks with inline scales behind a handle of some length. -/
def tMldwOut : Cmd := { tMldw 1 with cap := { (tMldw 1).cap with ha := ⟨14, tEnt 0x100 0 1 0 2 2⟩ } }
def tMldwMx (len : Nat) : Cmd := { tMldw 1 with cap := { (tMldw 1).cap with
  ha := ⟨14, tEnt 0x100 len 1 0 2 2⟩, fa := { code := 0x40, ssrc := 0 }, plane := { fmt := 0x40, layout := 1, kext := 32, next := 2 } } }

theorem acc_clean (s : State) (h : (s.core 0).sto.acc = Vector.replicate 64 {}) (r : Nat) : ((s.core 0).sto.acc.getD r {}).poison = 0 := by
  rw [h]; simp only [Vector.getD, Array.getD]; split <;> simp

theorem sto_clean (x : Cmd) (k : Fin 256) : ((tQueue 0 x).core k).sto.poison = [] := by
  by_cases h : k = 0
  · subst h; rfl
  · simp [tQueue, tOn, State.core, State.reset, h, Vector.getElem_set, Ne.symm (fun e => h (Fin.ext e) : k.val ≠ 0)]; rfl

theorem local_inj (o o' : Nat) (h : ((0 : Fin 256).val, localAddr tCopy.cap.ha.e o) = ((0 : Fin 256).val, localAddr tCopy.cap.ha.e o')) : o = o' := by
  have h := congrArg Prod.snd h
  simp only [localAddr, bankAddr] at h
  omega

/-- A due command on the ring of handle 14, and the package with its subscription. -/
def tRing (q : Nat) (op : BitVec 7) (n : Word) : Cmd := { tDue q op with cap := { (tSub false true).cmd.cap with x := n } }
def tSubbed (q : Fin 3) (x : Cmd) (y : Sub) : State := { tQueue q x with
  cores := (tQueue q x).cores.set 0 { (tQueue q x).core 0 with eng := { ((tQueue q x).core 0).eng with subs := [y] } } }
/-- A due HFETCH of handle 13, with WAIT or without, its outcome given; and the context with handle 13 retired or staged. -/
def tFetch (wait : BitVec 3) (o : Word) : Cmd := { tDue 0 0x50 with cf := wait, cap := { ha := ⟨13, 0⟩ }, prog := { start := some 1, due := some 40, outcome := o } }
def tAwait (st : Nat) (x : Cmd) : State := { tQueue 0 x with ctxs := [(0, { tMapped with handles := [(13, tEnt 0 0x40 0 2 st 0)] })] }
/-- The fault slot of queue 1 is free, or holds an MRUN. -/
def tFull (full : Bool) (x : Cmd) : State := { tQueue 1 x with
  cores := (tQueue 1 x).cores.set 0 { (tQueue 1 x).core 0 with eng := { ((tQueue 1 x).core 0).eng with
    fault := #v[none, if full then some { tMrun with id := 3 } else none, none] } } }
/-- The MCLR of a handler. -/
def tHandled : Cmd := { tCommand 1 0x45 with prog := { waiting := true } }

/-! The effects that the statement on engine events names. -/

theorem witness_MrunEffect (l : BitVec 1) :
    ∃ (c : Fin 256) (n : Nat) (s : State) (x : Cmd) (p : Plane),
      Due s c 1 n x ∧ x.op.toNat = 0x43 ∧ x.prog.tile ≠ [] ∧ x.prog.bad = none ∧
        p = (s.faces[clusterOf c.val]).planes.getD (descPlane x.cap.x) {} ∧ p.w.length = p.info.kext ∧ p.info.next ≤ 1024 ∧
        descRow0 x.cap.x + descM x.cap.x ≤ 64 ∧ (∀ r, ((s.core c).sto.acc.getD r {}).poison = 0) ∧ p.info.layout = l ∧ x.prog.commit ≤ 0 ∧
        0 < descM x.cap.x ∧ 0 < p.info.next :=
  ⟨0, 4, tArray l tMrun, tMrun, tPlane l, ⟨rfl, rfl, rfl, 40, rfl, show 40 ≤ 5000 by decide⟩, rfl, nofun, rfl, rfl, rfl, show 2 ≤ 1024 by decide, by decide,
    acc_clean _ rfl, rfl, by decide, by decide, show 0 < 2 by decide⟩

theorem witness_MldwEffect :
    (∃ (c : Fin 256) (n : Nat) (s : State) (x : Cmd) (k j : Nat) (b : Byte) (po : Option Nat),
      Due s c 1 n x ∧ x.op.toNat = 0x42 ∧ (s.core c).sto.poison = [] ∧ s.hbmPoison = [] ∧ x.prog.struck = [] ∧ isSparse x.cap.plane.fmt = false ∧
        (x.cap.fa.width = 4 ∨ x.cap.fa.width = 8) ∧ (x.cap.plane.layout = 1 → x.cap.fa.code = 0x40) ∧ k < x.cap.plane.kext ∧ j < x.cap.plane.next ∧
        (loadPlace x k j).inside = true ∧ loadRd s c x x.cap.ha (x.cap.fa.phys (loadPlace x k j).off) 1 = .ok ([b], po) ∧
        (x.cap.plane.layout = 1 → ∃ sc, loadScale s c x (k / 32 * 32) j = .ok sc)) ∧
    (∃ (c : Fin 256) (n : Nat) (s : State) (x : Cmd) (k j : Nat) (e : Reason × Nat),
      Due s c 1 n x ∧ x.op.toNat = 0x42 ∧ (s.core c).sto.poison = [] ∧ s.hbmPoison = [] ∧ x.prog.struck = [] ∧ isSparse x.cap.plane.fmt = false ∧
        (x.cap.fa.width = 4 ∨ x.cap.fa.width = 8) ∧ (x.cap.plane.layout = 1 → x.cap.fa.code = 0x40) ∧ k < x.cap.plane.kext ∧ j < x.cap.plane.next ∧
        loadRd s c x x.cap.ha (x.cap.fa.phys (loadPlace x k j).off) 1 = .error e) ∧
    (∃ (c : Fin 256) (n : Nat) (s : State) (x : Cmd) (k j : Nat) (b : Byte) (po : Option Nat),
      Due s c 1 n x ∧ x.op.toNat = 0x42 ∧ (s.core c).sto.poison = [] ∧ s.hbmPoison = [] ∧ x.prog.struck = [] ∧ isSparse x.cap.plane.fmt = false ∧
        (x.cap.fa.width = 4 ∨ x.cap.fa.width = 8) ∧ (x.cap.plane.layout = 1 → x.cap.fa.code = 0x40) ∧ k < x.cap.plane.kext ∧ j < x.cap.plane.next ∧
        x.cap.plane.layout = 1 ∧ k / 32 < x.cap.plane.kext / 32 ∧ loadScale s c x (k / 32 * 32) j = .ok ([b], po)) ∧
    (∃ (c : Fin 256) (n : Nat) (s : State) (x : Cmd) (k j : Nat) (e : Reason × Nat),
      Due s c 1 n x ∧ x.op.toNat = 0x42 ∧ (s.core c).sto.poison = [] ∧ s.hbmPoison = [] ∧ x.prog.struck = [] ∧ isSparse x.cap.plane.fmt = false ∧
        (x.cap.fa.width = 4 ∨ x.cap.fa.width = 8) ∧ (x.cap.plane.layout = 1 → x.cap.fa.code = 0x40) ∧ k < x.cap.plane.kext ∧ j < x.cap.plane.next ∧
        x.cap.plane.layout = 1 ∧ k / 32 < x.cap.plane.kext / 32 ∧ loadScale s c x (k / 32 * 32) j = .error e) ∧
    (∃ (c : Fin 256) (n : Nat) (s : State) (x : Cmd) (b g : Nat) (bs : Nat → Byte),
      Due s c 1 n x ∧ x.op.toNat = 0x42 ∧ (s.core c).sto.poison = [] ∧ s.hbmPoison = [] ∧ x.prog.struck = [] ∧ isSparse x.cap.plane.fmt = true ∧
        b < x.cap.plane.next / 128 ∧ g < x.cap.plane.kext / 12 ∧
        (∀ i, i < recordBytes x.cap.plane.fmt (sparseN x.cap.plane.ncode) → recordByte s c x b g i = .ok ([bs i], none)) ∧
        (bs 0).toNat = 0x51 ∧ (∀ i, 1 ≤ i → i < 16 → bs i = 0)) ∧
    (∃ (c : Fin 256) (n : Nat) (s : State) (x : Cmd) (b g : Nat) (bs : Nat → Byte),
      Due s c 1 n x ∧ x.op.toNat = 0x42 ∧ (s.core c).sto.poison = [] ∧ s.hbmPoison = [] ∧ x.prog.struck = [] ∧ isSparse x.cap.plane.fmt = true ∧
        b < x.cap.plane.next / 128 ∧ g < x.cap.plane.kext / 12 ∧
        (∀ i, i < recordBytes x.cap.plane.fmt (sparseN x.cap.plane.ncode) → recordByte s c x b g i = .ok ([bs i], none)) ∧
        (∀ i, i < 16 → bs i = 0)) :=
  ⟨⟨0, 4, tBank (tMldw 1) [9], tMldw 1, 0, 0, _, _, ⟨rfl, rfl, rfl, 40, rfl, by decide⟩, rfl, rfl, rfl, rfl, rfl, Or.inr rfl, nofun, by decide, by decide,
    rfl, rfl, nofun⟩,
   ⟨0, 4, tBank tMldwOut [9], tMldwOut, 0, 0, _, ⟨rfl, rfl, rfl, 40, rfl, by decide⟩, rfl, rfl, rfl, rfl, rfl, Or.inr rfl, nofun, by decide, by decide, rfl⟩,
   ⟨0, 4, tBank (tMldwMx 0x440) [9], tMldwMx 0x440, 0, 0, _, _, ⟨rfl, rfl, rfl, 40, rfl, by decide⟩, rfl, rfl, rfl, rfl, rfl, Or.inr rfl, fun _ => rfl, by decide,
    by decide, rfl, by decide, rfl⟩,
   ⟨0, 4, tBank (tMldwMx 0) [9], tMldwMx 0, 0, 0, _, ⟨rfl, rfl, rfl, 40, rfl, by decide⟩, rfl, rfl, rfl, rfl, rfl, Or.inr rfl, fun _ => rfl, by decide,
    by decide, rfl, by decide, rfl⟩,
   ⟨0, 4, tBank (tMldw 0x61) [0x51], tMldw 0x61, 0, 0, fun i => if i = 0 then 0x51 else 0, ⟨rfl, rfl, rfl, 40, rfl, by decide⟩, rfl, rfl, rfl, rfl, rfl,
    by decide, by decide, fun i hi => is_of _ _ (by revert i; decide +kernel), rfl, fun i h _ => if_neg (by omega)⟩,
   ⟨0, 4, tBank (tMldw 0x60) [], tMldw 0x60, 0, 0, fun _ => 0, ⟨rfl, rfl, rfl, 40, rfl, by decide⟩, rfl, rfl, rfl, rfl, rfl,
    by decide, by decide, fun i hi => is_of _ _ (by revert i; decide +kernel), fun _ _ => rfl⟩⟩

theorem witness_MdrainEffect :
    ∃ (c : Fin 256) (n : Nat) (s : State) (x : Cmd) (el : Elem) (r j : Nat) (v rs cs : Machine.Num),
      s.inv ∧ Due s c 1 n x ∧ x.op.toNat = 0x44 ∧ Ent.space x.cap.ha.e = 1 ∧ (s.core c).sto.poison = [] ∧
        (∀ r, ((s.core c).sto.acc.getD r {}).poison = 0) ∧ descRow0 x.cap.x + descM x.cap.x ≤ 64 ∧ descCol0 x.cap.x + descN x.cap.x ≤ 1024 ∧
        fmtElem x.cap.fa.code.toNat x.cap.fa.aux.toNat = some el ∧ isBlockFmt x.cap.fa.code.toNat = false ∧ x.cap.fa.sideHandle = false ∧
        x.cap.fa.tag.none? = true ∧ x.prog.commit ≤ r ∧ r < descM x.cap.x ∧ j < descN x.cap.x ∧
        Writable x.cap.fa x.cap.fa.bytes (s.engRd c x.ctx x.cap.epoch localSpace 4 x.cap.ha true) (TMap.locate x.cap.ma (x.cap.fa.width = 4) 2 [j, r] none) ∧
        (∀ q i, q < descM x.cap.x → i < descN x.cap.x → (r < q ∨ (r = q ∧ j < i)) →
          Apart x.cap.fa x.cap.fa.bytes (TMap.locate x.cap.ma (x.cap.fa.width = 4) 2 [j, r] none) (TMap.locate x.cap.ma (x.cap.fa.width = 4) 2 [i, q] none)) ∧
        x.rowCode r % 4 = 1 ∧
        (isFinite v ∧ ratVal v = (asInt 32 true (accAt (s.core c) (descRow0 x.cap.x + r) (descCol0 x.cap.x + j)) : Rat) / tagB (x.rowCode r / 4) ∧ (ratVal v = 0 → v = .zero false)) ∧
        DrainScale s c x (x.cf.getLsbD 0) x.cap.hc r rs ∧ DrainScale s c x (x.cf.getLsbD 1) x.cap.hd (descCol0 x.cap.x + j) cs ∧
        isFinite v ∧ isFinite rs ∧ isFinite cs :=
  ⟨0, 4, tBank tMdrain [], tMdrain, _, 0, 0, .zero false, _, _, ⟨by decide +kernel, by decide⟩, ⟨rfl, rfl, rfl, 40, rfl, by decide⟩, rfl, rfl, rfl,
    acc_clean _ rfl, by decide, by decide, rfl, rfl, rfl, rfl, by decide, by decide, by decide, ⟨rfl, rfl, ⟨_, rfl⟩, _, rfl⟩,
    fun q i hq hi h => absurd h (by have : q < 1 := hq; have : i < 1 := hi; omega), rfl,
    ⟨⟨rfl, rfl⟩, by decide +kernel, fun _ => rfl⟩, ⟨fun _ => rfl, nofun⟩, ⟨fun _ => rfl, nofun⟩, ⟨rfl, rfl⟩, ⟨rfl, rfl⟩, ⟨rfl, rfl⟩⟩

theorem witness_MassayEffect :
    ∃ (c : Fin 256) (n : Nat) (s : State) (x : Cmd) (p : Plane),
      Due s c 1 n x ∧ x.op.toNat = 0x46 ∧ p = (s.faces[clusterOf c.val]).planes.getD (x.cf.toNat % 2) {} :=
  ⟨0, 4, tArray 0 tMassay, tMassay, _, ⟨rfl, rfl, rfl, 40, rfl, by decide⟩, rfl, rfl⟩

theorem witness_CopyEffect :
    (∃ (c : Fin 256) (q : Fin 3) (n : Nat) (s v : State) (x : Cmd),
      s.inv ∧ Due s c q.val n x ∧ 0x48 ≤ x.op.toNat ∧ x.op.toNat ≤ 0x4B ∧ v = asStarted s x ∧ x.prog.consumed = false ∧ x.prog.struck = [] ∧ flashPages (v.copyReads c x) = [] ∧ s.hbmPoison = [] ∧
        s.hostPoison = [] ∧ (∀ k, (s.core k).sto.poison = []) ∧ (x.rel = none ∨ x.scope ≠ 4) ∧ x.prog.outcome = 1) ∧
    (∃ (c : Fin 256) (q : Fin 3) (n : Nat) (s v : State) (x : Cmd) (ns : List Nat) (d : HInfo × HInfo) (p i1 j1 z : Nat) (src dst : Loc),
      s.inv ∧ Due s c q.val n x ∧ 0x48 ≤ x.op.toNat ∧ x.op.toNat ≤ 0x4B ∧ v = asStarted s x ∧ x.prog.consumed = false ∧ x.prog.struck = [] ∧ flashPages (v.copyReads c x) = [] ∧ s.hbmPoison = [] ∧
        s.hostPoison = [] ∧ (∀ k, (s.core k).sto.poison = []) ∧ x.prog.outcome ≠ 1 ∧
        copyCounts x.copyKind x.cap.ma x.cap.mb = .ok ns ∧ d ∈ v.copyDests c x ∧
        (x.op.toNat = 0x4B →
          ((s.core (coreId (if Ent.space d.1.e = 4 then Ent.rcore d.1.e else c.val))).sys.bankfmt.getD (Ent.bank x.cap.ha.e) 0) = x.cap.y) ∧
        (isBlockFmt x.cap.fa.code.toNat = true → x.cap.fa.ssrc ≠ 1) ∧
        (∀ o o' y, o < Ent.len d.1.e → o' < Ent.len d.1.e → cellOf v c x.ctx d.1.e o = some y → cellOf v c x.ctx d.1.e o' = some y → o = o') ∧
        (v.copyTiles c x).2[p]? = some (i1, src, j1, dst) ∧
        Writable x.cap.fa (if x.cap.fa.code = 0 then x.cap.fb.bytes else x.cap.fa.bytes) (v.copyRd c x d.1 true) dst ∧
        (∀ k i j src' l, p < k → (v.copyTiles c x).2[k]? = some (i, src', j, l) →
          Writable x.cap.fa (if x.cap.fa.code = 0 then x.cap.fb.bytes else x.cap.fa.bytes) (v.copyRd c x d.1 true) l →
          Apart x.cap.fa (if x.cap.fa.code = 0 then x.cap.fb.bytes else x.cap.fa.bytes) dst l) ∧
        CopyValue x ns p (readElem x.cap.fb x.cap.fb.width (!plainPair x.cap.fa x.cap.fb) (v.copyRd c x x.cap.hb false)
          (v.copyRd c x x.cap.fb.sh false) i1 src) z) :=
  ⟨⟨0, 0, 4, tQueue 0 tRefused, _, tRefused, ⟨by decide +kernel, by decide⟩, ⟨rfl, rfl, rfl, 40, rfl, by decide⟩, by decide, by decide, rfl, rfl, rfl,
    (by decide +kernel), rfl, rfl, sto_clean _, Or.inl rfl, rfl⟩,
   ⟨0, 0, 4, tQueue 0 tCopy, tQueue 0 tCopy, tCopy, [16, 1, 1, 1, 1], (tCopy.cap.ha, tCopy.cap.fa.sh), 15, _, _, _, _, _, ⟨by decide +kernel, by decide⟩, ⟨rfl, rfl, rfl, 40, rfl, by decide⟩, by decide, by decide, rfl, rfl, rfl,
    (by decide +kernel), rfl, rfl, sto_clean _, by decide, rfl, List.mem_singleton.mpr rfl, nofun, nofun,
    (fun o o' y _ _ h h' => local_inj o o' (Option.some.inj (h.trans h'.symm))), rfl, ⟨rfl, rfl, ⟨_, rfl⟩, _, rfl⟩,
    (fun k i j a l hk h => by
      have e : ((tQueue 0 tCopy).copyTiles 0 tCopy).2.length = 16 := by decide +kernel
      rw [List.getElem?_eq_none (by omega)] at h; cases h), Or.inl ⟨rfl, rfl⟩⟩⟩

theorem witness_RingEffects :
    (∃ (c : Fin 256) (n : Nat) (s : State) (x : Cmd),
      s.inv ∧ Due s c 0 n x ∧ x.op.toNat = 0x4C ∧ Ent.space x.cap.ha.e = 1 ∧ ringShut x.cap.ha = none) ∧
    (∃ (c : Fin 256) (n : Nat) (s : State) (x : Cmd),
      s.inv ∧ Due s c 0 n x ∧ x.op.toNat = 0x4D ∧ (s.core c).subOf x.cap.ha.h = none) ∧
    (∃ (c : Fin 256) (n : Nat) (s : State) (x : Cmd) (y : Sub),
      s.inv ∧ Due s c 0 n x ∧ x.op.toNat = 0x4D ∧ (s.core c).subOf x.cap.ha.h = some y ∧ Ent.space y.ring.e = 1 ∧ ringShut y.ring = none ∧
        s.inFlight c y = false) ∧
    (∃ (c : Fin 256) (n : Nat) (s : State) (x : Cmd) (y : Sub),
      s.inv ∧ Due s c 0 n x ∧ x.op.toNat = 0x4D ∧ (s.core c).subOf x.cap.ha.h = some y ∧ Ent.space y.ring.e = 1 ∧ ringShut y.ring = none ∧
        s.inFlight c y = true) ∧
    (∃ (c : Fin 256) (n : Nat) (s : State) (x : Cmd) (y : Sub),
      s.inv ∧ Due s c 2 n x ∧ x.op.toNat = 0x4E ∧ (s.core c).subOf x.cap.ha.h = some y ∧ Ent.space y.ring.e = 1 ∧ ringShut y.ring = none ∧
        x.cap.x.toNat % 16 = 0 ∧ y.freetot.toNat + x.cap.x.toNat ≤ y.wrtot.toNat) ∧
    (∃ (c : Fin 256) (n : Nat) (s : State) (x : Cmd) (y : Sub),
      s.inv ∧ Due s c 2 n x ∧ x.op.toNat = 0x4E ∧ (s.core c).subOf x.cap.ha.h = some y ∧ Ent.space y.ring.e = 1 ∧ ringShut y.ring = none ∧
        (x.cap.x.toNat % 16 ≠ 0 ∨ y.wrtot.toNat < y.freetot.toNat + x.cap.x.toNat)) ∧
    (∃ (c : Fin 256) (n : Nat) (s : State) (x : Cmd),
      Due s c 2 n x ∧ x.op.toNat = 0x4E ∧ (s.core c).subOf x.cap.ha.h = none) :=
  ⟨⟨0, 4, tQueue 0 (tRing 0 0x4C 0), _, ⟨by decide +kernel, by decide⟩, ⟨rfl, rfl, rfl, 40, rfl, by decide⟩, rfl, rfl, by decide +kernel⟩,
   ⟨0, 4, tQueue 0 (tRing 0 0x4D 0), _, ⟨by decide +kernel, by decide⟩, ⟨rfl, rfl, rfl, 40, rfl, by decide⟩, rfl, rfl⟩,
   ⟨0, 4, tSubbed 0 (tRing 0 0x4D 0) (tSub false false), _, _, ⟨by decide +kernel, by decide⟩, ⟨rfl, rfl, rfl, 40, rfl, by decide⟩, rfl, rfl, rfl,
    by decide +kernel, by decide +kernel⟩,
   ⟨0, 4, tSubbed 0 (tRing 0 0x4D 0) (tSub false true), _, _, ⟨by decide +kernel, by decide⟩, ⟨rfl, rfl, rfl, 40, rfl, by decide⟩, rfl, rfl, rfl,
    by decide +kernel, by decide +kernel⟩,
   ⟨0, 4, tSubbed 2 (tRing 2 0x4E 32) { tSub false true with wrtot := 48, freetot := 16 }, _, _, ⟨by decide +kernel, by decide⟩,
    ⟨rfl, rfl, rfl, 40, rfl, by decide⟩, rfl, rfl, rfl, by decide +kernel, by decide, by decide⟩,
   ⟨0, 4, tSubbed 2 (tRing 2 0x4E 48) { tSub false true with wrtot := 48, freetot := 16 }, _, _, ⟨by decide +kernel, by decide⟩,
    ⟨rfl, rfl, rfl, 40, rfl, by decide⟩, rfl, rfl, rfl, by decide +kernel, by decide⟩,
   ⟨0, 4, tQueue 2 (tRing 2 0x4E 0), _, ⟨rfl, rfl, rfl, 40, rfl, by decide⟩, rfl, rfl⟩⟩

theorem witness_FetchEffect :
    (∃ (c : Fin 256) (n : Nat) (s : State) (x : Cmd),
      Due s c 0 n x ∧ x.op.toNat = 0x50 ∧
        (x.prog.outcome = 2 ∨ x.prog.outcome = 3 ∨ (x.cf.getLsbD 0 = false ∧ x.prog.outcome = 1) ∨
          (x.cf.getLsbD 0 = true ∧ Ent.state (s.nowEntry x x.cap.ha.h) = 2))) ∧
    (∃ (c : Fin 256) (n : Nat) (s : State) (x : Cmd),
      Due s c 0 n x ∧ x.op.toNat = 0x50 ∧ x.prog.outcome ≠ 2 ∧ x.prog.outcome ≠ 3 ∧ x.cf.getLsbD 0 = true ∧
        Ent.state (s.nowEntry x x.cap.ha.h) = 4) ∧
    (∃ (c : Fin 256) (n : Nat) (s : State) (x : Cmd),
      Due s c 0 n x ∧ x.op.toNat = 0x50 ∧ x.prog.outcome ≠ 2 ∧ x.prog.outcome ≠ 3 ∧
        (if x.cf.getLsbD 0 then Ent.state (s.nowEntry x x.cap.ha.h) ≠ 2 ∧ Ent.state (s.nowEntry x x.cap.ha.h) ≠ 4 else x.prog.outcome ≠ 1)) :=
  ⟨⟨0, 4, tQueue 0 (tFetch 0 1), _, ⟨rfl, rfl, rfl, 40, rfl, by decide⟩, rfl, Or.inr (Or.inr (Or.inl ⟨rfl, rfl⟩))⟩,
   ⟨0, 4, tAwait 4 (tFetch 1 1), _, ⟨rfl, rfl, rfl, 40, rfl, by decide⟩, rfl, by decide, by decide, rfl, by decide +kernel⟩,
   ⟨0, 4, tAwait 0 (tFetch 1 1), tFetch 1 1, ⟨rfl, rfl, rfl, 40, rfl, by decide⟩, rfl, by decide, by decide, by decide +kernel⟩⟩

theorem witness_EngineEvents :
    (∃ (c : Fin 256) (q : Fin 3) (s : State) (cmd : Cmd),
      (s.core c).head q.val = some cmd ∧ s.startStep c q.val cmd = .begin ∧ cmd.op.toNat ∈ [0x43, 0x44, 0x45, 0x46, 0x4C, 0x4E]) ∧
    (∃ (c : Fin 256) (q : Fin 3) (s : State) (cmd : Cmd) (l : Lease),
      (s.core c).head q.val = some cmd ∧ s.startStep c q.val cmd = .begin ∧ cmd.op.toNat ∈ [0x43, 0x44, 0x45, 0x46, 0x4C, 0x4E] ∧ cmd.isMatrix = true ∧
        (s.faces[clusterOf c.val]).lease = some l) ∧
    (∀ full : Bool, ∃ (c : Fin 256) (s : State) (cmd : Cmd),
      (s.core c).head 1 = some cmd ∧ cmd.queue = 1 ∧ cmd.isMatrix = true ∧ s.leaseLive c = false ∧ cmd.prog.leaseReq = none ∧
        (∀ r ∈ (s.faces[clusterOf c.val]).waiting, r.cmd ≠ none) ∧ (s.core c).away = false ∧ (s.core c).eng.leaseLeft = 0 ∧ cmd.prog.acq.out s.clock = false ∧
        (s.core c).behind cmd.after cmd.afterSys = false ∧ (cmd.cap.epoch.own = 0 ∨ cmd.readsOwn = false ∨ cmd.prog.hold.isSome = true) ∧
        (∀ t, cmd.prog.hold = some t → t ≤ s.clock) ∧ (s.core c).tokensOk cmd = true ∧
        s.resourcesFree c cmd = true ∧ (s.core c).eng.lastStart.getD 1 0 < s.clock ∧ (∀ h ∈ cmd.sources, Ent.kind h.e = 0) ∧
        (s.core c).run.isSome = true ∧ cmd.prog.pending = none ∧ ((s.core c).eng.fault.getD 1 none).isSome = full) ∧
    (∃ (c : Fin 256) (q : Fin 3) (n : Nat) (s : State) (cmd : Cmd),
      Due s c q.val n cmd ∧ cmd.op.toNat ∈ [0x40, 0x41, 0x51, 0x54, 0x55]) ∧
    (∃ (c : Fin 256) (n : Nat) (s : State) (cmd : Cmd),
      Due s c 1 n cmd ∧ cmd.op.toNat = 0x45) :=
  ⟨⟨0, 0, tQueue 0 (tCommand 0 0x4E), _, rfl, (rfl), by decide⟩,
   ⟨0, 1, tLeased (tCommand 1 0x45), _, _, rfl, (rfl), by decide, rfl, rfl⟩,
   fun full => ⟨0, tFull full tHandled, tHandled, by cases full <;> rfl, rfl, rfl, by cases full <;> rfl, rfl,
    (fun r hr => by cases full <;> cases hr), by cases full <;> rfl, by cases full <;> rfl, rfl, by cases full <;> rfl, (Or.inl rfl), nofun, by cases full <;> rfl,
    by cases full <;> rfl, by cases full <;> decide +kernel, (fun h hh => by cases hh), by cases full <;> rfl, rfl, by cases full <;> rfl⟩,
   ⟨0, 1, 4, tQueue 1 (tDue 1 0x41), _, (⟨rfl, rfl, rfl, 40, rfl, by decide +kernel⟩), by decide⟩,
   ⟨0, 4, tQueue 1 (tDue 1 0x45), _, (⟨rfl, rfl, rfl, 40, rfl, by decide +kernel⟩), rfl⟩⟩

/-- The subscription at its last tile; and with a ring of 64 bytes, which its packets do not fit. -/
def tLast : Sub := { tSub false true with next := 1 }
def tLong : Sub := { tSub false true with ring := ⟨14, tEnt 0x100 0x80 1 0 2 2⟩, cmd := { (tSub false true).cmd with cap := { (tSub false true).cmd.cap with mb := tRows 15 1 0 + 64 * 2 ^ 96 } } }
def tStreamOf (x : Sub) : State := tOn { tCore with run := some tRun, eng := { tCore.eng with subs := [x] } }

/-- Row 5,120 of the first stack, which holds the context's first pages, is under repair. -/
def tRepair (s : State) : State := { s with ctxs := [(0, tMapped)], hbmStacks := State.reset.hbmStacks.set 0 { steps := [(0, 0, 5120, 9)] } }

theorem witness_StreamEvents :
    (∃ (c : Fin 256) (n : Nat) (s : State) (x : Sub) (k : Packet) (m p t : Nat),
      s.inv ∧ (s.core c).eng.subs.find? (fun x => decide (x.id = n)) = some x ∧ s.canPlace c x = true ∧ x.endReq = false ∧ m = ringSize x.ring.e ∧
        m % 16 = 0 ∧ 64 ≤ m ∧ Ent.space x.ring.e = 1 ∧ ringShut x.ring = none ∧ (∀ y ∈ (s.core c).eng.subs, y.id = n → y = x) ∧
        s.nextLength c x ≤ m - 16 ∧ k = (if x.list then (s.listPacket c x).1 else (s.tilePacket c x).1) ∧ p = x.wrtot.toNat % m ∧
        t = 16 + 16 * ((k.payload.length + 15) / 16) ∧ k.fin = false) ∧
    (∃ (c : Fin 256) (n : Nat) (s : State) (x : Sub) (k : Packet) (m p t : Nat),
      s.inv ∧ (s.core c).eng.subs.find? (fun x => decide (x.id = n)) = some x ∧ s.canPlace c x = true ∧ x.endReq = false ∧ m = ringSize x.ring.e ∧
        m % 16 = 0 ∧ 64 ≤ m ∧ Ent.space x.ring.e = 1 ∧ ringShut x.ring = none ∧ (∀ y ∈ (s.core c).eng.subs, y.id = n → y = x) ∧
        s.nextLength c x ≤ m - 16 ∧ k = (if x.list then (s.listPacket c x).1 else (s.tilePacket c x).1) ∧ p = x.wrtot.toNat % m ∧
        t = 16 + 16 * ((k.payload.length + 15) / 16) ∧ k.fin = true) ∧
    (∃ (c : Fin 256) (n : Nat) (s : State) (x : Sub) (m : Nat),
      s.inv ∧ (s.core c).eng.subs.find? (fun x => decide (x.id = n)) = some x ∧ s.canPlace c x = true ∧ x.endReq = false ∧ m = ringSize x.ring.e ∧
        m % 16 = 0 ∧ 64 ≤ m ∧ Ent.space x.ring.e = 1 ∧ ringShut x.ring = none ∧ (∀ y ∈ (s.core c).eng.subs, y.id = n → y = x) ∧
        m - 16 < s.nextLength c x) ∧
    (∃ (c : Fin 256) (n : Nat) (s : State) (x : Sub),
      (s.core c).eng.subs.find? (fun x => decide (x.id = n)) = some x ∧ x.list = true ∧ x.ready = false ∧ x.suspended = false ∧ x.at_ ≤ s.clock ∧
        (s.core c).stored = false ∧ (∀ y ∈ (s.core c).eng.subs, y.id = n → y = x) ∧ (s.recordRows x).any s.rowStalled = false) ∧
    (∃ (c : Fin 256) (n : Nat) (s : State) (x : Sub),
      (s.core c).eng.subs.find? (fun x => decide (x.id = n)) = some x ∧ x.list = true ∧ x.ready = false ∧ x.suspended = false ∧ x.at_ ≤ s.clock ∧
        (s.core c).stored = false ∧ (∀ y ∈ (s.core c).eng.subs, y.id = n → y = x) ∧ (s.recordRows x).any s.rowStalled = true) ∧
    (∃ (m cn : Nat) (s : State) (cmd : Cmd) (x : Ctx),
      waiting s m (.hrebind cn cmd.id) ∧ (s.core (coreId cn)).cmd cmd.id = some cmd ∧ Table.get s.ctxs cmd.ctx = some x ∧ cmd.cap.x.toNat < 2 ^ 32 ∧
        Ent.kind (x.entry cmd.cap.ha.h) = 2 ∧ Ent.state (x.entry cmd.cap.ha.h) ≠ 4 ∧ x.rebindOk (x.entry cmd.cap.ha.h) cmd.cap.x.toNat = true) ∧
    (∃ (m cn : Nat) (s : State) (cmd : Cmd) (x : Ctx),
      waiting s m (.hrebind cn cmd.id) ∧ (s.core (coreId cn)).cmd cmd.id = some cmd ∧ Table.get s.ctxs cmd.ctx = some x ∧ cmd.cap.x.toNat < 2 ^ 32 ∧
        (Ent.kind (x.entry cmd.cap.ha.h) ≠ 2 ∨ Ent.state (x.entry cmd.cap.ha.h) = 4 ∨
          x.rebindOk (x.entry cmd.cap.ha.h) cmd.cap.x.toNat = false)) ∧
    (∃ (m cn : Nat) (s : State) (cmd : Cmd),
      waiting s m (.flush cn cmd.id) ∧ (s.core (coreId cn)).cmd cmd.id = some cmd ∧ cmd.isCopy = true ∧ cmd.prog.consumed = true ∧
        (∀ q, now (s.core (coreId cn)) q cmd.id fun y => y = cmd) ∧ (∀ p ∈ s.netOut, p.core = (coreId cn).val → p.cmd ≠ cmd.id)) ∧
    (∃ (m cn : Nat) (s : State) (cmd : Cmd),
      waiting s m (.flush cn cmd.id) ∧ (s.core (coreId cn)).cmd cmd.id = some cmd ∧ cmd.op.toNat ≠ 0x55 ∧
        (∀ q, now (s.core (coreId cn)) q cmd.id fun y => y = cmd) ∧ (∃ p ∈ s.netOut, p.core = (coreId cn).val ∧ p.cmd = cmd.id)) ∧
    (∃ (m cn : Nat) (s : State) (cmd : Cmd) (x : _),
      waiting s m (.flush cn cmd.id) ∧ (s.core (coreId cn)).cmd cmd.id = some cmd ∧ cmd.op.toNat = 0x55 ∧ Table.get s.ctxs cmd.ctx = some x ∧
        x.written + 1 ≠ cmd.prog.outcome.toNat) ∧
    (∃ (m cn : Nat) (s : State) (cmd : Cmd) (x : _),
      waiting s m (.flush cn cmd.id) ∧ (s.core (coreId cn)).cmd cmd.id = some cmd ∧ s.inv ∧ cmd.op.toNat = 0x55 ∧ Table.get s.ctxs cmd.ctx = some x ∧
        x.written + 1 = cmd.prog.outcome.toNat) ∧
    (∃ (m cn : Nat) (s : State) (cmd : Cmd) (p : NetOut),
      waiting s m (.netAck cn cmd.id) ∧ (s.core (coreId cn)).cmd cmd.id = some cmd ∧ cn < 256 ∧ cmd.isCopy = true ∧ cmd.prog.consumed = true ∧
        (∀ q, now (s.core (coreId cn)) q cmd.id fun y => y = cmd) ∧
        (∀ x ∈ (s.core (coreId cn)).eng.sysOut, x.cmd = cmd.id → x.flush = false) ∧
        (s.netOut.filter fun p => decide (p.core = cn) && decide (p.cmd = cmd.id)) = [p]) ∧
    (∃ (x window : Fin 64) (offset : Nat) (bytes : List Byte) (s : State) (c : Ctx) (w : Window) (f : Nat → Nat),
      window.val ≠ 63 ∧ s.fwOk = true ∧ Table.get s.ctxs x.val = some c ∧ Table.get c.netWin window.val = some w ∧ w.rx ≠ 0 ∧ s.inv ∧ offset + bytes.length ≤ w.len ∧
        Places c (w.rx + offset) bytes.length true f) ∧
    (∃ (x window : Fin 64) (offset : Nat) (bytes : List Byte) (s : State) (c : Ctx) (w : Window),
      window.val ≠ 63 ∧ s.fwOk = true ∧ Table.get s.ctxs x.val = some c ∧ Table.get c.netWin window.val = some w ∧ w.rx ≠ 0 ∧ w.len < offset + bytes.length) ∧
    (∃ (s : State), s.fwOk = false) :=
  ⟨⟨0, 1, tStream false true, tSub false true, _, _, _, _, (⟨by decide +kernel, by decide⟩), rfl, (by decide +kernel), rfl, rfl, by decide, by decide, rfl, (by decide +kernel), (fun y hy _ => List.mem_singleton.mp hy),
    (by decide +kernel), (rfl), rfl, rfl, (by decide +kernel)⟩,
   ⟨0, 1, tStreamOf tLast, tLast, _, _, _, _, (⟨by decide +kernel, by decide⟩), rfl, (by decide +kernel), rfl, rfl, by decide, by decide, rfl, (by decide +kernel), (fun y hy _ => List.mem_singleton.mp hy),
    (by decide +kernel), (rfl), rfl, rfl, (by decide +kernel)⟩,
   ⟨0, 1, tStreamOf tLong, tLong, _, (⟨by decide +kernel, by decide⟩), rfl, (by decide +kernel), rfl, rfl, by decide, by decide, rfl, (by decide +kernel), (fun y hy _ => List.mem_singleton.mp hy),
    (by decide +kernel)⟩,
   ⟨0, 1, tStream true false, tSub true false, rfl, rfl, (rfl), rfl, (by decide +kernel), rfl, (fun y hy _ => List.mem_singleton.mp hy),
    (by decide +kernel)⟩,
   ⟨0, 1, tRepair (tStream true false), tSub true false, rfl, rfl, (rfl), rfl, (by decide +kernel), rfl, (fun y hy _ => List.mem_singleton.mp hy),
    (by decide +kernel)⟩,
   ⟨3, 0, { tQueue 2 (tHome 13) with msgs := [⟨3, 0, .hrebind 0 4⟩] }, tHome 13, _, (rfl), rfl, rfl, (by decide +kernel), (by decide +kernel),
    (by decide +kernel), (by decide +kernel)⟩,
   ⟨3, 0, { tQueue 2 (tHome 5) with msgs := [⟨3, 0, .hrebind 0 4⟩] }, tHome 5, _, rfl, rfl, rfl, (by decide +kernel), Or.inl (by decide +kernel)⟩,
   ⟨3, 0, { tQueue 0 tSent with msgs := [⟨3, 0, .flush 0 4⟩] }, tSent, rfl, rfl, rfl, rfl, now_q0 _, (fun p h => by cases h)⟩,
   ⟨3, 0, { tQueue 0 tSent with msgs := [⟨3, 0, .flush 0 4⟩], netOut := [⟨0, 4, 0, 2, 0, [1], []⟩] }, tSent, rfl, rfl, (by decide), now_q0 _,
    ⟨_, List.mem_singleton.mpr rfl, rfl, rfl⟩⟩,
   ⟨3, 0, { tQueue 2 { tPublish with prog := { outcome := 2 } } with msgs := [⟨3, 0, .flush 0 4⟩] }, { tPublish with prog := { outcome := 2 } }, tMapped, rfl, rfl, (rfl), rfl, (by decide)⟩,
   ⟨3, 0, { tQueue 2 tPublish with msgs := [⟨3, 0, .flush 0 4⟩] }, tPublish, _, rfl, rfl, (⟨by decide +kernel, by decide⟩), (rfl), rfl, (rfl)⟩,
   ⟨3, 0, { tQueue 0 tSent with msgs := [⟨3, 0, .netAck 0 4⟩], netOut := [⟨0, 4, 0, 2, 0, [1], []⟩] }, tSent, ⟨0, 4, 0, 2, 0, [1], []⟩, rfl, rfl, by decide, rfl, rfl, now_q0 _, (fun x h => by cases h),
    (rfl)⟩,
   ⟨0, 2, 8, [5, 6], tQueue 0 (tCommand 0 0x4B), _, _, fun i => 5 * 2 ^ 21 + 0x48 + i, (by decide), rfl, rfl, rfl, (by decide),
    (⟨by decide +kernel, by decide⟩), (by decide),
    (⟨fun i hi => by match i, hi with | 0, _ => rfl | 1, _ => rfl, fun i j _ _ h => by dsimp only at h; omega⟩)⟩,
   ⟨0, 2, 0xFF, [5, 6], tQueue 0 (tCommand 0 0x4B), _, _, (by decide), rfl, rfl, rfl, (by decide), (by decide)⟩, ⟨{ tS with fwOk := false }, rfl⟩⟩

/-- Weight handle 13 names a page: slot 0 holds page 3, and no slot page 4. -/
def tPaged (n : Nat) : Ctx := { tMapped with handles := [(13, tEnt 0 0x40 0 2 0 0 + BitVec.ofNat 256 (n * 2 ^ 224))] }

theorem witness_FlashEvents :
    (∃ (m : Nat) (d : Fin 4) (s : State) (r : FetchReq),
      waiting s m (.fetchReq d.val r) ∧ (s.dies[d]).fetch.length < 256) ∧
    (∃ (m : Nat) (d : Fin 4) (s : State) (r : FetchReq),
      waiting s m (.fetchReq d.val r) ∧ 256 ≤ (s.dies[d]).fetch.length) ∧
    (∃ (d : Fin 4) (s : State) (r : FetchReq) (x : Ctx) (o : Obj) (i : Nat),
      (s.dies[d]).fetch = [r] ∧ Table.get s.ctxs r.ctx = some x ∧ x.object (s.fetchPage r) = some o ∧ o.page = s.fetchPage r ∧ x.slotOf (s.fetchPage r) = none ∧
        x.slots.findIdx? (fun sl => decide (sl.state = .free)) = some i) ∧
    (∃ (d : Fin 4) (s : State) (r : FetchReq) (x : Ctx) (o : Obj) (i : Nat) (sl : Slot),
      (s.dies[d]).fetch = [r] ∧ Table.get s.ctxs r.ctx = some x ∧ x.object (s.fetchPage r) = some o ∧ x.slotOf (s.fetchPage r) = some (i, sl) ∧ sl.state ≠ .poison) ∧
    (∃ (x : Fin 64) (i t : Nat) (s : State) (c : Ctx) (sl : Slot) (f : Nat → Nat),
      s.inv ∧ Table.get s.ctxs x.val = some c ∧ c.slots[i]? = some sl ∧ sl.due = some t ∧ t ≤ s.clock ∧
        Places c (c.d 0xE0 8 + i * c.d 0x28 8) sl.len false f ∧
        (∀ r ∈ c.slotRows i sl.len, s.rowStalled r = false)) ∧
    (∃ (d : Fin 4) (s : State) (j : ProspJob) (r : List ProspJob) (cmd : Cmd) (h q : Nat),
      (s.dies[d]).prosp = j :: r ∧ j.at_ ≤ s.clock ∧ j.sel = [h] ∧ (s.core (coreId j.core)).cmd j.cmd = some cmd ∧
        (∀ z, now (s.core (coreId j.core)) z j.cmd fun y => y = cmd)) ∧
    (∃ (k : Fin 8) (mean top : BitVec 32) (n : Nat) (s : State),
      n ≤ (s.hbfStacks[k]).spare.toNat) :=
  ⟨⟨3, 0,
    { tMsg (.fetchReq 0 ⟨0, 13, 3, true, false, none⟩) with dies := State.reset.dies.set 0 { Die.reset with fetch := List.replicate 2 (⟨0, 9, 3, true, false, none⟩) } },
    ⟨0, 13, 3, true, false, none⟩, rfl, by decide⟩,
   ⟨3, 0,
    { tMsg (.fetchReq 0 ⟨0, 13, 3, true, false, none⟩) with dies := State.reset.dies.set 0 { Die.reset with fetch := List.replicate 256 (⟨0, 9, 3, true, false, none⟩) } },
    ⟨0, 13, 3, true, false, none⟩, rfl, (by decide +kernel)⟩,
   ⟨0, { tQueue 0 (tCommand 0 0x50) with ctxs := [(0, tPaged 4)], dies := State.reset.dies.set 0 { Die.reset with fetch := [⟨0, 13, 3, true, false, none⟩] } },
    ⟨0, 13, 3, true, false, none⟩, tPaged 4, ⟨4, 0x40, 0, 0, 3, {}⟩, 1, rfl, (rfl), (rfl), rfl, rfl, (rfl)⟩,
   ⟨0, { tQueue 0 (tCommand 0 0x50) with ctxs := [(0, tPaged 3)], dies := State.reset.dies.set 0 { Die.reset with fetch := [⟨0, 13, 3, true, false, none⟩] } },
    ⟨0, 13, 3, true, false, none⟩, tPaged 3, ⟨3, 0x40, 0, 0, 3, {}⟩, 0, { state := .inflight, page := 3, due := some 4, len := 4 }, rfl, rfl, (by decide +kernel), (by decide +kernel), (by decide)⟩,
   ⟨0, 0, 4, tQueue 0 (tCommand 0 0x50), tMapped, _, fun i => 5 * 2 ^ 21 + i, (⟨by decide +kernel, by decide⟩), rfl, rfl, rfl, (by decide +kernel),
    (⟨fun i hi => by match i, hi with | 0, _ => rfl | 1, _ => rfl | 2, _ => rfl | 3, _ => rfl, fun i j _ _ h => by dsimp only at h; omega⟩),
    fun r _ => rows_free _ rfl r⟩,
   ⟨0, { tQueue 2 (tDue 2 0x51) with dies := State.reset.dies.set 0 { Die.reset with prosp := [{ core := 0, cmd := 4, sel := [6], at_ := 9 }] } },
    { core := 0, cmd := 4, sel := [6], at_ := 9 }, [], _, 6, 0, rfl, (by decide +kernel), (rfl), (rfl),
    (by intro z y hy h; match z, hy with | 2, hy => exact List.mem_singleton.mp hy | 0, hy => cases hy | 1, hy => cases hy | n + 3, hy => exact absurd (show y ∈ [] from hy) (by simp))⟩,
   ⟨0, 5, 9, 0, tS, (by decide +kernel)⟩⟩

theorem witness_DecodeEvents :
    (∃ (c : Fin 256) (s : State) (cmd : Cmd) (u : Fin 2),
      (s.core c).head 2 = some cmd ∧ cmd.op.toNat = 0x54 ∧ s.startStep c 2 cmd = .begin ∧ cmd.cap.y ≠ 1 ∧ 0 < s.lanes u.val ∧
        u = (if s.lanes 0 = 0 then 1 else if s.lanes 1 = 0 then 0 else if (s.units[1]).length < (s.units[0]).length then 1 else 0) ∧ (s.units[u]).length < 32 ∧
        s.units[u] ≠ []) ∧
    (∃ (c : Fin 256) (s : State) (cmd : Cmd),
      (s.core c).head 2 = some cmd ∧ cmd.op.toNat = 0x54 ∧ s.startStep c 2 cmd = .begin ∧ cmd.cap.y = 1) ∧
    (∃ (c : Fin 256) (s : State) (cmd : Cmd),
      (s.core c).head 2 = some cmd ∧ cmd.op.toNat = 0x54 ∧ s.startStep c 2 cmd = .begin ∧ cmd.cap.y ≠ 1 ∧ s.lanes 0 = 0 ∧ s.lanes 1 = 0) ∧
    (∃ (u : Fin 2) (s : State) (j : DecJob) (r : List DecJob),
      s.units[u] = j :: r ∧ inLanes (s.lanes u.val) j.left ≠ []) ∧
    (∃ (u : Fin 2) (s : State) (j : DecJob) (r : List DecJob) (x : Cmd),
      s.units[u] = j :: r ∧ j.left = [] ∧ (s.core (coreId j.core)).cmd j.cmd = some x) ∧
    (∃ (u : Fin 2) (s : State) (j : DecJob) (r : List DecJob) (x : Cmd),
      s.units[u] = j :: r ∧ j.left = [] ∧ (s.core (coreId j.core)).cmd j.cmd = some x ∧ s.inv ∧ Ent.space x.cap.hb.e = 1 ∧
        (∀ i, i < j.out.length → ∃ b, s.engRd (coreId j.core) x.ctx x.cap.epoch decodeSpace 4 x.cap.hb true (jobField x.cap.ma 24 8 + i) 1 = .ok b)) :=
  ⟨⟨0, { tQueue 2 (tCommand 2 0x54) with units := #v[[{ core := 0, cmd := 4 }], [{ core := 0, cmd := 4 }]] }, _, 0, rfl, rfl, (rfl), by decide,
    (by decide +kernel), rfl, (by decide +kernel), (nofun)⟩,
   ⟨0, tQueue 2 { tCommand 2 0x54 with rq := some (3, 8), cap := { y := 1 } }, _, rfl, rfl, (rfl), rfl⟩,
   ⟨0, { tQueue 2 (tCommand 2 0x54) with decLanes := 0 }, _, rfl, rfl, (rfl), by decide, (by decide +kernel), (by decide +kernel)⟩,
   ⟨0, { tS with units := #v[[{ core := 0, cmd := 4, left := [⟨0, 0, 0, 0, 4, []⟩] }], []] }, _, _, rfl, (by decide +kernel)⟩,
   ⟨0, { tQueue 2 (tDue 2 0x54) with units := #v[[{ core := 0, cmd := 4 }], []] }, _, _, _, rfl, (rfl), (rfl)⟩,
   ⟨0, { tQueue 2 { tDue 2 0x54 with cap := { hb := ⟨5, tEnt 0x100 0x40 1 0 2 2⟩ } } with units := #v[[{ core := 0, cmd := 4, out := [7, 8] }], []] }, _, _, _, rfl, rfl, rfl,
    (⟨by decide +kernel, by decide⟩), rfl, fun i h => ok_of _ (by revert i; decide +kernel)⟩⟩

theorem witness_PowerEvents :
    (∃ (k : Fin 64) (s : State) (t : _),
      s.power[k] = .run (some t) ∧ s.since (4 * k.val) t 1024 = true ∧ s.clusterIdle k = true) ∧
    (∃ (k : Fin 64) (s : State),
      s.power[k] = .clock ∧ s.stay.getLsbD k.val = false ∧ s.wakeCause k = false) ∧
    (∃ (k : Fin 64) (s : State),
      s.power[k] = .clock ∧ s.wakeCause k = true) ∧
    (∃ (k : Fin 64) (s : State) (t : _),
      s.power[k] = .leavingClock t ∧ t ≤ s.clock) ∧
    (∃ (k : Fin 64) (s : State),
      s.power[k] = .retain ∧ (s.stay.getLsbD k.val = true ∨ ∃ b ∈ (s.dies[dieOf (4 * k.val)]).binds, b.core / 4 = k.val)) ∧
    (∃ (k : Fin 64) (s : State) (t : _),
      s.power[k] = .leavingRetain t ∧ t ≤ s.clock) ∧
    (∃ (d : Fin 4) (v : BitVec 2) (s : State),
      s.clock % 128 ≠ 0) ∧
    (∃ (d : Fin 4) (v : BitVec 2) (s : State),
      s.clock % 128 = 0) ∧
    (∃ (s : State),
      s.newShift = none ∧ s.clock % 2 ^ s.winShift = 0) ∧
    (∃ (s : State),
      s.newShift = none ∧ s.clock % 2 ^ s.winShift ≠ 0) :=
  ⟨⟨0, tPower (.run (some 3000)) 0, 3000, (rfl), (by decide +kernel), (by decide +kernel)⟩,
   ⟨0, tPower .clock 0, (rfl), (by decide +kernel), (by decide +kernel)⟩,
   ⟨0, { tPower .clock 0 with dies := State.reset.dies.set 0 { Die.reset with binds := [⟨0, .preempt, 0⟩] } }, (rfl), (by decide +kernel)⟩,
   ⟨0, tPower (.leavingClock 4000) 0, 4000, (rfl), (by decide +kernel)⟩,
   ⟨0, tPower .retain 1, (rfl), (by decide +kernel)⟩,
   ⟨0, tPower (.leavingRetain 4000) 0, 4000, (rfl), (by decide +kernel)⟩,
   ⟨0, 1, tPower .clock 0, (by decide +kernel)⟩,
   ⟨0, 1, tS, (by decide +kernel)⟩,
   ⟨tS, (rfl), (by decide +kernel)⟩,
   ⟨tPower .clock 0, (rfl), (by decide +kernel)⟩⟩

/-- A retirement of page 3 before its frame is cut, found at 5,000. -/
def tCut : Cut := { ctx := 0, page := some 3, frame := 5, res := 1, stack := 0, finder := 0, cmd := none, wait := 0, at_ := some 5000 }

theorem witness_RepairEvents :
    (∃ (k : Fin 12) (p : Fin 32) (res : Fin 3) (unit len : Nat) (s : State),
      Table.get (s.hbmStacks[k]).steps p.val = none ∧ len ≤ 8400 ∧
        (res.val, p.val, unit) ∈ (s.hbmStacks[k]).wants) ∧
    (∃ (k : Fin 12) (p : Fin 32) (res unit t : Nat) (s : State),
      Table.get (s.hbmStacks[k]).steps p.val = some (res, unit, t) ∧ t ≤ s.clock) ∧
    (∃ (x : Fin 64) (va : BitVec 40) (res : BitVec 2) (k : Fin 12) (s : State) (c : Ctx) (e : BitVec 64),
      Table.get s.ctxs x.val = some c ∧ e = c.page (va.toNat / 2 ^ 21) ∧ e.getLsbD 0 = true ∧ e.getLsbD 2 = false ∧
        c.owned (va.toNat / 2 ^ 21) = false ∧ (res = 3 ∨ ∃ y ∈ s.cuts, y.of x va res k 0 = true ∧ y.ripe s.clock = true)) ∧
    (∃ (x : Fin 64) (va : BitVec 40) (res : BitVec 2) (k : Fin 12) (s : State) (c : Ctx) (e : BitVec 64),
      Table.get s.ctxs x.val = some c ∧ e = c.page (va.toNat / 2 ^ 21) ∧ e.getLsbD 0 = true ∧ e.getLsbD 2 = false ∧
        c.owned (va.toNat / 2 ^ 21) = false ∧ res ≠ 3 ∧ (∃ y ∈ s.cuts, y.of x va res k 0 = true ∧ y.ripe s.clock = true)) ∧
    (∃ (x : Fin 64) (va : BitVec 40) (res : BitVec 2) (k : Fin 12) (n : Nat) (s : State),
      res ≠ 3 ∧ (∀ y ∈ s.cuts, (y.of x va res k n && y.ripe s.clock) = false)) ∧
    (∃ (x : Fin 64) (s : State) (c : Ctx) (r : Retired) (rest : List Retired) (f : Nat → Nat) (n : Nat),
      s.inv ∧ Table.get s.ctxs x.val = some c ∧ c.retired = r :: rest ∧ r.at_ ≤ s.clock ∧ s.vaStalled c (c.d 0xD8 8) = false ∧ Places c (c.d 0xD8 8) 2112 false f ∧
        n = leNat ((List.range 8).map fun i => s.hbm.read (f i))) ∧
    (∃ (x : Fin 64) (s : State) (c : Ctx),
      Table.get s.ctxs x.val = some c ∧ s.vaStalled c (c.d 0xD8 8) = true) ∧
    (∃ (c : Fin 256) (u : Fin 320) (s : State),
      u.val = c.val ∧ (s.core c).testDue = true ∧ (s.core c).testing = none ∧ (s.core c).seq.mode = .halted ∧ (s.core c).run = none) ∧
    (∃ (c : Fin 256) (u : Fin 320) (s : State) (b : Nat),
      u.val = c.val ∧ (s.core c).testing = some b) ∧
    (∃ (k : Fin 64) (s : State),
      (s.faces[k]).quarantined = true ∧ s.clusterFree k = true) :=
  ⟨⟨0, 1, 0, 77, 8400, { tS with hbmStacks := State.reset.hbmStacks.set 0 { rows := 2, steps := [], wants := [(0, 1, 77)] } }, (rfl), (by decide), (by decide +kernel)⟩,
   ⟨0, 1, 0, 77, 0, { tS with hbmStacks := State.reset.hbmStacks.set 0 { rows := 2, steps := [(1, 0, 77, 0)] } }, (rfl), (by decide +kernel)⟩,
   ⟨0, 6291456, 3, 0, tQueue 0 (tCommand 0 0x48), tMapped, _, rfl, (rfl), (by decide +kernel), (by decide +kernel), (by decide +kernel), Or.inl rfl⟩,
   ⟨0, 6291456, 1, 0, { tQueue 0 (tCommand 0 0x48) with cuts := [tCut] }, tMapped, _, rfl, (rfl), (by decide +kernel), (by decide +kernel), (by decide +kernel),
    by decide, _, List.mem_singleton.mpr rfl, (by decide +kernel), (by decide +kernel)⟩,
   ⟨0, 6291456, 2, 0, 0, { tQueue 0 (tCommand 0 0x48) with cuts := [tCut] }, by decide, (by decide +kernel)⟩,
   ⟨0, { tQueue 0 (tCommand 0 0x48) with ctxs := [(0, tWorn)] }, tWorn, tRetired, [], _, _, (⟨by decide +kernel, by decide⟩), rfl, (rfl),
    (by decide +kernel), (by decide +kernel), (places_m _ rfl rfl 0 2112 (by decide) _), (rfl)⟩,
   ⟨0, tRepair (tQueue 0 (tCommand 0 0x48)), tMapped, rfl, (by decide +kernel)⟩,
   ⟨0, 0, tSuspect none, rfl, rfl, rfl, rfl, rfl⟩,
   ⟨0, 0, tSuspect (some 90), 90, rfl, rfl⟩,
   ⟨0, { tS with faces := State.reset.faces.set 0 { Face.reset with quarantined := true }, cores := State.reset.cores }, (rfl), (by decide +kernel)⟩⟩

theorem witness_RecordEvents :
    (∃ (c : Fin 256) (s : State) (b : Bind) (id : Nat) (t : TaskRec) (l : Launch) (k : Core),
      Binds s c b ∧ b.act = .start id ∧ s.free? c = true ∧ (s.dies[dieOf c.val]).tasks.find? (fun t => decide (t.id = id)) = some t ∧
        Table.get s.launches t.launch = some l ∧ t.state = .first c.val ∧ k = s.prepare c l) ∧
    (∃ (c : Fin 256) (s : State) (b : Bind) (id : Nat) (t : TaskRec) (l : Launch) (k : Core),
      Binds s c b ∧ b.act = .start id ∧ s.free? c = true ∧ (s.dies[dieOf c.val]).tasks.find? (fun t => decide (t.id = id)) = some t ∧
        Table.get s.launches t.launch = some l ∧ t.state = .ready ∧ (s.core c).lastLaunch = some t.launch ∧ k = s.core c) ∧
    (∃ (c : Fin 256) (s : State) (b : Bind) (id : Nat) (t : TaskRec) (l : Launch) (k : Core),
      Binds s c b ∧ b.act = .start id ∧ s.free? c = true ∧ (s.dies[dieOf c.val]).tasks.find? (fun t => decide (t.id = id)) = some t ∧
        Table.get s.launches t.launch = some l ∧ t.state = .ready ∧ (s.core c).lastLaunch ≠ some t.launch ∧ Table.get l.kept c.val = some k) ∧
    (∃ (c : Fin 256) (s : State) (b : Bind),
      Binds s c b ∧ b.act = .preempt) ∧
    (∃ (c : Fin 256) (s : State),
      s.honourNow c = true ∧ (∀ n, (s.core c).seq.mode ≠ .saving n)) ∧
    (∃ (c : Fin 256) (s : State),
      (s.core c).seq.mode = .saving none ∧ (s.core c).settled = true ∧ (s.core c).started = [] ∧ (s.core c).copying = false) ∧
    (∃ (c : Fin 256) (s : State) (t : Nat) (r : RunRec),
      (s.core c).seq.mode = .saving (some t) ∧ t ≤ s.clock ∧ s.areaStalled c = false ∧ (s.core c).run = some r) ∧
    (∃ (c : Fin 256) (s : State) (b : Bind) (id : Nat) (t : TaskRec) (k : Core) (image : List Byte),
      (∀ n, (s.core c).seq.mode ≠ .restoring n) ∧ Binds s c b ∧ b.act = .resume id ∧ s.free? c = true ∧
        (s.dies[dieOf c.val]).tasks.find? (fun t => decide (t.id = id)) = some t ∧ t.saved = some k ∧ image = s.image k ∧ k.sto.spad.wf = true ∧
        (s.core c).sto.spad.wf = true ∧ k.live = false ∧ k.sto.seg.landed = (none, none)) ∧
    (∃ (c : Fin 256) (s : State) (n : Nat),
      (s.core c).seq.mode = .restoring n ∧ n ≤ s.clock ∧ s.areaStalled c = false) ∧
    (∃ (s : State) (k : Nat),
      s.fwOk = true ∧ s.clock % 128 = k ∧ 0 < k ∧ k < 16 ∧ (∀ p ∈ s.ctxs, p.2.hold = []) ∧ (∀ p ∈ s.ctxs, p.2.destroying = none)) ∧
    (∃ (s : State) (d : Fin 4) (c : Fin 256) (t : TaskRec) (l : Launch),
      s.fwOk = true ∧ s.clock % 128 = 16 ∧ (∀ p ∈ s.ctxs, p.2.hold = []) ∧ dieOf c.val = d ∧
        (s.dies[d]).tasks = [t] ∧ t.state = .ready ∧ (s.dies[d]).binds = [] ∧ (s.dies[d]).asked = [] ∧ (∀ e, e ≠ d → (s.dies[e]).tasks = []) ∧
        Table.get s.launches t.launch = some l ∧ (Table.get s.ctxs l.ctx).isSome = true ∧ (∀ n, n < 256 → l.cores.getLsbD n = decide (n = c.val)) ∧
        (s.core c).seq.mode = .halted ∧ (s.core c).run = none ∧ (s.core c).queuesEmpty = true ∧ s.clusters.getLsbD (c.val / 4) = true ∧
        (s.core c).testDue = false ∧ (s.core c).testing = none ∧ (s.faces[clusterOf c.val]).quarantined = false) ∧
    (∃ (s : State),
      16 < s.clock % 128) :=
  ⟨⟨0, tReady [⟨0, .start 2, 9⟩] [{ tRec with state := .first 0 }] 5000, ⟨0, .start 2, 9⟩, 2, { tRec with state := .first 0 }, tLaunch, _,
    (⟨rfl, rfl, by decide +kernel⟩), rfl, (by decide +kernel), rfl, rfl, rfl, rfl⟩,
   ⟨0, { tReady [⟨0, .start 2, 9⟩] [tRec] 5000 with cores := State.reset.cores.set 0 { Core.reset with lastLaunch := some 3 } }, ⟨0, .start 2, 9⟩, 2, tRec, tLaunch, _,
    (⟨rfl, rfl, by decide +kernel⟩), rfl, (by decide +kernel), rfl, rfl, rfl, rfl, rfl⟩,
   ⟨0, { tReady [⟨0, .start 2, 9⟩] [tRec] 5000 with launches := [(3, { tLaunch with kept := [(0, tVec)] })] }, ⟨0, .start 2, 9⟩, 2, tRec, _, tVec,
    (⟨rfl, rfl, by decide +kernel⟩), rfl, (by decide +kernel), (rfl), rfl, rfl, nofun, rfl⟩,
   ⟨0, tReady [⟨0, .preempt, 9⟩] [] 5000, ⟨0, .preempt, 9⟩, (⟨rfl, rfl, by decide +kernel⟩), rfl⟩,
   ⟨0, tOn { tCore with run := some tRun, seq := { tCore.seq with preempt := true, mode := .asleep 9 none } }, (by decide +kernel),
    (fun n h => by cases h)⟩,
   ⟨0, tMode (.saving none), rfl, rfl, rfl, (by decide +kernel)⟩,
   ⟨0,
    { tMode (.saving (some 9)) with cores := State.reset.cores.set 0 { Core.reset with run := some tRun, seq := { Core.reset.seq with mode := .saving (some 9) } } },
    9, _, (rfl), (by decide +kernel), (by decide +kernel), (rfl)⟩,
   ⟨0, tReady [⟨0, .resume 2, 9⟩] [{ tRec with saved := some tCore }] 5000, ⟨0, .resume 2, 9⟩, 2, _, tCore, _, (fun n h => by cases h),
    (⟨rfl, rfl, by decide +kernel⟩), rfl, (by decide +kernel), (rfl), rfl, rfl, by decide, by decide, rfl, rfl⟩,
   ⟨0, tMode (.restoring 9), 9, rfl, (by decide +kernel), (by decide +kernel)⟩,
   ⟨tReady [] [] 129, 1, rfl, (by decide +kernel), by decide, by decide, (by decide +kernel), (by decide +kernel)⟩,
   ⟨tReady [] [tRec] 144, 0, 0, tRec, tLaunch, rfl, (by decide +kernel), (by decide +kernel), (rfl), (rfl), rfl, (rfl), (rfl),
    (by decide +kernel), (rfl), (rfl), (by decide +kernel), (rfl), (rfl), (by decide +kernel), (by decide +kernel), (by decide +kernel), (rfl), (rfl)⟩,
   ⟨tReady [] [] 20, (by decide +kernel)⟩⟩

/-- What the read of a kernel image leaves, where no flash page is read. -/
theorem image_free (s : State) (ctx : Nat) (e : BitVec 256) (b : Option (List Byte)) (h : (s.kernelImage ctx e).1 = b) (n : Ent.space e ≠ 3) :
    s.kernelImage ctx e = (b, { s with free := s.free }) := by
  have z (k : Nat) : flashPages [(⟨0, e⟩, List.range k)] = [] := by simp [flashPages, n]
  have y : (s.kernelImage ctx e).2 = s := by
    simp only [State.kernelImage, z, List.filter_nil, State.readPages, List.isEmpty_nil, if_true]
    split
    · split <;> rename_i q <;> first | exact (congrArg Prod.snd q).symm ▸ rfl | simp_all
    · simp_all
  exact Prod.ext h y

/-- With every frame dead. -/
def tDead (e : List Byte) (n : Nat) : State := { tHost e n with dead := List.range frameCount }

theorem frames_none (s : State) (h : s.dead = List.range frameCount) : s.framesLeft = 0 := by
  have z : (List.range frameCount).filter s.frameFree = [] := List.filter_eq_nil_iff.mpr fun f m => by
    simp [State.frameFree, h, List.mem_range.mp m]
  rw [State.framesLeft, z]; rfl

theorem frames_dead (e : List Byte) (n : Nat) : (tDead e n).framesLeft = 0 :=
  frames_none _ (by simp only [tDead])

/-- The same installation into a region of flash without a byte. -/
def tHome3 : Ctx := { tMapped with desc := tDesc 0 0 tModelKey 0 }
def tCramped : State := { tInstall with ctxs := [(0, tHome3)] }

theorem tModel_ok3 : modelOk tHome3 (tCramped.signEntry 0 tHome3) tModel = true := by
  have e : tModel.take 0x40 ++ (tModel.drop 0x200).take (hdr tModel 0x10 8 - 0x200) = tModelHead ++ tModelRest := by decide +kernel
  have d : (tModel.drop 0x40).take 64 = natBe 64 tModelDigest := by decide +kernel
  have r : (tModel.drop 0x80).take 66 = natBe 66 tModelDigest := by decide +kernel
  have z : (tModel.drop 0xC2).take 66 = tModelSign := by decide +kernel
  have k : tHome3.key = tModelKey := by decide +kernel
  unfold modelOk
  rw [e, d, r, z, k, tModel_signed]
  decide +kernel

theorem tModel_cramped : tCramped.installPlan 0 tHome3 ((modelObjs tModel).map Prod.snd) = none := by decide +kernel

/-- Host-queue entries: launches, records, releases, kills and installations. -/
theorem witness_HostEntries :
    (∃ (q : Fin 1024) (s : State) (k : EntryKind),
      s.entryKind q.val = k ∧ (s.queue q.val).pending = true ∧ s.queueWaits q.val = true) ∧
    (∃ (q : Fin 1024) (s : State) (k : EntryKind),
      s.entryKind q.val = k ∧ (s.queue q.val).pending = true ∧ s.queueWaits q.val = false ∧ s.owner q.val = none ∧ k ≠ .contextCreate ∧ k ≠ .contextDestroy) ∧
    (∃ (q : Fin 1024) (s : State) (k : EntryKind),
      s.entryKind q.val = k ∧ (s.queue q.val).pending = true ∧ s.queueWaits q.val = false ∧ s.entryStalled q.val = true) ∧
    (∃ (q : Fin 1024) (s : State) (k : EntryKind) (e : List Byte) (ctx : Nat) (x : Ctx),
      s.entryKind q.val = k ∧ (s.queue q.val).pending = true ∧ Entry s q k e ctx x ∧ x.d 0x02 1 ≠ 0 ∧ (k = .contextCreate ∨ k = .contextDestroy)) ∧
    (∃ (q : Fin 1024) (s : State) (k : EntryKind),
      s.entryKind q.val ≠ k ∨ (s.queue q.val).pending = false) ∧
    (∃ (q : Fin 1024) (s : State) (e : List Byte) (ctx : Nat) (x : Ctx),
      Entry s q .badkind e ctx x) ∧
    (∃ (q : Fin 1024) (s : State) (e : List Byte) (ctx : Nat) (x : Ctx) (r : LaunchRec) (f : Nat),
      Entry s q .launch e ctx x ∧ r = launchRec (s.host.readN (hdr e 16 8) 256) ∧
        (popped s q).kernelImage ctx (x.entry r.imgh) = (none, { popped s q with free := f })) ∧
    (∃ (q : Fin 1024) (s : State) (e image : List Byte) (ctx : Nat) (x : Ctx) (r : LaunchRec) (f : Nat),
      Entry s q .launch e ctx x ∧ r = launchRec (s.host.readN (hdr e 16 8) 256) ∧
        (popped s q).kernelImage ctx (x.entry r.imgh) = (some image, { popped s q with free := f }) ∧
        s.launchOk ctx x r image (BitVec.ofNat 64 (hdr e 32 8)) = false) ∧
    (∃ (q : Fin 1024) (s : State) (e image : List Byte) (ctx : Nat) (x : Ctx) (r : LaunchRec) (f : Nat),
      Entry s q .launch e ctx x ∧ r = launchRec (s.host.readN (hdr e 16 8) 256) ∧
        (popped s q).kernelImage ctx (x.entry r.imgh) = (some image, { popped s q with free := f }) ∧
        s.launchOk ctx x r image (BitVec.ofNat 64 (hdr e 32 8)) = true ∧
        ((∀ m, m < 256 → (Table.get s.launches m).isSome = true) ∨
          s.launchWindow ctx x r image (((launchSet r.cores).head?.map fun c => c.val / 64).getD 0) = none ∨
          (s.freeGroups (hdr image 0x10 1)).length < hdr image 0x10 1)) ∧
    (∃ (q : Fin 1024) (s : State) (e image : List Byte) (ctx n : Nat) (x : Ctx) (r : LaunchRec) (w : FlagWindow) (f : Nat),
      Entry s q .launch e ctx x ∧ r = launchRec (s.host.readN (hdr e 16 8) 256) ∧
        (popped s q).kernelImage ctx (x.entry r.imgh) = (some image, { popped s q with free := f }) ∧
        s.launchOk ctx x r image (BitVec.ofNat 64 (hdr e 32 8)) = true ∧ n < 256 ∧ Table.get s.launches n = none ∧
        (∀ m, m < n → (Table.get s.launches m).isSome = true) ∧
        s.launchWindow ctx x r image (((launchSet r.cores).head?.map fun c => c.val / 64).getD 0) = some w ∧
        hdr image 0x10 1 ≤ (s.freeGroups (hdr image 0x10 1)).length) ∧
    (∃ (q : Fin 1024) (s : State) (e : List Byte) (ctx : Nat) (x : Ctx),
      s.liveLaunch ctx (hdr e 4 1) = none ∧ Entry s q .post e ctx x) ∧
    (∃ (q : Fin 1024) (s : State) (e : List Byte) (ctx : Nat) (x : Ctx),
      s.liveLaunch ctx (hdr e 4 1) = none ∧ Entry s q .kill e ctx x) ∧
    (∃ (q : Fin 1024) (s : State) (e : List Byte) (ctx : Nat) (x : Ctx) (l : Launch) (r : BitVec 512),
      Entry s q .post e ctx x ∧ s.liveLaunch ctx (hdr e 4 1) = some l ∧ r = BitVec.ofNat 512 (hdr e 64 64) ∧
        recValid (hdr l.image 0x06 2) (s.handleKind ctx) r = false) ∧
    (∃ (q : Fin 1024) (s : State) (e : List Byte) (ctx : Nat) (x : Ctx) (l : Launch) (r : BitVec 512),
      Entry s q .post e ctx x ∧ s.liveLaunch ctx (hdr e 4 1) = some l ∧ r = BitVec.ofNat 512 (hdr e 64 64) ∧
        recValid (hdr l.image 0x06 2) (s.handleKind ctx) r = true ∧ l.quota ≤ s.heldRecords (hdr e 4 1)) ∧
    (∃ (q : Fin 1024) (s : State) (e : List Byte) (ctx : Nat) (x : Ctx) (l : Launch) (r : BitVec 512),
      Entry s q .post e ctx x ∧ s.liveLaunch ctx (hdr e 4 1) = some l ∧ r = BitVec.ofNat 512 (hdr e 64 64) ∧
        recValid (hdr l.image 0x06 2) (s.handleKind ctx) r = true ∧ s.heldRecords (hdr e 4 1) < l.quota ∧
        (s.dies[Fin.ofNat 4 l.home]).tasks.length < 16384) ∧
    (∃ (q : Fin 1024) (s : State) (e : List Byte) (ctx : Nat) (x : Ctx) (n : BitVec 15),
      Entry s q .release e ctx x ∧ (s.core (coreId (hdr e 32 1))).seq.mode = .held n ∧ s.runsCtx (coreId (hdr e 32 1)).val ctx = true) ∧
    (∃ (q : Fin 1024) (s : State) (e : List Byte) (ctx : Nat) (x : Ctx),
      Entry s q .release e ctx x ∧ ((∀ n, (s.core (coreId (hdr e 32 1))).seq.mode ≠ .held n) ∨ s.runsCtx (coreId (hdr e 32 1)).val ctx = false)) ∧
    (∃ (q : Fin 1024) (s : State) (e : List Byte) (ctx : Nat) (x : Ctx) (l : Launch),
      Entry s q .kill e ctx x ∧ s.liveLaunch ctx (hdr e 4 1) = some l) :=
  ⟨⟨0, tHost (tEntry 12 0 0 0 0 0) 0 { tHome0 with posted := 64, hold := [⟨0, 7, 0, 0, 0, 0, 0, none, false⟩] }, _, rfl, rfl, by decide +kernel⟩,
   ⟨9, { tS with queues := [(9, { ring := tEntry 12 0 0 0 0 0, pidx := 1, pending := true })] }, .badkind, by decide +kernel, rfl, by decide +kernel, rfl, nofun, nofun⟩,
   ⟨0, { tHost (tEntry 11 0 4096 16 256 0) 0 with hbmStacks := State.reset.hbmStacks.set 0 { steps := [(0, 0, 5120, 0)] } }, .xferToDevice, by decide +kernel, rfl, by decide +kernel, by decide +kernel⟩,
   ⟨0, tHost (tEntry 7 0 4096 256 0 0) (leNat (tDesc 1 8)) { tHome0 with desc := tDesc (3 * 2 ^ 16) 0 }, .contextCreate, _, 0, _, by decide +kernel, rfl, ⟨⟨by decide +kernel, by decide⟩, rfl, by decide +kernel, rfl, rfl, by decide +kernel, by decide +kernel⟩, by decide +kernel, Or.inl rfl⟩,
   ⟨0, tHost (tEntry 12 0 0 0 0 0) 0, .launch, Or.inl (by decide +kernel)⟩,
   ⟨0, tHost (tEntry 12 0 0 0 0 0) 0, tEntry 12 0 0 0 0 0, 0, tHome0, ⟨⟨by decide +kernel, by decide⟩, rfl, by decide +kernel, rfl, rfl, by decide +kernel, by decide +kernel⟩⟩,
   ⟨0, tHost (tEntry 1 0 4096 256 0 0) 20, tEntry 1 0 4096 256 0 0, 0, tHome0, _, _, ⟨⟨by decide +kernel, by decide⟩, rfl, by decide +kernel, rfl, rfl, by decide +kernel, by decide +kernel⟩, rfl, image_free _ _ _ _ (by decide +kernel) (by decide)⟩,
   ⟨0, tHost (tEntry 1 0 4096 256 0 0) 20 { tHome0 with handles := [(20, tEnt 0x8000 0x240 2 0 2 0)] }, tEntry 1 0 4096 256 0 0, [], 0, _, _, _, ⟨⟨by decide +kernel, by decide⟩, rfl, by decide +kernel, rfl, rfl, by decide +kernel, by decide +kernel⟩, rfl, image_free _ _ _ _ (by decide +kernel) (by decide), by decide +kernel⟩,
   ⟨0, { tStaged with launches := [(3, { tLaunch with fbase := 0, wflag := 16, cores := 2 })] }, tEntry 1 0 4096 256 0 0, tKernel, 0, tHome1, _, _, ⟨⟨by decide +kernel, by decide⟩, rfl, by decide +kernel, rfl, rfl, by decide +kernel, by decide +kernel⟩, rfl, image_free _ _ _ _ (by decide +kernel) (by decide), by decide +kernel, Or.inr (Or.inl (by decide +kernel))⟩,
   ⟨0, tStaged, tEntry 1 0 4096 256 0 0, tKernel, 0, 0, tHome1, _, _, _, ⟨⟨by decide +kernel, by decide⟩, rfl, by decide +kernel, rfl, rfl, by decide +kernel, by decide +kernel⟩, rfl, image_free _ _ _ _ (by decide +kernel) (by decide), by decide +kernel, by decide, rfl, nofun, rfl, by decide +kernel⟩,
   ⟨0, tHost (tEntry 2 3 0 0 0 0) 0, tEntry 2 3 0 0 0 0, 0, tHome0, by decide +kernel, ⟨⟨by decide +kernel, by decide⟩, rfl, by decide +kernel, rfl, rfl, by decide +kernel, by decide +kernel⟩⟩,
   ⟨0, tHost (tEntry 9 3 0 0 0 0) 0, tEntry 9 3 0 0 0 0, 0, tHome0, by decide +kernel, ⟨⟨by decide +kernel, by decide⟩, rfl, by decide +kernel, rfl, rfl, by decide +kernel, by decide +kernel⟩⟩,
   ⟨0, tPosted (tEntry 2 3 0 0 0 0), tEntry 2 3 0 0 0 0, 0, tHome0, tLaunch, _, ⟨⟨by decide +kernel, by decide⟩, rfl, by decide +kernel, rfl, rfl, by decide +kernel, by decide +kernel⟩, rfl, rfl, by decide +kernel⟩,
   ⟨0, { tPosted (tEntry 2 3 0 0 0 tRecord) with launches := [(3, { tLaunch with quota := 1 })], dies := State.reset.dies.set 0 { Die.reset with tasks := [tRec] } }, tEntry 2 3 0 0 0 tRecord, 0, tHome0, { tLaunch with quota := 1 }, _,
    ⟨⟨by decide +kernel, by decide⟩, rfl, by decide +kernel, rfl, rfl, by decide +kernel, by decide +kernel⟩, rfl, rfl, by decide +kernel, by decide +kernel⟩,
   ⟨0, tPosted (tEntry 2 3 0 0 0 tRecord), tEntry 2 3 0 0 0 tRecord, 0, tHome0, tLaunch, _, ⟨⟨by decide +kernel, by decide⟩, rfl, by decide +kernel, rfl, rfl, by decide +kernel, by decide +kernel⟩, rfl, rfl, by decide +kernel, by decide +kernel, by decide +kernel⟩,
   ⟨0, { tHost (tEntry 5 0 0 0 0 0) 0 with cores := State.reset.cores.set 0 { tCore with run := some tRun, seq := { tCore.seq with mode := .held 5 } }, launches := [(3, tLaunch)] },
    tEntry 5 0 0 0 0 0, 0, tHome0, 5, ⟨⟨by decide +kernel, by decide⟩, rfl, by decide +kernel, rfl, rfl, by decide +kernel, by decide +kernel⟩, by decide +kernel, by decide +kernel⟩,
   ⟨0, tHost (tEntry 5 0 0 0 0 0) 0, tEntry 5 0 0 0 0 0, 0, tHome0, ⟨⟨by decide +kernel, by decide⟩, rfl, by decide +kernel, rfl, rfl, by decide +kernel, by decide +kernel⟩, Or.inr (by decide +kernel)⟩,
   ⟨0, tPosted (tEntry 9 3 0 0 0 0), tEntry 9 3 0 0 0 0, 0, tHome0, tLaunch, ⟨⟨by decide +kernel, by decide⟩, rfl, by decide +kernel, rfl, rfl, by decide +kernel, by decide +kernel⟩, rfl⟩⟩

/-- Host-queue entries: installations, attestations and contexts. -/
theorem witness_HostEntries2 :
    (∃ (q : Fin 1024) (s : State) (e : List Byte) (ctx : Nat) (x : Ctx) (gone : List Model) (placed : List Obj) (image : List Byte) (at_ : Nat),
      Entry s q .install e ctx x ∧ image = s.host.readN (hdr e 16 8) (hdr e 24 8) ∧ modelOk x (s.signEntry ctx x) image = true ∧
        s.installPlan ctx x ((modelObjs image).map Prod.snd) = some (gone, placed) ∧ at_ = hdr e 16 8 + hdr e 24 8) ∧
    (∃ (q : Fin 1024) (s : State) (e : List Byte) (ctx : Nat) (x : Ctx) (image : List Byte),
      Entry s q .install e ctx x ∧ image = s.host.readN (hdr e 16 8) (hdr e 24 8) ∧ modelOk x (s.signEntry ctx x) image = false) ∧
    (∃ (q : Fin 1024) (s : State) (e : List Byte) (ctx : Nat) (x : Ctx) (image : List Byte),
      Entry s q .install e ctx x ∧ image = s.host.readN (hdr e 16 8) (hdr e 24 8) ∧ modelOk x (s.signEntry ctx x) image = true ∧
        s.installPlan ctx x ((modelObjs image).map Prod.snd) = none) ∧
    (∃ (q : Fin 1024) (s : State) (e : List Byte) (ctx : Nat) (x : Ctx),
      Entry s q .uninstall e ctx x ∧ x.models.find? (fun m => decide (m.id = BitVec.ofNat 64 (hdr e 32 8))) = none) ∧
    (∃ (q : Fin 1024) (s : State) (e : List Byte) (ctx : Nat) (x : Ctx) (m : Model),
      Entry s q .uninstall e ctx x ∧ x.models.find? (fun m => decide (m.id = BitVec.ofNat 64 (hdr e 32 8))) = some m ∧
        (s.modelPinned ctx x m = true ∨ (∃ p ∈ x.handles, Ent.kind p.2 = 2 ∧ Ent.state p.2 ≠ 4 ∧ m.holds (Ent.auxw p.2) = true))) ∧
    (∃ (q : Fin 1024) (s : State) (e : List Byte) (ctx : Nat) (x : Ctx) (m : Model),
      Entry s q .uninstall e ctx x ∧ x.models.find? (fun m => decide (m.id = BitVec.ofNat 64 (hdr e 32 8))) = some m ∧
        s.modelPinned ctx x m = false ∧ (∀ p ∈ x.handles, Ent.kind p.2 = 2 → Ent.state p.2 ≠ 4 → m.holds (Ent.auxw p.2) = false)) ∧
    (∃ (q : Fin 1024) (s : State) (e : List Byte) (ctx : Nat) (x : Ctx),
      Entry s q .attest e ctx x) ∧
    (∃ (q : Fin 1024) (s : State) (e b : List Byte),
      s.inv ∧ (s.queue q.val).pending = true ∧ s.entryKind q.val = .contextCreate ∧ (s.queue q.val).entry = e ∧
        (∀ n x, s.owner q.val = some (n, x) → x.d 0x02 1 = 0) ∧ s.queueWaits q.val = false ∧ b = s.host.readN (hdr e 16 8) 256 ∧
        (∀ phase, s.descOk (newCtx b phase) = true) ∧ hdr b 0x24 4 * (hdr b 0x28 8 / 2 ^ 21) + 6 ≤ s.framesLeft) ∧
    (∃ (q : Fin 1024) (s : State) (e b : List Byte) (ctx : Nat) (x : Ctx),
      Entry s q .contextCreate e ctx x ∧ x.d 0x02 1 = 0 ∧ b = s.host.readN (hdr e 16 8) 256 ∧ (∀ phase, s.descOk (newCtx b phase) = false)) ∧
    (∃ (q : Fin 1024) (s : State) (e b : List Byte) (ctx : Nat) (x : Ctx),
      Entry s q .contextCreate e ctx x ∧ x.d 0x02 1 = 0 ∧ b = s.host.readN (hdr e 16 8) 256 ∧ (∀ phase, s.descOk (newCtx b phase) = true) ∧
        s.framesLeft < hdr b 0x24 4 * (hdr b 0x28 8 / 2 ^ 21) + 6) :=
  ⟨⟨0, tInstall, tEntry 3 0 4096 16385 0 0, 0, tHome2, _, _, tModel, _, ⟨⟨by decide +kernel, by decide⟩, rfl, by decide +kernel, rfl, rfl, by decide +kernel, by decide +kernel⟩,
    tModel_placed.symm, tModel_ok, tModel_room, rfl⟩,
   ⟨0, tHost (tEntry 3 0 4096 64 0 0) 0, tEntry 3 0 4096 64 0 0, 0, tHome0, _, ⟨⟨by decide +kernel, by decide⟩, rfl, by decide +kernel, rfl, rfl, by decide +kernel, by decide +kernel⟩, rfl, by decide +kernel⟩,
   ⟨0, tCramped, tEntry 3 0 4096 16385 0 0, 0, tHome3, tModel, ⟨⟨by decide +kernel, by decide⟩, rfl, by decide +kernel, rfl, rfl, by decide +kernel, by decide +kernel⟩,
    tModel_placed.symm, tModel_ok3, tModel_cramped⟩,
   ⟨0, tHost (tEntry 4 0 0 0 8 0) 0, tEntry 4 0 0 0 8 0, 0, tHome0, ⟨⟨by decide +kernel, by decide⟩, rfl, by decide +kernel, rfl, rfl, by decide +kernel, by decide +kernel⟩, rfl⟩,
   ⟨0, { tHost (tEntry 4 0 0 0 9 0) 0 { tHome0 with handles := [(13, tEnt 0 0x40 0 2 (2 ^ 8) 0)] } with launches := [(3, { tLaunch with bindings := [(13, 3)] })] },
    tEntry 4 0 0 0 9 0, 0, _, _, ⟨⟨by decide +kernel, by decide⟩, rfl, by decide +kernel, rfl, rfl, by decide +kernel, by decide +kernel⟩, rfl, Or.inl (by decide +kernel)⟩,
   ⟨0, tHost (tEntry 4 0 0 0 9 0) 0, tEntry 4 0 0 0 9 0, 0, tHome0, _, ⟨⟨by decide +kernel, by decide⟩, rfl, by decide +kernel, rfl, rfl, by decide +kernel, by decide +kernel⟩, rfl, by decide +kernel, by decide +kernel⟩,
   ⟨0, tHost (tEntry 6 0 0 0 0 0) 0, tEntry 6 0 0 0 0 0, 0, tHome0, ⟨⟨by decide +kernel, by decide⟩, rfl, by decide +kernel, rfl, rfl, by decide +kernel, by decide +kernel⟩⟩,
   ⟨0, tHost (tEntry 7 0 4096 256 0 0) (leNat (tDesc 1 8)), tEntry 7 0 4096 256 0 0, _, ⟨by decide +kernel, by decide⟩, rfl, by decide +kernel,
    rfl, (fun n x h => by have : (n, x) = (0, tHome0) := (Option.some.inj h).symm; cases this; decide +kernel), by decide +kernel, rfl,
    (fun p => by cases p <;> decide +kernel), frames_free _ _ (by decide +kernel)⟩,
   ⟨0, tHost (tEntry 7 0 4096 256 0 0) 0, tEntry 7 0 4096 256 0 0, _, 0, tHome0, ⟨⟨by decide +kernel, by decide⟩, rfl, by decide +kernel, rfl, rfl, by decide +kernel, by decide +kernel⟩, by decide +kernel, rfl, (fun p => by cases p <;> decide +kernel)⟩,
   ⟨0, tDead (tEntry 7 0 4096 256 0 0) (leNat (tDesc 1 8)), tEntry 7 0 4096 256 0 0, _, 0, tHome0, ⟨⟨by decide +kernel, by decide⟩, rfl, by decide +kernel, rfl, rfl, by decide +kernel, by decide +kernel⟩, by decide +kernel, rfl, (fun p => by cases p <;> decide +kernel),
    (by rw [frames_dead]; exact Nat.lt_of_lt_of_le (by decide : 0 < 6) (Nat.le_add_left 6 _))⟩⟩

/-- Host-queue entries: windows, maps and transfers. -/
theorem witness_HostEntries3 :
    (∃ (q : Fin 1024) (s : State) (e : List Byte) (ctx : Nat) (x : Ctx),
      Entry s q .contextDestroy e ctx x ∧ x.d 0x02 1 = 0 ∧ Table.get s.ctxs (hdr (s.host.readN (hdr e 16 8) 256) 0 1) = none) ∧
    (∃ (q : Fin 1024) (s : State) (e b : List Byte) (ctx n : Nat) (x y : Ctx),
      Entry s q .contextDestroy e ctx x ∧ x.d 0x02 1 = 0 ∧ b = s.host.readN (hdr e 16 8) 256 ∧ n = hdr b 0 1 ∧ Table.get s.ctxs n = some y ∧
        y.destroying = none ∧ s.goneOk (newCtx b false) = true) ∧
    (∃ (q : Fin 1024) (s : State) (e b : List Byte) (ctx n : Nat) (x y : Ctx),
      Entry s q .contextDestroy e ctx x ∧ x.d 0x02 1 = 0 ∧ b = s.host.readN (hdr e 16 8) 256 ∧ n = hdr b 0 1 ∧ Table.get s.ctxs n = some y ∧
        (y.destroying.isSome = true ∨ s.goneOk (newCtx b false) = false)) ∧
    (∃ (q : Fin 1024) (s : State) (e b : List Byte) (ctx : Nat) (x : Ctx),
      Entry s q .window e ctx x ∧ b = s.host.readN (hdr e 16 8) 32 ∧ 
        (63 ≤ hdr b 1 1 ∨ 2 ≤ hdr b 2 1 ∨ zeros b 3 5 = false ∨ (hdr b 0 1 ≠ 5 ∧ hdr b 0 1 ≠ 6) ∨ (hdr b 0 1 = 5 ∧ zeros b 24 8 = false) ∨
          (hdr b 0 1 = 6 ∧ zeros b 15 1 = false))) ∧
    (∃ (q : Fin 1024) (s : State) (e b : List Byte) (ctx : Nat) (x : Ctx),
      Entry s q .window e ctx x ∧ b = s.host.readN (hdr e 16 8) 32 ∧ hdr b 1 1 < 63 ∧ hdr b 2 1 < 2 ∧ zeros b 3 5 = true ∧ hdr b 0 1 = 5 ∧
        zeros b 24 8 = true) ∧
    (∃ (q : Fin 1024) (s : State) (e b : List Byte) (ctx : Nat) (x : Ctx),
      Entry s q .window e ctx x ∧ b = s.host.readN (hdr e 16 8) 32 ∧ hdr b 1 1 < 63 ∧ hdr b 2 1 < 2 ∧ zeros b 3 5 = true ∧ hdr b 0 1 = 6 ∧
        zeros b 15 1 = true) ∧
    (∃ (q : Fin 1024) (s : State) (e b : List Byte) (ctx : Nat) (x : Ctx),
      Entry s q .map e ctx x ∧ b = s.host.readN (hdr e 16 8) 32 ∧ mapOk b = true ∧ hdr b 12 1 = 1 ∧
        (∀ p ∈ mapPages b, ¬ ((x.page p).getLsbD 0 = true ∧ (x.page p).getLsbD 2 = false) ∧ x.owned p = false) ∧
        (x.mapped + (mapPages b).length) * 2 ^ 21 ≤ x.d 0x38 8 ∧ (mapPages b).length ≤ s.framesLeft) ∧
    (∃ (q : Fin 1024) (s : State) (e b : List Byte) (ctx : Nat) (x : Ctx),
      Entry s q .map e ctx x ∧ b = s.host.readN (hdr e 16 8) 32 ∧ 
        (mapOk b = false ∨ hdr b 12 1 ≠ 1 ∨
          (∃ p ∈ mapPages b, ((x.page p).getLsbD 0 = true ∧ (x.page p).getLsbD 2 = false) ∨ x.owned p = true) ∨
          x.d 0x38 8 < (x.mapped + (mapPages b).length) * 2 ^ 21)) ∧
    (∃ (q : Fin 1024) (s : State) (e b : List Byte) (ctx : Nat) (x : Ctx),
      Entry s q .map e ctx x ∧ b = s.host.readN (hdr e 16 8) 32 ∧ mapOk b = true ∧ hdr b 12 1 = 1 ∧
        (∀ p ∈ mapPages b, ¬ ((x.page p).getLsbD 0 = true ∧ (x.page p).getLsbD 2 = false) ∧ x.owned p = false) ∧
        (x.mapped + (mapPages b).length) * 2 ^ 21 ≤ x.d 0x38 8 ∧ s.framesLeft < (mapPages b).length) ∧
    (∃ (q : Fin 1024) (s : State) (e b : List Byte) (ctx : Nat) (x : Ctx),
      Entry s q .unmap e ctx x ∧ b = s.host.readN (hdr e 16 8) 32 ∧ 
        (mapOk b = false ∨ (∃ p ∈ mapPages b, (x.page p).getLsbD 0 = false ∨ x.owned p = true))) ∧
    (∃ (q : Fin 1024) (s : State) (e b : List Byte) (ctx : Nat) (x : Ctx),
      Entry s q .unmap e ctx x ∧ b = s.host.readN (hdr e 16 8) 32 ∧ mapOk b = true ∧
        (∀ p ∈ mapPages b, (x.page p).getLsbD 0 = true ∧ x.owned p = false)) ∧
    (∃ (q : Fin 1024) (s : State) (e : List Byte) (ctx : Nat) (x : Ctx),
      (hdr e 24 8 = 0 ∨ 2 ^ 32 < hdr e 24 8) ∧ Entry s q .xferToDevice e ctx x) ∧
    (∃ (q : Fin 1024) (s : State) (e : List Byte) (ctx : Nat) (x : Ctx),
      (hdr e 24 8 = 0 ∨ 2 ^ 32 < hdr e 24 8) ∧ Entry s q .xferToHost e ctx x) ∧
    (∃ (q : Fin 1024) (s : State) (e : List Byte) (ctx va n : Nat) (x : Ctx) (f : Nat → Nat),
      va = hdr e 32 8 % 2 ^ 40 ∧ n = hdr e 24 8 ∧ 1 ≤ n ∧ n ≤ 2 ^ 32 ∧ Entry s q .xferToDevice e ctx x ∧ Places x va n true f) ∧
    (∃ (q : Fin 1024) (s : State) (e : List Byte) (ctx va n : Nat) (x : Ctx) (a : Nat) (r : Reason),
      va = hdr e 32 8 % 2 ^ 40 ∧ n = hdr e 24 8 ∧ 1 ≤ n ∧ n ≤ 2 ^ 32 ∧ Entry s q .xferToDevice e ctx x ∧ a < n ∧
        x.translate (va + a) true = .error r ∧ (∀ i, i < a → ∃ p, x.translate (va + i) true = .ok p)) ∧
    (∃ (q : Fin 1024) (s : State) (e : List Byte) (ctx va n : Nat) (x : Ctx) (a : Nat) (r : Reason),
      va = hdr e 32 8 % 2 ^ 40 ∧ n = hdr e 24 8 ∧ 1 ≤ n ∧ n ≤ 2 ^ 32 ∧ Entry s q .xferToHost e ctx x ∧ a < n ∧
        x.translate (va + a) false = .error r ∧ (∀ i, i < a → ∃ p, x.translate (va + i) false = .ok p)) ∧
    (∃ (q : Fin 1024) (s : State) (e : List Byte) (ctx va n : Nat) (x : Ctx) (f : Nat → Nat),
      va = hdr e 32 8 % 2 ^ 40 ∧ n = hdr e 24 8 ∧ 1 ≤ n ∧ n ≤ 2 ^ 32 ∧ Entry s q .xferToHost e ctx x ∧ Places x va n false f ∧
        (∀ i, i < n → f i / 32 ∉ s.hbmPoison)) ∧
    (∃ (q : Fin 1024) (s : State) (e : List Byte) (ctx va n : Nat) (x : Ctx) (f : Nat → Nat) (a : Nat),
      va = hdr e 32 8 % 2 ^ 40 ∧ n = hdr e 24 8 ∧ 1 ≤ n ∧ n ≤ 2 ^ 32 ∧ Entry s q .xferToHost e ctx x ∧ Places x va n false f ∧
        a < n ∧ f a / 32 ∈ s.hbmPoison ∧ (∀ i, i < a → f i / 32 ∉ s.hbmPoison)) :=
  ⟨⟨0, tHost (tEntry 7 0 4096 256 0 0) (5 + 2 * 2 ^ 8), tEntry 7 0 4096 256 0 0, 0, tHome0, ⟨⟨by decide +kernel, by decide⟩, rfl, by decide +kernel, rfl, rfl, by decide +kernel, by decide +kernel⟩, by decide +kernel, by decide +kernel⟩,
   ⟨0, tHost (tEntry 7 0 4096 256 0 0) (leNat (tDesc (2 ^ 8) 0)), tEntry 7 0 4096 256 0 0, _, 0, 0, tHome0, tHome0,
    ⟨⟨by decide +kernel, by decide⟩, rfl, by decide +kernel, rfl, rfl, by decide +kernel, by decide +kernel⟩, by decide +kernel, rfl, by decide +kernel, rfl, rfl, by decide +kernel⟩,
   ⟨0, tHost (tEntry 7 0 4096 256 0 0) (2 * 2 ^ 8) { tHome0 with destroying := some (some (⟨0, 7, 0, 0, 0, 0, 0, none, false⟩, 0)) }, tEntry 7 0 4096 256 0 0, _, 0, 0,
    _, _, ⟨⟨by decide +kernel, by decide⟩, rfl, by decide +kernel, rfl, rfl, by decide +kernel, by decide +kernel⟩, by decide +kernel, rfl, by decide +kernel, rfl, Or.inl rfl⟩,
   ⟨0, tHost (tEntry 8 0 4096 32 0 0) (5 + 63 * 2 ^ 8), tEntry 8 0 4096 32 0 0, _, 0, tHome0, ⟨⟨by decide +kernel, by decide⟩, rfl, by decide +kernel, rfl, rfl, by decide +kernel, by decide +kernel⟩, rfl, Or.inl (by decide +kernel)⟩,
   ⟨0, tHost (tEntry 8 0 4096 32 0 0) (5 + 4 * 2 ^ 8 + 2 ^ 16 + 0x9000 * 2 ^ 64 + 64 * 2 ^ 128), tEntry 8 0 4096 32 0 0, _, 0, tHome0,
    ⟨⟨by decide +kernel, by decide⟩, rfl, by decide +kernel, rfl, rfl, by decide +kernel, by decide +kernel⟩, rfl, by decide +kernel, by decide +kernel, by decide +kernel, by decide +kernel, by decide +kernel⟩,
   ⟨0, tHost (tEntry 8 0 4096 32 0 0) (6 + 4 * 2 ^ 8 + 2 ^ 16 + 64 * 2 ^ 128), tEntry 8 0 4096 32 0 0, _, 0, tHome0,
    ⟨⟨by decide +kernel, by decide⟩, rfl, by decide +kernel, rfl, rfl, by decide +kernel, by decide +kernel⟩, rfl, by decide +kernel, by decide +kernel, by decide +kernel, by decide +kernel, by decide +kernel⟩,
   ⟨0, tHost (tEntry 10 0 4096 32 0 0) (6 * 2 ^ 21 + 2 ^ 64 + 2 ^ 96 + 2 ^ 104), tEntry 10 0 4096 32 0 0, _, 0, tHome0, ⟨⟨by decide +kernel, by decide⟩, rfl, by decide +kernel, rfl, rfl, by decide +kernel, by decide +kernel⟩, rfl, by decide +kernel, by decide +kernel, by decide +kernel, by decide +kernel, frames_free _ _ (by decide +kernel)⟩,
   ⟨0, tHost (tEntry 10 0 4096 32 0 0) 0, tEntry 10 0 4096 32 0 0, _, 0, tHome0, ⟨⟨by decide +kernel, by decide⟩, rfl, by decide +kernel, rfl, rfl, by decide +kernel, by decide +kernel⟩, rfl, Or.inr (Or.inl (by decide +kernel))⟩,
   ⟨0, tDead (tEntry 10 0 4096 32 0 0) (6 * 2 ^ 21 + 2 ^ 64 + 2 ^ 96 + 2 ^ 104), tEntry 10 0 4096 32 0 0, _, 0, tHome0, ⟨⟨by decide +kernel, by decide⟩, rfl, by decide +kernel, rfl, rfl, by decide +kernel, by decide +kernel⟩, rfl, by decide +kernel, by decide +kernel, by decide +kernel, by decide +kernel, (by rw [frames_dead]; decide +kernel)⟩,
   ⟨0, tHost (tEntry 10 0 4096 32 0 0) (9 * 2 ^ 21 + 2 ^ 64 + 2 * 2 ^ 96), tEntry 10 0 4096 32 0 0, _, 0, tHome0, ⟨⟨by decide +kernel, by decide⟩, rfl, by decide +kernel, rfl, rfl, by decide +kernel, by decide +kernel⟩, rfl, Or.inr (by decide +kernel)⟩,
   ⟨0, tHost (tEntry 10 0 4096 32 0 0) (3 * 2 ^ 21 + 2 ^ 64 + 2 * 2 ^ 96), tEntry 10 0 4096 32 0 0, _, 0, tHome0, ⟨⟨by decide +kernel, by decide⟩, rfl, by decide +kernel, rfl, rfl, by decide +kernel, by decide +kernel⟩, rfl, by decide +kernel, by decide +kernel⟩,
   ⟨0, tHost (tEntry 11 0 4096 0 256 0) 0, tEntry 11 0 4096 0 256 0, 0, tHome0, Or.inl (by decide +kernel), ⟨⟨by decide +kernel, by decide⟩, rfl, by decide +kernel, rfl, rfl, by decide +kernel, by decide +kernel⟩⟩,
   ⟨0, tHost (tEntry 11 0 4096 0 (2 ^ 63 + 256) 0) 0, tEntry 11 0 4096 0 (2 ^ 63 + 256) 0, 0, tHome0, Or.inl (by decide +kernel), ⟨⟨by decide +kernel, by decide⟩, rfl, by decide +kernel, rfl, rfl, by decide +kernel, by decide +kernel⟩⟩,
   ⟨0, tHost (tEntry 11 0 4096 16 256 0) 0, tEntry 11 0 4096 16 256 0, 0, 0x100, 16, tHome0, _, by decide +kernel, by decide +kernel, by decide, by decide, ⟨⟨by decide +kernel, by decide⟩, rfl, by decide +kernel, rfl, rfl, by decide +kernel, by decide +kernel⟩, places_m _ rfl rfl _ _ (by decide) _⟩,
   ⟨0, tHost (tEntry 11 0 4096 16 2097148 0) 0, tEntry 11 0 4096 16 2097148 0, 0, 0x1FFFFC, 16, tHome0, 4, .notMapped, by decide +kernel, by decide +kernel, by decide, by decide, ⟨⟨by decide +kernel, by decide⟩, rfl, by decide +kernel, rfl, rfl, by decide +kernel, by decide +kernel⟩, by decide, rfl,
    fun i hi => ⟨_, map_m _ rfl rfl _ (by omega) _⟩⟩,
   ⟨0, tHost (tEntry 11 0 4096 16 (2 ^ 63 + 2097148) 0) 0, tEntry 11 0 4096 16 (2 ^ 63 + 2097148) 0, 0, 0x1FFFFC, 16, tHome0, 4, .notMapped, by decide +kernel, by decide +kernel, by decide, by decide, ⟨⟨by decide +kernel, by decide⟩, rfl, by decide +kernel, rfl, rfl, by decide +kernel, by decide +kernel⟩, by decide, rfl,
    fun i hi => ⟨_, map_m _ rfl rfl _ (by omega) _⟩⟩,
   ⟨0, tHost (tEntry 11 0 4096 16 (2 ^ 63 + 0x100) 0) 0, tEntry 11 0 4096 16 (2 ^ 63 + 0x100) 0, 0, 0x100, 16, tHome0, _, by decide +kernel, by decide +kernel, by decide, by decide, ⟨⟨by decide +kernel, by decide⟩, rfl, by decide +kernel, rfl, rfl, by decide +kernel, by decide +kernel⟩, places_m _ rfl rfl _ _ (by decide) _,
    (fun i _ h => by cases h)⟩,
   ⟨0, { tHost (tEntry 11 0 4096 16 (2 ^ 63 + 0x100) 0) 0 with hbmPoison := [327688] }, tEntry 11 0 4096 16 (2 ^ 63 + 0x100) 0, 0, 0x100, 16, tHome0, fun i => 5 * 2 ^ 21 + (0x100 + i), 0, by decide +kernel, by decide +kernel, by decide, by decide, ⟨⟨by decide +kernel, by decide⟩, rfl, by decide +kernel, rfl, rfl, by decide +kernel, by decide +kernel⟩, places_m _ rfl rfl _ _ (by decide) _,
    by decide, List.mem_singleton.mpr rfl, fun i h => absurd h (Nat.not_lt_zero i)⟩⟩

theorem witness_RegisterWrites :
    (∃ (src : Nat) (q : Fin 1024) (v : BitVec 64) (s : State) (ctx : Nat) (x : Ctx),
      s.fwOk = true ∧ src < 2 ^ 40 ∧ s.owner q.val = some (ctx, x) ∧ (src = 0 ∨ x.d 0x02 1 = src) ∧ (v.setWidth 32 - (s.queue q.val).cidx).toNat ≤ 8) ∧
    (∃ (src : Nat) (q : Fin 1024) (v : BitVec 64) (s : State),
      s.fwOk = true ∧ src < 2 ^ 40 ∧ 0 < src ∧ (∀ ctx x, s.owner q.val = some (ctx, x) → x.d 0x02 1 ≠ src)) ∧
    (∃ (src : Nat) (q : Fin 1024) (v : BitVec 64) (s : State) (ctx : Nat) (x : Ctx),
      s.fwOk = true ∧ src < 2 ^ 40 ∧ s.owner q.val = some (ctx, x) ∧ (src = 0 ∨ x.d 0x02 1 = src) ∧ 8 < (v.setWidth 32 - (s.queue q.val).cidx).toNat) ∧
    (∃ (src : Nat) (d : Fin 4) (n : Fin 256) (v : BitVec 64) (s : State) (l : Launch) (x : Ctx) (b : List Byte) (r : BitVec 512),
      s.fwOk = true ∧ src < 2 ^ 40 ∧ Table.get s.launches n.val = some l ∧ l.completed = false ∧ Table.get s.ctxs l.ctx = some x ∧
        (src = 0 ∨ x.d 0x02 1 = src) ∧ v.toNat % 2 ^ 40 % 64 = 0 ∧ s.hbmRead l.ctx (v.toNat % 2 ^ 40) 64 = .ok (b, none) ∧
        r = BitVec.ofNat 512 (leNat b) ∧ recValid (hdr l.image 0x06 2) (s.handleKind l.ctx) r = true ∧
        (∃ c ∈ dieCores d, l.cores.getLsbD c.val = true) ∧ s.heldRecords n.val < l.quota ∧ (s.dies[d]).tasks.length < 16384) ∧
    (∃ (src : Nat) (d : Fin 4) (n : Fin 256) (v : BitVec 64) (s : State),
      s.fwOk = true ∧ src < 2 ^ 40 ∧ Table.get s.launches n.val = none) ∧
    (∃ (src : Nat) (d : Fin 4) (n : Fin 256) (v : BitVec 64) (s : State) (l : Launch) (x : Ctx),
      s.fwOk = true ∧ src < 2 ^ 40 ∧ 0 < src ∧ Table.get s.launches n.val = some l ∧ l.completed = false ∧ Table.get s.ctxs l.ctx = some x ∧ x.d 0x02 1 ≠ src) ∧
    (∃ (src : Nat) (k : Fin 64) (v : BitVec 64) (s : State),
      s.fwOk = true ∧ src = 0) ∧
    (∃ (src : Nat) (k : Fin 64) (v : BitVec 64) (s : State),
      s.fwOk = true ∧ 0 < src ∧ src < 2 ^ 40) ∧
    (∃ (v : BitVec 64) (s : State),
      s.fwOk = true) ∧
    (∃ (src : Nat) (bytes : List Byte) (s : State) (q : Fin 1024),
      bytes.length = 8) ∧
    (∃ (src : Nat) (bytes : List Byte) (s : State) (d : Fin 4) (l : Fin 256),
      bytes.length = 8) ∧
    (∃ (src : Nat) (bytes : List Byte) (s : State) (k : Fin 64),
      bytes.length = 8) ∧
    (∃ (src off : Nat) (bytes : List Byte) (s : State),
      s.fwOk = true ∧ src < 2 ^ 40 ∧ off < 0x2000 ∧ bytes.length ≠ 8) :=
  ⟨⟨0, 0, 4, tPosted (tEntry 6 0 0 0 0 0), 0, tHome0, (rfl), (by decide), (rfl), Or.inl rfl, (by decide +kernel)⟩,
   ⟨9, 0, 4, tPosted (tEntry 6 0 0 0 0 0), (rfl), (by decide), by decide, fun c x h => by
      have : (c, x) = (0, tHome0) := (Option.some.inj h).symm; cases this; decide +kernel⟩,
   ⟨0, 0, 40, tPosted (tEntry 6 0 0 0 0 0), 0, tHome0, (rfl), (by decide), (rfl), Or.inl rfl, (by decide +kernel)⟩,
   ⟨0, 0, 3, 0x40, tPosted (tEntry 6 0 0 0 0 0), tLaunch, tHome0, _, _, (rfl), (by decide), (rfl), (rfl), (rfl), Or.inl rfl,
    (by decide +kernel), (rfl), (rfl), (by decide +kernel), (by decide +kernel), (by decide +kernel), (by decide +kernel)⟩,
   ⟨0, 0, 3, 0x40, tS, rfl, by decide, rfl⟩,
   ⟨9, 0, 3, 0x40, tPosted (tEntry 6 0 0 0 0 0), tLaunch, tHome0, rfl, by decide, by decide, rfl, rfl, rfl, by decide +kernel⟩,
   ⟨0, 5, 1, tS, (rfl), (rfl)⟩,
   ⟨9, 5, 1, tS, (rfl), by decide, by decide⟩,
   ⟨5, tS, (rfl)⟩,
   ⟨0, natLe 8 4, tS, 0, (by decide +kernel)⟩,
   ⟨0, natLe 8 4, tS, 0, 3, (by decide +kernel)⟩,
   ⟨0, natLe 8 4, tS, 0, (by decide +kernel)⟩,
   ⟨0, 0x40, [1, 2], tS, (rfl), (by decide), by decide, by decide⟩⟩

/-- Core 0's turn at bundle 7, whose first word is given. -/
def tTurn (w : Nat) : State := { tOn { tCore with sto := { tCore.sto with imem := tCells 224 (natLe 4 w) } } with agenda := [.core 0] }

theorem witness_StepRunsDecoded :
    (∃ (s : State) (c : Fin 256) (r : List Act),
      s.agenda = .core c :: r ∧ (s.core c).seq.mode = .running ∧ s.lockstep c = [c] ∧ (s.core c).fetchWaits = false ∧
        (∀ x, (s.core c).run = some x → (s.core c).seq.taskEntered = true ∨ (s.core c).seq.pc ≠ x.ker) ∧
        (∀ m, m < 8 → decodeSlot (slotClassOf m) ((s.core c).slotWord (s.core c).seq.pc.toNat m) = .ok .nop)) ∧
    (∃ (s : State) (c : Fin 256) (r : List Act) (n : Nat) (i : Instr),
      s.agenda = .core c :: r ∧ (s.core c).seq.mode = .running ∧ s.lockstep c = [c] ∧ (s.core c).fetchWaits = false ∧
        (∀ x, (s.core c).run = some x → (s.core c).seq.taskEntered = true ∨ (s.core c).seq.pc ≠ x.ker) ∧ n < 8 ∧ i ≠ .nop ∧
        decodeSlot (slotClassOf n) ((s.core c).slotWord (s.core c).seq.pc.toNat n) = .ok i ∧
        (∀ m, m < 8 → m ≠ n → decodeSlot (slotClassOf m) ((s.core c).slotWord (s.core c).seq.pc.toNat m) = .ok .nop)) ∧
    (∃ (s : State) (c : Fin 256) (r : List Act),
      s.agenda = .core c :: r ∧ (s.core c).seq.mode = .running ∧ s.lockstep c = [c] ∧ (s.core c).fetchWaits = false ∧
        (∀ x, (s.core c).run = some x → (s.core c).seq.taskEntered = true ∨ (s.core c).seq.pc ≠ x.ker) ∧
        (2 ≤ ((s.core c).fetch (s.core c).seq.pc.toNat).length ∨ ∃ n e, (s.core c).fetch (s.core c).seq.pc.toNat = [(n, .error e)])) ∧
    (∃ (s : State) (i : Instr) (r : List Act),
      s.agenda = .event i :: r) ∧
    (∃ (s : State) (r : List Act),
      s.agenda = .tick :: r) :=
  ⟨⟨tTurn 0, 0, [], (rfl), (rfl), (by decide +kernel), (by decide +kernel), (nofun), fun m h => is_of _ _ (by revert m; decide +kernel)⟩,
   ⟨tTurn 0x020108C0, 0, [], 0, .add always 1 1 3, (rfl), (rfl), (by decide +kernel), (by decide +kernel), (nofun), by decide, nofun, is_of _ _ (by decide +kernel),
    fun m h n => is_of _ _ (by revert m; decide +kernel)⟩,
   ⟨tTurn 0xFFFFFFFF, 0, [], (rfl), (rfl), (by decide +kernel), (by decide +kernel), (nofun), Or.inr ⟨0, _, rfl⟩⟩,
   ⟨{ tS with agenda := [.event (.semaphoreIncrement 3)] }, .semaphoreIncrement 3, [], rfl⟩,
   ⟨{ tS with agenda := [.tick] }, [], rfl⟩⟩

theorem witness_RoundTrip :
    ∃ (i : Instr) (c : SlotClass),
      i.slotClass = some c ∧ i.wf = true :=
  ⟨.ld32s always 1 5 6 0, _, rfl, rfl⟩

/-- Every step from reset starts in a state that the invariant holds of. -/
theorem witness_StepKeepsMemory : ∃ s t : State, s.inv ∧ step s = .next t := ⟨State.reset, _, ⟨by decide +kernel, by decide⟩, rfl⟩

end Sys2Proof.Tests
end

section
/-! The rules of scalar operands and results (01 R17, R18, 03 R59): one lemma per case of an operand code. -/

namespace Sys2Proof.Machine

/-! ### Vectors with one element replaced -/

/-- The replaced element reads back, for a number in range. -/
theorem vset_getD_same {α : Type} {n i : Nat} (v : Vector α n) (x d : α) (h : i < n) : (vset v i x).getD i d = x := by
  simp only [vset, Vector.getD, Array.getD_eq_getD_getElem?, Vector.toArray_setIfInBounds,
    Array.getElem?_setIfInBounds_self_of_lt (v.size_toArray.symm ▸ h), Option.getD_some]

/-- Every other element stays. -/
theorem vset_getD_ne {α : Type} {n i j : Nat} (v : Vector α n) (x d : α) (h : j ≠ i) : (vset v i x).getD j d = v.getD j d := by
  simp only [vset, Vector.getD, Array.getD_eq_getD_getElem?, Vector.toArray_setIfInBounds, Array.getElem?_setIfInBounds_ne h.symm]

/-! ### Operands -/

/-- A queue's operand code lies past the registers' codes (01 R17). -/
theorem queueCode_not_lt (q : Nat) : ¬ 24 + q < 24 := Nat.not_lt.mpr (Nat.le_add_right 24 q)

/-- A register other than s0 reads its stored value (01 R17). -/
theorem Core.sreg_pos (c : Core) {r : Nat} (h : 0 < r) : c.sreg r = c.regs.s.getD r 0 := if_neg (Nat.ne_of_gt h)

/-- The operand codes from 24 on pop a queue (01 R17). -/
theorem State.readS_queue (s : State) (q : Nat) : s.readS (24 + q) = (s.popQ q).map fun r => (r.1.1, r.2) := by
  rw [State.readS, if_neg (queueCode_not_lt q), Nat.add_sub_cancel_left]

/-- A pop takes the head once it has landed (01 R18). -/
theorem State.popQ_held {s : State} {q : Nat} {e : QEntry} {r : List QEntry} {v : Word}
    (hq : s.me.regs.q.getD q [] = e :: r) (hv : e.val = some v) :
    s.popQ q = .ok ((v, e.tag), s.setMe { s.me with regs := { s.me.regs with q := vset s.me.regs.q q r } }) := by
  simp only [State.popQ, hq, hv]

/-- An empty queue and one whose head is still in flight trap alike: an entry in flight counts as absent (01 R18). -/
theorem State.popQ_underflow {s : State} {q : Nat} (h : ∀ e r, s.me.regs.q.getD q [] = e :: r → e.val = none) :
    s.popQ q = .error { cause := .queueUnderflow, tval := BitVec.ofNat 64 (24 + q) } := by
  cases hq : s.me.regs.q.getD q [] with
  | nil => simp only [State.popQ, hq, trapWith]
  | cons e r => simp only [State.popQ, hq, h e r hq, trapWith]

/-- A queue operand supplies the landed head, which leaves its queue; the other queues keep their entries. -/
theorem State.readS_queue_held {s : State} {q : Nat} {e : QEntry} {r : List QEntry} {v : Word} (h8 : q < 8)
    (hq : s.me.regs.q.getD q [] = e :: r) (hv : e.val = some v) :
    ∃ t, s.readS (24 + q) = .ok (v, t) ∧ t.me.regs.q.getD q [] = r ∧
      ∀ p, p ≠ q → t.me.regs.q.getD p [] = s.me.regs.q.getD p [] := by
  refine ⟨s.setMe { s.me with regs := { s.me.regs with q := vset s.me.regs.q q r } }, ?_, ?_, fun p hp => ?_⟩
  · rw [State.readS_queue, State.popQ_held hq hv, Except.map]
  · rw [State.setMe_me, vset_getD_same _ _ _ h8]
  · rw [State.setMe_me, vset_getD_ne _ _ _ hp]

/-- A queue operand without a landed head raises what its pop raises. -/
theorem State.readS_queue_underflow {s : State} {q : Nat} (h : ∀ e r, s.me.regs.q.getD q [] = e :: r → e.val = none) :
    s.readS (24 + q) = .error { cause := .queueUnderflow, tval := BitVec.ofNat 64 (24 + q) } := by
  rw [State.readS_queue, State.popQ_underflow h, Except.map]

/-! ### Results -/

/-- A push into a queue with room reserves its entry at issue (01 R18). -/
theorem State.reserve_room {s : State} {q : Nat} (h : (s.me.regs.q.getD q []).length < 4) :
    s.reserve q = .ok (s.me.regs.nextQ, s.setMe { s.me with regs := { s.me.regs with
      q := vset s.me.regs.q q (s.me.regs.q.getD q [] ++ [{ id := s.me.regs.nextQ }]), nextQ := s.me.regs.nextQ + 1 } }) :=
  if_neg (Nat.not_le.mpr h)

/-- The fill count counts the entries in flight too, so a full queue refuses the push at issue (01 R18). -/
theorem State.reserve_full {s : State} {q : Nat} (h : 4 ≤ (s.me.regs.q.getD q []).length) :
    s.reserve q = .error { cause := .queueOverflow, tval := BitVec.ofNat 64 (24 + q) } := if_pos h

/-- A result for a queue's code reserves an entry in the queue, and is pending where that succeeds (01 R18). -/
theorem State.writeS_reserve (s : State) (q l : Nat) (v : Word) :
    s.writeS (24 + q) l v = (s.reserve q).map fun r => r.2.addPend l (.push q r.1 v none) := by
  have h0 : 24 + q ≠ 0 := Nat.ne_of_gt (Nat.add_pos_left (by decide) q)
  rw [State.writeS, if_neg h0, if_neg (queueCode_not_lt q), Nat.add_sub_cancel_left]
  cases s.reserve q <;> rfl

/-- A result for a queue is pending for the entry that its reservation gave. -/
theorem State.writeS_queue {s t : State} {q id : Nat} (l : Nat) (v : Word) (h : s.reserve q = .ok (id, t)) :
    s.writeS (24 + q) l v = .ok (t.addPend l (.push q id v none)) := by
  rw [State.writeS_reserve, h, Except.map]

/-- A result for a queue with room stands last in it, reserved and in flight. -/
theorem State.writeS_queue_room {s : State} {q : Nat} (l : Nat) (v : Word) (h8 : q < 8) (h : (s.me.regs.q.getD q []).length < 4) :
    ∃ t, s.writeS (24 + q) l v = .ok t ∧ t.me.regs.q.getD q [] = s.me.regs.q.getD q [] ++ [{ id := s.me.regs.nextQ }] ∧
      t.me.seq.pend = s.me.seq.pend ++ [⟨s.me.seq.rn + l - 1, s.latch.slot, .push q s.me.regs.nextQ v none⟩] := by
  refine ⟨_, State.writeS_queue l v (State.reserve_room h), ?_, ?_⟩
  · rw [State.addPend_me, State.setMe_me, vset_getD_same _ _ _ h8]
  · rw [State.addPend_me, State.setMe_me, State.setMe_latch]

/-- A result for a full queue raises what its reservation raises. -/
theorem State.writeS_queue_full {s : State} {q : Nat} (l : Nat) (v : Word) (h : 4 ≤ (s.me.regs.q.getD q []).length) :
    s.writeS (24 + q) l v = .error { cause := .queueOverflow, tval := BitVec.ofNat 64 (24 + q) } := by
  rw [State.writeS_reserve, State.reserve_full h, Except.map]

/-- Settles O10: clause by clause the rules of s0, of the other registers and of the queues, first for operands, then for results. -/
theorem scalarOperands : Obligations.ScalarOperands := by
  unfold Obligations.ScalarOperands
  constructor
  · intro s
    refine ⟨State.readS_reg s (by decide), fun r h0 h24 => ?_, fun q h8 => ⟨fun e r v hq hv => ?_, fun h => ?_⟩⟩
    · rw [State.readS_reg s h24, Core.sreg_pos _ h0]
    · exact State.readS_queue_held h8 hq hv
    · exact State.readS_queue_underflow h
  · intro s l v
    refine ⟨State.writeS_zero s l v, fun r h0 h24 => ?_, fun q h8 => ⟨fun h => ?_, fun h => ?_⟩⟩
    · exact State.writeS_reg s l v (Nat.ne_of_gt h0) h24
    · exact State.writeS_queue_room l v h8 h
    · exact State.writeS_queue_full l v h

end Sys2Proof.Machine
end

section
/-! Scalar operations, compares and predicate operations (03 R60 to R66, R78): the model's arithmetic is the table's, and each of these
instructions reads its operands and gives its form's value. -/

namespace Sys2Proof.Spec

open Sys2Proof.Machine

/-! ### The arithmetic of the table -/

/-- The high word of a 128-bit number is its quotient by 2^64, negative numbers in two's complement. -/
theorem highWord_ofInt (z : Int) : ((BitVec.ofInt 128 z) >>> 64).setWidth 64 = BitVec.ofInt 64 (z / 2 ^ 64) := by
  apply BitVec.eq_of_toNat_eq
  simp only [BitVec.toNat_setWidth, BitVec.toNat_ushiftRight, BitVec.toNat_ofInt, Nat.shiftRight_eq_div_pow]
  omega

/-- MULH (03 R60): sign extension takes the product to 128 bits, of which the high word is taken. -/
theorem mulHigh_eq (x y : Word) : mulHigh x y = BitVec.ofInt 64 (x.toInt * y.toInt / 2 ^ 64) := by
  rw [mulHigh, BitVec.signExtend, BitVec.signExtend, ← BitVec.ofInt_mul, highWord_ofInt]

/-- MULHU (03 R60): the product of two words fits 128 bits. -/
theorem mulHighU_eq (x y : Word) : mulHighU x y = BitVec.ofNat 64 (x.toNat * y.toNat / 2 ^ 64) := by
  have hlt : x.toNat * y.toNat < 2 ^ 128 := Nat.lt_of_lt_of_eq (Nat.mul_lt_mul'' x.isLt y.isLt) (Nat.pow_add 2 64 64).symm
  apply BitVec.eq_of_toNat_eq
  rw [mulHighU, BitVec.toNat_setWidth, BitVec.toNat_ushiftRight, BitVec.toNat_mul, BitVec.toNat_setWidth_of_le (by decide),
    BitVec.toNat_setWidth_of_le (by decide), Nat.mod_eq_of_lt hlt, Nat.shiftRight_eq_div_pow, BitVec.toNat_ofNat]

/-- SAR and SARI (03 R60): an arithmetic shift rounds the quotient towards minus infinity. -/
theorem sshiftRight_eq_ediv (x : Word) (n : Nat) : x.sshiftRight n = BitVec.ofInt 64 (x.toInt / 2 ^ n) := by
  rw [BitVec.sshiftRight, Int.shiftRight_eq_div_pow]; norm_cast

/-- ROTL (03 R60): the model takes the amount modulo 64 once more. -/
theorem rotl64_sh6 (x y : Word) : rotl64 x (sh6 y) = x.rotateLeft (y.toNat % 64) := by
  rw [rotl64, sh6, Nat.mod_mod]

/-- MIN (03 R60). -/
theorem ite_toInt_le_min (x y : Word) : (if x.toInt ≤ y.toInt then x else y) = BitVec.ofInt 64 (min x.toInt y.toInt) := by
  rw [Int.min_def, apply_ite (BitVec.ofInt 64), BitVec.ofInt_toInt, BitVec.ofInt_toInt]

/-- MAX (03 R60). -/
theorem ite_toInt_le_max (x y : Word) : (if x.toInt ≤ y.toInt then y else x) = BitVec.ofInt 64 (max x.toInt y.toInt) := by
  rw [Int.max_def, apply_ite (BitVec.ofInt 64), BitVec.ofInt_toInt, BitVec.ofInt_toInt]

/-- MINU (03 R60). -/
theorem ite_toNat_le_min (x y : Word) : (if x.toNat ≤ y.toNat then x else y) = BitVec.ofNat 64 (min x.toNat y.toNat) := by
  rw [Nat.min_def, apply_ite (BitVec.ofNat 64), BitVec.ofNat_toNat, BitVec.ofNat_toNat, BitVec.setWidth_eq, BitVec.setWidth_eq]

/-- MAXU (03 R60). -/
theorem ite_toNat_le_max (x y : Word) : (if x.toNat ≤ y.toNat then y else x) = BitVec.ofNat 64 (max x.toNat y.toNat) := by
  rw [Nat.max_def, apply_ite (BitVec.ofNat 64), BitVec.ofNat_toNat, BitVec.ofNat_toNat, BitVec.setWidth_eq, BitVec.setWidth_eq]

/-! ### Effects that read operands and then give a result (03 R59) -/

/-- One operand is one read. -/
theorem readAll_one (u : State) (a : Nat) : u.readAll [a] = (u.readS a).bind fun r => .ok ([r.1], r.2) := by
  rw [State.readAll]; rfl

/-- Two operands are two reads, the second in the state that the first leaves. -/
theorem readAll_two (u : State) (a b : Nat) :
    u.readAll [a, b] = (u.readS a).bind fun r => (r.2.readS b).bind fun q => .ok ([r.1, q.1], q.2) := by
  rw [State.readAll]
  cases u.readS a with
  | error e => rfl
  | ok r =>
    change (r.2.readAll [b]).bind _ = (r.2.readS b).bind _
    rw [readAll_one]
    cases r.2.readS b <;> rfl

/-- An effect that reads one operand and goes on from its value. -/
theorem readS_bind {α : Type} (u : State) (a : Nat) (k : Word → State → Except Trap α) :
    (u.readS a).bind (fun r => k r.1 r.2) = (u.readAll [a]).bind fun r => k (r.1.getD 0 0) r.2 := by
  rw [readAll_one]
  cases u.readS a <;> rfl

/-- An effect that reads two operands and goes on from their values. -/
theorem readS_bind_readS {α : Type} (u : State) (a b : Nat) (k : Word → Word → State → Except Trap α) :
    ((u.readS a).bind fun r => (r.2.readS b).bind fun q => k r.1 q.1 q.2) =
      (u.readAll [a, b]).bind fun r => k (r.1.getD 0 0) (r.1.getD 1 0) r.2 := by
  rw [readAll_two]
  cases u.readS a with
  | error e => rfl
  | ok r =>
    change (r.2.readS b).bind _ = ((r.2.readS b).bind _).bind _
    cases r.2.readS b <;> rfl

/-! ### Instructions without conditions -/

/-- The start of a lone bundle that neither ends the entry region nor uses handles leaves the core as it is. -/
theorem opened_me (s : State) (g : Guard) : (s.opened g false false []).me = s.me := by rw [State.opened_plain]; rfl

/-- In state s the instruction i is a slot instruction under guard g with nothing but an effect, which is e once its bundle has begun. -/
def HasEffect (i : Instr) (g : Guard) (s : State) (e : State → Except Trap State) : Prop :=
  ∃ body : Body, exec i s = runSlot g { body := body } s ∧ body (s.opened g false false []) = e (s.opened g false false [])

/-- An instruction with nothing but an effect issues when the effect takes place and keeps the latch. -/
theorem HasEffect.issues {i : Instr} {g : Guard} {s t : State} {e : State → Except Trap State} (h : HasEffect i g s e) (hs : s.ready g)
    (he : e (s.opened g false false []) = .ok t) (ht : t.latch = (s.opened g false false []).latch) : exec i s = .next t.commit := by
  obtain ⟨body, hi, hb⟩ := h
  rw [hi]
  exact runSlot_plain hs (hb.trans he) ht

/-- What a scalar form does from state u on, its value taken in state s (03 R60): the operands are read, the result goes to the
destination. -/
def ScalarForm.effect (f : ScalarForm) (s u : State) : Except Trap State :=
  (u.readAll f.srcs).bind fun r => r.2.writeS f.d f.l (f.value s r.1)

/-- What a predicate form does from state u on, its value taken in state s (03 R64, R65). -/
def PredForm.effect (f : PredForm) (s u : State) : Except Trap State :=
  (u.readAll f.srcs).bind fun r => .ok (r.2.writeP f.d 1 (f.value s r.1))

section
variable {i : Instr} {g : Guard} {s : State}

/-- A two-operand operation has the effect of its form, for any function v that the model's function f agrees with. -/
theorem hasEffect_alu2 {d a b : BitVec 5} {l : Nat} {f v : Word → Word → Word} (h : exec i s = runSlot g (alu2 d a b l f) s)
    (hf : ∀ x y, f x y = v x y) : HasEffect i g s (ScalarForm.effect ⟨g, [a.toNat, b.toNat], d.toNat, l, bin v⟩ s) := by
  obtain rfl : f = v := funext fun x => funext (hf x)
  exact ⟨_, h, readS_bind_readS _ a.toNat b.toNat fun x y t => t.writeS d.toNat l (f x y)⟩

/-- A one-operand operation has the effect of its form, likewise. -/
theorem hasEffect_alu1 {d a : BitVec 5} {f v : Word → Word} (h : exec i s = runSlot g (alu1 d a f) s)
    (hf : ∀ x, f x = v x) : HasEffect i g s (ScalarForm.effect ⟨g, [a.toNat], d.toNat, 1, un v⟩ s) := by
  obtain rfl : f = v := funext hf
  exact ⟨_, h, readS_bind _ a.toNat fun x t => t.writeS d.toNat 1 (f x)⟩

/-- An operation without operands has the effect of its form, its value taken before its bundle has begun or after. -/
theorem hasEffect_write {d l : Nat} {v : State → Word} {w : State → List Word → Word}
    (h : exec i s = runSlot g { body := fun u => u.writeS d l (v u) } s) (hv : v (s.opened g false false []) = w s []) :
    HasEffect i g s (ScalarForm.effect ⟨g, [], d, l, w⟩ s) :=
  ⟨_, h, congrArg ((s.opened g false false []).writeS d l) hv⟩

/-- CMP.cond has the effect of its form. -/
theorem hasEffect_cmp2 {d : BitVec 3} {a b : BitVec 5} {f : Word → Word → Bool} (h : exec i s = runSlot g (cmp2 d a b f) s) :
    HasEffect i g s ((cmpForm g d a b f).effect s) :=
  ⟨_, h, readS_bind_readS _ a.toNat b.toNat fun x y t => .ok (t.writeP d.toNat 1 (f x y))⟩

/-- CMPI.cond has the effect of its form. -/
theorem hasEffect_cmpi {d : BitVec 3} {a : BitVec 5} {c : BitVec 11} {f : Word → Word → Bool}
    (h : exec i s = runSlot g (cmpi d a c f) s) : HasEffect i g s ((cmpiForm g d a c f).effect s) :=
  ⟨_, h, readS_bind _ a.toNat fun x t => .ok (t.writeP d.toNat 1 (f x (imm11 c)))⟩

/-- An operation on predicates has the effect of its form. -/
theorem hasEffect_pred2 {d : BitVec 3} {v : Core → Bool} {w : State → List Word → Bool} (h : exec i s = runSlot g (pred2 d v) s)
    (hv : v s.me = w s []) : HasEffect i g s (PredForm.effect ⟨g, [], d.toNat, w⟩ s) := by
  have ho : v (s.opened g false false []).me = w s [] := (congrArg v (opened_me s g)).trans hv
  exact ⟨_, h, congrArg (fun b => Except.ok ((s.opened g false false []).writeP d.toNat 1 b)) ho⟩

end

/-! ### The instructions of the two tables -/

/-- An instruction of the scalar table has the effect of its form (03 R60 to R63, R65, R66, R78). -/
theorem hasEffect_scalarForm {i : Instr} {f : ScalarForm} (h : scalarForm i = some f) (s : State) : HasEffect i f.g s (f.effect s) := by
  cases i with
  | add | sub | mul | div | divU | rem | remU | and | or | xor | shl | shr => cases h; exact hasEffect_alu2 rfl fun _ _ => rfl
  | mulh => cases h; exact hasEffect_alu2 rfl mulHigh_eq
  | mulhu => cases h; exact hasEffect_alu2 rfl mulHighU_eq
  | sar => cases h; exact hasEffect_alu2 rfl fun x y => sshiftRight_eq_ediv x (sh6 y)
  | rotl => cases h; exact hasEffect_alu2 rfl rotl64_sh6
  | min => cases h; exact hasEffect_alu2 rfl ite_toInt_le_min
  | max => cases h; exact hasEffect_alu2 rfl ite_toInt_le_max
  | minu => cases h; exact hasEffect_alu2 rfl ite_toNat_le_min
  | maxu => cases h; exact hasEffect_alu2 rfl ite_toNat_le_max
  | clz | popc => cases h; exact hasEffect_alu1 rfl fun _ => rfl
  | addi | andi | ori | xori | shli | shri => cases h; exact hasEffect_alu1 rfl fun _ => rfl
  | sari g d a n => cases h; exact hasEffect_alu1 rfl fun x => sshiftRight_eq_ediv x n.toNat
  | sel g d a b k =>
    cases h
    refine ⟨_, rfl, (readS_bind_readS _ a.toNat b.toNat fun x y t =>
      t.writeS d.toNat 1 (if (s.opened g false false []).me.pred k.toNat then x else y)).trans ?_⟩
    rw [opened_me]; rfl
  | movi => cases h; exact hasEffect_write rfl rfl
  | movhi | pmovSp => cases h; exact hasEffect_write rfl (by rw [opened_me])
  | qcnt => cases h; exact hasEffect_write rfl (by rw [opened_me, queueNo])
  | cyc => cases h; exact hasEffect_write rfl rfl
  | _ => cases h

/-- A compare or predicate operation has the effect of its form (03 R64, R65). -/
theorem hasEffect_predForm {i : Instr} {f : PredForm} (h : predForm i = some f) (s : State) : HasEffect i f.g s (f.effect s) := by
  cases i with
  | cmpEq | cmpNe | cmpLt | cmpLtu | cmpGe | cmpGeu => cases h; exact hasEffect_cmp2 rfl
  | cmpiEq | cmpiNe | cmpiLt | cmpiLtu | cmpiGe | cmpiGeu => cases h; exact hasEffect_cmpi rfl
  | pand | por | pxor | pnot | pmovPp => cases h; exact hasEffect_pred2 rfl rfl
  | pmovPs g d a =>
    cases h
    exact ⟨_, rfl, readS_bind _ a.toNat fun x t => .ok (t.writeP d.toNat 1 (decide (x ≠ 0)))⟩
  | _ => cases h

/-- Settles O1: the instruction has its form's effect, which takes place since the operands can be read and the destination has room. -/
theorem scalarResult : Obligations.ScalarResult := by
  unfold Obligations.ScalarResult
  intro i f s s' t xs hf hs hr hw
  have he : f.effect s (s.opened f.g false false []) = .ok t := by rw [ScalarForm.effect, hr]; exact hw
  exact (hasEffect_scalarForm hf s).issues hs he ((State.writeS_latch hw).trans (State.readAll_latch hr))

/-- Settles O2: the instruction has its form's effect, and a predicate takes its value without fail. -/
theorem predicateResult : Obligations.PredicateResult := by
  unfold Obligations.PredicateResult
  intro i f s s' xs hf hs hr
  have he : f.effect s (s.opened f.g false false []) = .ok (s'.writeP f.d 1 (f.value s xs)) := by
    rw [PredForm.effect, hr]; rfl
  exact (hasEffect_predForm hf s).issues hs he ((State.addPend_latch ..).trans (State.readAll_latch hr))

end Sys2Proof.Spec
end

section
/-! Vector operands and results (04 R84 to R88, 06 R128, 07 R131, R132): the elements in use, the checks that precede an effect, the second
source of an element instruction, and what the results that an instruction leaves pending keep of the state. -/

namespace Sys2Proof.Machine

/-! ### Lists over the elements in use (04 R85, R88) -/

/-- The elements in use with their numbers. -/
theorem zipIdx_map_range {α : Type} (f : Nat → α) (n : Nat) :
    ((List.range n).map f).zipIdx = (List.range n).map fun e => (f e, e) := by
  refine List.ext_getElem ?_ fun i hi hj => ?_
  · simp only [List.length_zipIdx, List.length_map]
  · simp only [List.getElem_zipIdx, List.getElem_map, List.getElem_range, Nat.zero_add]

/-- A mask keeps the elements whose bit is 1 (04 R88). -/
theorem Core.masked_map_range {α : Type} (c : Core) (k : BitVec 3) (f : Nat → α) (n : Nat) :
    c.masked k ((List.range n).map f) = (List.range n).map fun e => if c.kbit k e then some (f e) else none := by
  rw [Core.masked, zipIdx_map_range, List.map_map]; rfl

/-- Row i and column j of the shape name an element in use. -/
theorem Core.index_lt {c : Core} {i j : Nat} (hi : i < c.rows) (hj : j < c.cols) : i * c.cols + j < c.elems :=
  calc i * c.cols + j < i * c.cols + c.cols := Nat.add_lt_add_left hj _
    _ = (i + 1) * c.cols := (Nat.succ_mul i c.cols).symm
    _ ≤ c.rows * c.cols := Nat.mul_le_mul_right _ hi

/-- Where an element is in use, the shape has a row. -/
theorem Core.rows_pos {c : Core} {e : Nat} (h : e < c.elems) : 0 < c.rows := Nat.pos_of_mul_pos_right (Nat.zero_lt_of_lt h)

/-- Where an element is in use, the shape has a column. -/
theorem Core.cols_pos {c : Core} {e : Nat} (h : e < c.elems) : 0 < c.cols := Nat.pos_of_mul_pos_left (Nat.zero_lt_of_lt h)

/-- The row of an element in use. -/
theorem Core.row_lt {c : Core} {e : Nat} (h : e < c.elems) : e / c.cols < c.rows :=
  Nat.div_lt_of_lt_mul (Nat.mul_comm c.rows c.cols ▸ h)

/-- The column of an element in use. -/
theorem Core.col_lt {c : Core} {e : Nat} (h : e < c.elems) : e % c.cols < c.cols := Nat.mod_lt _ (Core.cols_pos h)

/-- Elements are at least one bit wide (04 R84). -/
theorem Core.ew_pos (c : Core) : 0 < c.ew := Nat.mul_pos (by decide) (Nat.two_pow_pos _)

/-! ### Checks (06 R128, 07 R131) -/

/-- A check that passes, or an operand that is read, hands its value on. -/
theorem ok_bind {α β : Type} (x : α) (f : α → Except Trap β) : (Except.ok x >>= f) = f x := rfl

/-- What follows a choice of two checks follows the check chosen. -/
theorem ite_bind {α β : Type} {c : Prop} [Decidable c] (x y : Except Trap α) (k : α → Except Trap β) :
    (if c then x >>= k else y >>= k) = (if c then x else y) >>= k := (apply_ite (· >>= k) c x y).symm

/-- The shape's width passes, in any state of the same core (07 R131). -/
theorem State.needWidth_ew {u s : State} (h : u.me = s.me) : u.needWidth s.me.ew = .ok () := if_pos (h ▸ rfl)

/-- Unrotated operands pass (06 R128). -/
theorem plainTags_ok {l : List Tag} (h : ∀ t ∈ l, t = {}) : plainTags l = .ok () := by
  have hn : (l.find? fun x => !x.none?) = none := List.find?_eq_none.mpr fun t ht => by rw [h t ht]; decide
  rw [plainTags, hn]

/-- Two members that are one. -/
theorem forall_mem_pair {α : Type} {x y t : α} (hx : x = t) (hy : y = t) : ∀ z ∈ [x, y], z = t :=
  List.forall_mem_cons.mpr ⟨hx, List.forall_mem_singleton.mpr hy⟩

/-- Operands of one tag pass, and the result carries it; without operands it carries none (06 R128). -/
theorem carryTags_ok {l : List Tag} {tag : Tag} (h : ∀ t ∈ l, t = tag) (h0 : l = [] → tag = {}) : carryTags l = .ok tag := by
  cases l with
  | nil => rw [h0 rfl]; rfl
  | cons t r =>
    obtain rfl : t = tag := h t List.mem_cons_self
    have hn : (r.find? fun x => decide (x ≠ t)) = none :=
      List.find?_eq_none.mpr fun x hx hd => of_decide_eq_true hd (h x (List.mem_cons_of_mem _ hx))
    rw [carryTags, hn]

/-! ### Results -/

@[simp] theorem State.occupy_latch (s : State) (n : Nat) : (s.occupy n).latch = s.latch := rfl
@[simp] theorem State.writeVec_latch (s : State) (r : BitVec 4) (l w : Nat) (v : List (Option Nat)) (t : Tag) :
    (s.writeVec r l w v t).latch = s.latch := rfl
@[simp] theorem State.writeK_latch (s : State) (r : BitVec 3) (l : Nat) (v : List (Option Bool)) : (s.writeK r l v).latch = s.latch := rfl
@[simp] theorem State.raise_latch (s : State) (l : Nat) (f : Flags) (np : Option NpInfo) : (s.raise l f np).latch = s.latch := by
  rw [State.raise]; split <;> rfl
@[simp] theorem State.raiseVec_latch (s : State) (l : Nat) (f : List Flags) (n : Nat) : (s.raiseVec l f n).latch = s.latch :=
  s.raise_latch ..

/-- A result pushed into a queue is a scalar result for the queue's code (01 R18, 07 R149). -/
theorem State.pushQ_eq_writeS (s : State) (q : BitVec 3) (l : Nat) (v : Word) : s.pushQ q l v = s.writeS (24 + q.toNat) l v := by
  rw [State.writeS_reserve, State.pushQ]
  cases s.reserve q.toNat <;> rfl

end Sys2Proof.Machine

namespace Sys2Proof.Spec

open Sys2Proof.Machine

/-! ### Elements and tags of registers -/

/-- The elements in use of a register are its elements by number (04 R85). -/
theorem elemsOf_eq_map_velem (s : State) (r : BitVec 4) (w n : Nat) : elemsOf (s.me.vreg r).bits w n = (List.range n).map (velem s r w) := rfl

/-- An element in range of a register. -/
theorem elemsOf_getD_velem (s : State) (r : BitVec 4) (w : Nat) {n i : Nat} (h : i < n) :
    (elemsOf (s.me.vreg r).bits w n).getD i 0 = velem s r w i := by
  simp only [elemsOf_eq_map_velem, List.getD_eq_getElem?_getD, List.getElem?_map, List.getElem?_range h, Option.map_some,
    Option.getD_some]

/-- An element is a number of its width. -/
theorem velem_lt (s : State) (r : BitVec 4) (w e : Nat) : velem s r w e < 2 ^ w := Nat.mod_lt _ (Nat.two_pow_pos w)

/-- Registers that are all of one tag have that tag in their list of tags. -/
theorem forall_mem_map_tag {c : Core} {l : List (BitVec 4)} {t : Tag} (h : ∀ r ∈ l, (c.vreg r).tag = t) :
    ∀ x ∈ l.map fun r => (c.vreg r).tag, x = t := List.forall_mem_map.mpr h

/-- The tag of a destination that a mask keeps in part (06 R128, 07 R133). -/
theorem kept_tags (c : Core) (k : BitVec 3) (v : BitVec 4) :
    (if k ≠ 0 then [(c.vreg v).tag] else []) = (kept k v).map fun r => (c.vreg r).tag := by
  by_cases h : k = 0
  · rw [kept, if_pos h, if_neg (not_not_intro h)]; rfl
  · rw [kept, if_neg h, if_pos h]; rfl

/-! ### The second source of an element instruction (07 R132) -/

/-- The operand codes that a second source reads. -/
def srcCodes : VSrc → List Nat
  | .reg _ => []
  | .scalar x => [x.toNat]

/-- The registers whose tags a second source adds. -/
def srcRegs : VSrc → List (BitVec 4)
  | .reg b => [b]
  | .scalar _ => []

/-- Element e of a second source, from the operands read: of the register, or the scalar's low bits at every position. -/
def srcElem : VSrc → State → List Word → Nat → Nat
  | .reg b, s, _, e => velem s b s.me.ew e
  | .scalar _, s, xs, _ => (xs.getD 0 0).toNat % 2 ^ s.me.ew

/-- What a second source supplies once its operands are read. -/
theorem vsrc_ok {b : VSrc} {s u u' : State} {xs : List Word} (hm : u.me = s.me) (hr : u.readAll (srcCodes b) = .ok (xs, u')) (n : Nat) :
    u.vsrc b s.me.ew n = .ok ((List.range n).map (srcElem b s xs), (srcRegs b).map (fun r => (s.me.vreg r).tag), u') := by
  cases b with
  | reg r =>
    obtain ⟨rfl, rfl⟩ := Prod.mk.inj (Except.ok.inj hr)
    rw [State.vsrc, hm]; rfl
  | scalar x =>
    rw [srcCodes, readAll_one] at hr
    cases hx : u.readS x.toNat with
    | error t => rw [hx] at hr; cases hr
    | ok p =>
      rw [hx] at hr
      obtain ⟨rfl, rfl⟩ := Prod.mk.inj (Except.ok.inj hr)
      have hc : srcElem (.scalar x) s [p.1] = Function.const Nat (p.1.toNat % 2 ^ s.me.ew) := rfl
      rw [State.vsrc, hx, hc, List.map_const, List.length_range]; rfl

/-! ### Integers (07 R130) -/

/-- The integer that w bits stand for, in the model's words and in the statement's. -/
theorem bitsInt_eq_asInt {w : Nat} (sg : Bool) {a : Nat} (hw : 0 < w) (ha : a < 2 ^ w) : bitsInt w sg a = asInt w sg a := by
  cases sg with
  | false => rfl
  | true =>
    have h2 : 2 ^ w = 2 * 2 ^ (w - 1) := by rw [← Nat.pow_succ', Nat.succ_eq_add_one, Nat.sub_add_cancel hw]
    rw [asInt, if_pos rfl, bitsInt, Bool.true_and, BitVec.toInt_eq_toNat_cond, BitVec.toNat_ofNat, Nat.mod_eq_of_lt ha]
    by_cases hc : 2 ^ (w - 1) ≤ a
    · rw [if_pos (decide_eq_true hc), if_neg (by omega)]
    · rw [if_neg fun h => hc (of_decide_eq_true h), if_pos (by omega)]

/-- A signed field of w bits is the integer of the low w bits. -/
theorem bitsInt_mod {w : Nat} (hw : 0 < w) (n : Nat) : bitsInt w true (n % 2 ^ w) = (BitVec.ofNat w n).toInt := by
  have hn : BitVec.ofNat w (n % 2 ^ w) = BitVec.ofNat w n := 
    BitVec.eq_of_toNat_eq (by simp only [BitVec.toNat_ofNat, Nat.mod_mod])
  rw [bitsInt_eq_asInt true hw (Nat.mod_lt _ (Nat.two_pow_pos w)), asInt, if_pos rfl, hn]

/-! ### Instructions without conditions -/

/-- An instruction whose meaning is an effect alone issues when the effect takes place and keeps the latch. -/
theorem exec_of_body {i : Instr} {g : Guard} {b : Body} {s t : State} (hi : exec i s = runSlot g { body := b } s) (hs : s.ready g)
    (hb : b (s.opened g false false []) = .ok t) (ht : t.latch = (s.opened g false false []).latch) : exec i s = .next t.commit :=
  hi.trans (runSlot_plain hs hb ht)

/-- The state in which an effect takes place rounds as the one in which the instruction stands (05 R105, R110). -/
theorem opened_rndFor (s : State) (g : Guard) (sr sat : Bool) : (s.opened g false false []).rndFor sr sat = s.rndFor sr sat := by
  rw [State.opened_plain]; rfl

end Sys2Proof.Spec
end

section
/-! Exact numbers as rationals (05 R99, R100, R115, 07 R137, R138, R140): what a decoded value can be, sums, and the order. -/

namespace Sys2Proof.Machine

open Sys2Proof.Spec

/-! ### Decoded values (05 R99, R100) -/

/-- A code below the special ones stands for a zero or for a finite value with its numerator and denominator positive. -/
theorem realNum_code (z neg : Bool) (c : Nat) {t : Nat} (e1 e2 : Int) (ht : 0 < t) :
    realNum (if c = 0 then .zero z else if c < t then .fin neg c 1 e1 else .fin neg (t + c % t) 1 e2) := by
  split
  · trivial
  · next hc =>
    split
    · exact ⟨Nat.pos_of_ne_zero hc, Nat.one_pos⟩
    · exact ⟨Nat.add_pos_left ht _, Nat.one_pos⟩

/-- A decoded value is a NaN, an infinity or real. -/
theorem FFmt.decode_cases (f : FFmt) (b : Nat) : (f.decode b).isNan = true ∨ (∃ n, f.decode b = .inf n) ∨ realNum (f.decode b) := by
  have ht : 0 < 2 ^ (f.p - 1) := Nat.two_pow_pos _
  unfold FFmt.decode
  dsimp only
  generalize (if f.signed = true then b % 128 else b) = c
  split
  · split
    · split
      · exact .inr (.inl ⟨_, rfl⟩)
      · exact .inl rfl
    · exact .inr (.inr (realNum_code _ _ _ _ _ ht))
  · split
    · exact .inl rfl
    · split
      · exact .inr (.inl ⟨_, rfl⟩)
      · exact .inr (.inr (realNum_code _ _ _ _ _ ht))

/-- A value that a float element may stand for, NaNs apart. -/
def Num.ordered (x : Num) : Prop := (∃ n, x = .inf n) ∨ realNum x

/-- A decoded value that is no NaN has its place in the order. -/
theorem Num.ordered_decode {f : FFmt} {b : Nat} (h : (f.decode b).isNan = false) : (f.decode b).ordered := by
  obtain hn | ho := f.decode_cases b
  · rw [h] at hn; cases hn
  · exact ho

/-- A finite decoded value is real. -/
theorem realNum_of_isFinite {f : FFmt} {b : Nat} (h : isFinite (f.decode b)) : realNum (f.decode b) := by
  obtain ⟨n, hi⟩ | hr := Num.ordered_decode h.1
  · rw [hi] at h; cases h.2
  · exact hr

/-- A real value is finite. -/
theorem isFinite_of_realNum {x : Num} (h : realNum x) : isFinite x := by
  cases x with
  | inf n => exact h.elim
  | nan n fr sg => exact h.elim
  | _ => exact ⟨rfl, rfl⟩

/-! ### The rational that a value is (05 R115) -/

/-- An integer with the given sign and magnitude. -/
def signedInt (n : Bool) (m : Nat) : Int := if n then -(m : Int) else m

/-- A factor of the magnitude is a factor of the integer. -/
theorem signedInt_mul (n : Bool) (m k : Nat) : signedInt n (m * k) = signedInt n m * k := by
  cases n with
  | false => exact Int.natCast_mul m k
  | true => exact (congrArg Neg.neg (Int.natCast_mul m k)).trans (Int.neg_mul ..).symm

/-- An integer has its own sign and magnitude. -/
theorem signedInt_natAbs (s : Int) : signedInt (decide (s < 0)) s.natAbs = s := by
  by_cases h : s < 0
  · rw [decide_eq_true h, signedInt, if_pos rfl]; omega
  · rw [decide_eq_false h, signedInt, if_neg Bool.false_ne_true]; omega

/-- A finite value as a fraction. -/
theorem ratVal_fin (n : Bool) (m d : Nat) (e : Int) : ratVal (.fin n m d e) = mkRat (signedInt n m * (pow2 e : Nat)) (d * pow2 (-e)) := by
  rw [pow2, Int.natCast_pow]; rfl

/-- A power of two is not 0. -/
theorem pow2_pos (e : Int) : 0 < pow2 e := Nat.two_pow_pos _

/-- The denominator of a finite value's fraction is not 0. -/
theorem den_ne_zero {d : Nat} (e : Int) (h : 0 < d) : d * pow2 (-e) ≠ 0 := Nat.ne_of_gt (Nat.mul_pos h (pow2_pos _))

/-- The negative of a value. -/
theorem ratVal_negate (x : Num) : ratVal x.negate = -ratVal x := by
  cases x with
  | fin n m d e =>
    have hs : signedInt (!n) m = -signedInt n m := by
      cases n with
      | false => rfl
      | true => exact (Int.neg_neg _).symm
    rw [Num.negate, ratVal_fin, ratVal_fin, Rat.neg_mkRat, hs, Int.neg_mul]
  | _ => exact Rat.neg_zero.symm

/-- The negative of a real value is real. -/
theorem realNum_negate {x : Num} (h : realNum x) : realNum x.negate := by cases x <;> exact h

/-- A real finite value without a sign is above 0. -/
theorem ratVal_fin_pos {m d : Nat} (e : Int) (hm : 0 < m) (hd : 0 < d) : 0 < ratVal (.fin false m d e) := by
  have hn : 0 < signedInt false m * (pow2 e : Nat) := Int.mul_pos (Int.natCast_pos.mpr hm) (Int.natCast_pos.mpr (pow2_pos e))
  have hp : 0 < d * pow2 (-e) := Nat.mul_pos hd (pow2_pos _)
  rw [ratVal_fin]
  refine Rat.lt_of_le_of_ne ?_ (Ne.symm ((Rat.mkRat_ne_zero (Nat.ne_of_gt hp)).mpr (Int.ne_of_gt hn)))
  rw [← Rat.divInt_ofNat]
  exact (Rat.divInt_nonneg_iff_of_pos_right (Int.natCast_pos.mpr hp)).mpr (Int.le_of_lt hn)

/-- A real finite value with a sign is below 0. -/
theorem ratVal_fin_neg {m d : Nat} (e : Int) (hm : 0 < m) (hd : 0 < d) : ratVal (.fin true m d e) < 0 := by
  have h := Rat.neg_lt_neg (ratVal_fin_pos e hm hd)
  rwa [← ratVal_negate, Rat.neg_zero] at h

/-- A real value is 0 as a rational only when it is a zero. -/
theorem eq_zero_of_ratVal {x : Num} (hx : realNum x) (h : ratVal x = 0) : ∃ n, x = .zero n := by
  cases x with
  | zero n => exact ⟨n, rfl⟩
  | fin n m d e =>
    cases n with
    | false => exact absurd h (Ne.symm (Rat.ne_of_lt (ratVal_fin_pos e hx.1 hx.2)))
    | true => exact absurd h (Rat.ne_of_lt (ratVal_fin_neg e hx.1 hx.2))
  | inf n => exact hx.elim
  | nan n fr sg => exact hx.elim

/-! ### Sums of two values (07 R137) -/

/-- The numerator of the sum of two finite values over their common denominator and exponent. -/
def sumNumerator (n1 : Bool) (m1 d1 : Nat) (e1 : Int) (n2 : Bool) (m2 d2 : Nat) (e2 : Int) : Int :=
  signedInt n1 (m1 * d2 * pow2 (e1 - min e1 e2)) + signedInt n2 (m2 * d1 * pow2 (e2 - min e1 e2))

/-- The model forms the sum of two finite values from that numerator. -/
theorem Num.fin_add_fin (n1 : Bool) (m1 d1 : Nat) (e1 : Int) (n2 : Bool) (m2 d2 : Nat) (e2 : Int) (rdn : Bool) :
    (Num.fin n1 m1 d1 e1).add (.fin n2 m2 d2 e2) rdn = if sumNumerator n1 m1 d1 e1 n2 m2 d2 e2 = 0 then .zero rdn
      else .fin (decide (sumNumerator n1 m1 d1 e1 n2 m2 d2 e2 < 0)) (sumNumerator n1 m1 d1 e1 n2 m2 d2 e2).natAbs (d1 * d2) (min e1 e2) :=
  rfl

/-- A power of two over one of a lower exponent. -/
theorem pow2_split {e l : Int} (h : l ≤ e) : pow2 e * pow2 (-l) = pow2 (e - l) * pow2 l * pow2 (-e) := by
  simp only [pow2, ← Nat.pow_add]
  congr 1
  omega

/-- The sum of two finite values over their common denominator and exponent. -/
theorem ratVal_fin_add (n1 n2 : Bool) (m1 m2 : Nat) {d1 d2 : Nat} (e1 e2 : Int) (h1 : 0 < d1) (h2 : 0 < d2) :
    ratVal (.fin n1 m1 d1 e1) + ratVal (.fin n2 m2 d2 e2) =
      mkRat (sumNumerator n1 m1 d1 e1 n2 m2 d2 e2 * (pow2 (min e1 e2) : Nat)) (d1 * d2 * pow2 (-min e1 e2)) := by
  have hp1 := congrArg (Nat.cast (R := Int)) (pow2_split (Int.min_le_left e1 e2))
  have hp2 := congrArg (Nat.cast (R := Int)) (pow2_split (Int.min_le_right e1 e2))
  have hz1 := den_ne_zero e1 h1
  have hz2 := den_ne_zero e2 h2
  rw [ratVal_fin, ratVal_fin, Rat.mkRat_add_mkRat _ _ hz1 hz2,
    Rat.mkRat_eq_iff (Nat.mul_ne_zero hz1 hz2) (den_ne_zero _ (Nat.mul_pos h1 h2)), sumNumerator]
  simp only [signedInt_mul, Int.natCast_mul] at hp1 hp2 ⊢
  grind

/-- The sum of two real values is real, and exact. -/
theorem Num.add_real {x y : Num} (hx : realNum x) (hy : realNum y) (rdn : Bool) :
    realNum (x.add y rdn) ∧ ratVal (x.add y rdn) = ratVal x + ratVal y := by
  cases x with
  | inf n => exact hx.elim
  | nan n fr sg => exact hx.elim
  | zero p =>
    cases y with
    | inf n => exact hy.elim
    | nan n fr sg => exact hy.elim
    | zero q =>
      rw [Num.add]
      split <;> exact ⟨trivial, (Rat.add_zero 0).symm⟩
    | fin n m d e => exact ⟨hy, (Rat.zero_add _).symm⟩
  | fin n1 m1 d1 e1 =>
    cases y with
    | inf n => exact hy.elim
    | nan n fr sg => exact hy.elim
    | zero q => exact ⟨hx, (Rat.add_zero _).symm⟩
    | fin n2 m2 d2 e2 =>
      rw [ratVal_fin_add n1 n2 m1 m2 e1 e2 hx.2 hy.2, Num.fin_add_fin]
      split
      · next h => rw [h, Int.zero_mul, Rat.zero_mkRat]; exact ⟨trivial, rfl⟩
      · next h => rw [ratVal_fin, signedInt_natAbs]; exact ⟨⟨Int.natAbs_pos.mpr h, Nat.mul_pos hx.2 hy.2⟩, rfl⟩

/-- A zero that two values leave, not both of them zeros, has the mode's sign. -/
theorem Num.sign_of_cancel {a x : Num} {rdn z : Bool} (h : a.add x rdn = .zero z) (hn : (a.isZero && x.isZero) = false) : z = rdn := by
  cases a with
  | zero p =>
    cases x with
    | zero q => cases hn
    | _ => cases h
  | fin n m d e =>
    cases x with
    | fin n2 m2 d2 e2 =>
      rw [Num.fin_add_fin] at h
      split at h <;> cases h
      rfl
    | _ => cases h
  | _ => cases x <;> cases h

/-- An infinity stays under the addition of what is no opposite infinity. -/
theorem Num.inf_add {n : Bool} {x : Num} (rdn : Bool) (h : x = .inf n ∨ realNum x) : (Num.inf n).add x rdn = .inf n := by
  cases x with
  | nan n fr sg => obtain h | h := h <;> cases h
  | _ => rfl

/-- A real value is lost in an infinity added. -/
theorem Num.add_inf {a : Num} (n rdn : Bool) (h : realNum a) : a.add (.inf n) rdn = .inf n := by
  cases a with
  | inf m => exact h.elim
  | _ => rfl

/-! ### Order (05 R115, 07 R138, R140) -/

/-- The order of real values is that of their rationals. -/
theorem lessVal_real {x y : Num} (hx : realNum x) (hy : realNum y) : lessVal x y ↔ ratVal x < ratVal y := by
  cases x with
  | inf n => exact hx.elim
  | nan n fr sg => exact hx.elim
  | _ =>
    cases y with
    | inf n => exact hy.elim
    | _ => exact Iff.rfl

/-- Where a value stands: below the rationals, among them or above. -/
def side : Num → Int
  | .inf true => -1
  | .inf false => 1
  | _ => 0

/-- Real values stand among the rationals. -/
theorem side_real {x : Num} (h : realNum x) : side x = 0 := by
  cases x with
  | inf n => exact h.elim
  | _ => rfl

/-- An infinity does not stand among the rationals. -/
theorem side_inf_ne (a : Bool) : side (.inf a) ≠ 0 := by cases a <;> decide

/-- The order of two values goes by where they stand, then by their rationals. -/
theorem lessVal_iff {x y : Num} (hx : x.ordered) (hy : y.ordered) :
    lessVal x y ↔ side x < side y ∨ (side x = side y ∧ ratVal x < ratVal y) := by
  obtain ⟨a, rfl⟩ | hx := hx
  · obtain ⟨b, rfl⟩ | hy := hy
    · have hl : lessVal (.inf a) (.inf b) ↔ a = true ∧ b = false := Iff.rfl
      have hr : ¬ ratVal (.inf a) < ratVal (.inf b) := Rat.lt_irrefl
      rw [hl, or_iff_left fun h => hr h.2]
      cases a <;> cases b <;> decide
    · have hl : lessVal (.inf a) y ↔ a = true := by
        cases y with
        | inf b => exact hy.elim
        | _ => exact Iff.rfl
      rw [hl, side_real hy, or_iff_left fun h => side_inf_ne a h.1]
      cases a <;> decide
  · obtain ⟨b, rfl⟩ | hy := hy
    · have hl : lessVal x (.inf b) ↔ b = false := by
        cases x with
        | inf a => exact hx.elim
        | _ => exact Iff.rfl
      rw [hl, side_real hx, or_iff_left fun h => side_inf_ne b h.1.symm]
      cases b <;> decide
    · rw [lessVal_real hx hy, side_real hx, side_real hy]
      simp only [Int.lt_irrefl, false_or, true_and]

/-- Comparing real values is asking for the sign of their difference. -/
theorem Num.cmp_real_eq {x y : Num} (hx : realNum x) (hy : realNum y) :
    x.cmp y = match x.add y.negate false with
      | .zero _ => .eq
      | r => if r.neg? then .lt else .gt := by
  cases x with
  | inf n => exact hx.elim
  | nan n fr sg => exact hx.elim
  | zero p =>
    cases y with
    | inf n => exact hy.elim
    | nan n fr sg => exact hy.elim
    | zero q => cases p <;> cases q <;> rfl
    | fin n m d e => rfl
  | fin n m d e =>
    cases y with
    | inf n => exact hy.elim
    | nan n fr sg => exact hy.elim
    | _ => rfl

/-- The sign of their difference says how two real values compare. -/
theorem Num.cmp_real {x y : Num} (hx : realNum x) (hy : realNum y) :
    (x.cmp y = .lt ∧ ratVal x < ratVal y) ∨ (x.cmp y = .eq ∧ ratVal x = ratVal y) ∨ (x.cmp y = .gt ∧ ratVal y < ratVal x) := by
  obtain ⟨hr, hv⟩ := Num.add_real hx (realNum_negate hy) false
  rw [ratVal_negate, ← Rat.sub_eq_add_neg] at hv
  rw [Num.cmp_real_eq hx hy]
  cases hd : x.add y.negate false with
  | zero n =>
    rw [hd] at hv
    have h0 : ratVal x - ratVal y + ratVal y = ratVal y := by rw [← hv]; exact Rat.zero_add _
    exact .inr (.inl ⟨rfl, Rat.sub_add_cancel.symm.trans h0⟩)
  | fin n m d e =>
    rw [hd] at hv hr
    cases n with
    | false => exact .inr (.inr ⟨rfl, (Rat.lt_iff_sub_pos ..).mpr (hv ▸ ratVal_fin_pos e hr.1 hr.2)⟩)
    | true =>
      have hn := ratVal_fin_neg e hr.1 hr.2
      rw [hv, Rat.sub_lt_iff, Rat.zero_add] at hn
      exact .inl ⟨rfl, hn⟩
  | inf n => rw [hd] at hr; exact hr.elim
  | nan n f sg => rw [hd] at hr; exact hr.elim

/-- An infinity against a real value. -/
theorem Num.inf_cmp_real (a : Bool) {y : Num} (h : realNum y) : (Num.inf a).cmp y = if a then .lt else .gt := by
  cases y with
  | inf n => exact h.elim
  | _ => rfl

/-- A real value against an infinity. -/
theorem Num.real_cmp_inf {x : Num} (h : realNum x) (b : Bool) : x.cmp (.inf b) = if b then .gt else .lt := by
  cases x with
  | inf n => exact h.elim
  | _ => rfl

/-- The comparison of values that are no NaN goes by where they stand, then by their rationals. -/
theorem Num.cmp_place {x y : Num} (hx : x.ordered) (hy : y.ordered) :
    (x.cmp y = .lt ∧ (side x < side y ∨ (side x = side y ∧ ratVal x < ratVal y))) ∨
    (x.cmp y = .eq ∧ side x = side y ∧ ratVal x = ratVal y) ∨
    (x.cmp y = .gt ∧ (side y < side x ∨ (side y = side x ∧ ratVal y < ratVal x))) := by
  obtain ⟨a, rfl⟩ | hx := hx
  · obtain ⟨b, rfl⟩ | hy := hy
    · cases a <;> cases b
      · exact .inr (.inl ⟨rfl, rfl, rfl⟩)
      · exact .inr (.inr ⟨rfl, .inl (by decide)⟩)
      · exact .inl ⟨rfl, .inl (by decide)⟩
      · exact .inr (.inl ⟨rfl, rfl, rfl⟩)
    · rw [Num.inf_cmp_real a hy, side_real hy]
      cases a with
      | false => exact .inr (.inr ⟨rfl, .inl (by decide)⟩)
      | true => exact .inl ⟨rfl, .inl (by decide)⟩
  · obtain ⟨b, rfl⟩ | hy := hy
    · rw [Num.real_cmp_inf hx b, side_real hx]
      cases b with
      | false => exact .inl ⟨rfl, .inl (by decide)⟩
      | true => exact .inr (.inr ⟨rfl, .inl (by decide)⟩)
    · rw [side_real hx, side_real hy]
      simpa only [Int.lt_irrefl, false_or, true_and] using Num.cmp_real hx hy

/-- The comparison says which of two values is less. -/
theorem Num.cmp_eq_lt_iff {x y : Num} (hx : x.ordered) (hy : y.ordered) : x.cmp y = .lt ↔ lessVal x y := by
  rw [lessVal_iff hx hy]
  obtain ⟨hc, h⟩ | ⟨hc, hs, hr⟩ | ⟨hc, h⟩ := Num.cmp_place hx hy
  · exact ⟨fun _ => h, fun _ => hc⟩
  · rw [hc, hs, hr]
    simp only [reduceCtorEq, Int.lt_irrefl, Rat.lt_irrefl, and_false, or_self]
  · rw [hc]
    refine ⟨fun hl => (nomatch hl), fun h' => ?_⟩
    grind

/-- Values are equal where neither is less. -/
theorem Num.cmp_eq_eq_iff {x y : Num} (hx : x.ordered) (hy : y.ordered) : x.cmp y = .eq ↔ ¬ lessVal x y ∧ ¬ lessVal y x := by
  rw [lessVal_iff hx hy, lessVal_iff hy hx]
  obtain ⟨hc, h⟩ | ⟨hc, hs, hr⟩ | ⟨hc, h⟩ := Num.cmp_place hx hy
  · rw [hc]; exact ⟨fun he => (nomatch he), fun hn => absurd h hn.1⟩
  · rw [hc, hs, hr]
    simp only [Int.lt_irrefl, Rat.lt_irrefl, and_false, or_self, not_false_eq_true, and_self]
  · rw [hc]; exact ⟨fun he => (nomatch he), fun hn => absurd h hn.2⟩

/-- The rank of a zero among the zeros: +0 above -0. -/
def zeroRank (x : Num) : Nat := if x = .zero false then 1 else 0

/-- The order with -0 below +0 goes by where the values stand, then by their rationals, then by the rank of a zero. -/
theorem belowVal_iff {x y : Num} (hx : x.ordered) (hy : y.ordered) : belowVal x y ↔
    side x < side y ∨ (side x = side y ∧ (ratVal x < ratVal y ∨ (ratVal x = ratVal y ∧ zeroRank x < zeroRank y))) := by
  have hz : (x = .zero true ∧ y = .zero false) ↔ side x = side y ∧ ratVal x = ratVal y ∧ zeroRank x < zeroRank y := by
    constructor
    · rintro ⟨rfl, rfl⟩
      exact ⟨rfl, rfl, by decide⟩
    · rintro ⟨hs, hr, hb⟩
      have hy0 : y = .zero false := Decidable.byContradiction fun hne => by
        rw [zeroRank, zeroRank, if_neg hne] at hb; exact Nat.not_lt_zero _ hb
      subst hy0
      obtain ⟨n, rfl⟩ | hx := hx
      · cases n <;> cases hs
      · obtain ⟨n, rfl⟩ := eq_zero_of_ratVal hx hr
        cases n with
        | false => exact absurd hb (Nat.lt_irrefl _)
        | true => exact ⟨rfl, rfl⟩
  rw [belowVal, lessVal_iff hx hy, hz]
  simp only [and_or_left, or_assoc]

/-- A value that stands below another stands below, or above, any third. -/
theorem belowVal_or {x y z : Num} (hx : x.ordered) (hy : y.ordered) (hz : z.ordered) (h : belowVal x z) : belowVal x y ∨ belowVal y z := by
  rw [belowVal_iff hx hz] at h
  rw [belowVal_iff hx hy, belowVal_iff hy hz]
  grind

/-- No two values stand below each other. -/
theorem belowVal_asymm {x y : Num} (hx : x.ordered) (hy : y.ordered) (h : belowVal x y) : ¬ belowVal y x := by
  rw [belowVal_iff hx hy] at h
  rw [belowVal_iff hy hx]
  grind

/-- The model's order with -0 below +0 is the statement's. -/
theorem Num.ltz_iff {x y : Num} (hx : x.ordered) (hy : y.ordered) : x.ltz y = true ↔ belowVal x y := by
  have hc := Num.cmp_eq_lt_iff hx hy
  unfold Num.ltz
  split
  · next p q =>
    have hl : ¬ lessVal (.zero p) (.zero q) := Rat.lt_irrefl
    rw [belowVal, or_iff_right hl]
    cases p <;> cases q <;> decide
  · next hz =>
    have hn : ¬ (x = .zero true ∧ y = .zero false) := fun ⟨h1, h2⟩ => hz _ _ h1 h2
    rw [decide_eq_true_eq, hc, belowVal, or_iff_left hn]

end Sys2Proof.Machine
end

section
/-! Reductions (07 R145): the element that a comparison picks, the exact sum of a list, and the issue. -/

namespace Sys2Proof.Machine

open Sys2Proof.Spec

/-! ### Picking one element of a list -/

/-- A relation that orders the elements that p admits. -/
structure Ranks {α : Type} (p : α → Prop) (le : α → α → Prop) : Prop where
  refl : ∀ x, p x → le x x
  trans : ∀ x y z, p x → p y → p z → le x y → le y z → le x z

/-- A fold that keeps the element in hand or takes the next, whichever ranks higher, ends with an element that no other outranks. -/
theorem foldl_pick {α : Type} {p : α → Prop} {le : α → α → Prop} (hle : Ranks p le) (take : α → α → Prop)
    [∀ m x, Decidable (take m x)] (h : ∀ m x, p m → p x → if take m x then le m x else le x m) (l : List α) (a : α) (hp : ∀ x ∈ a :: l, p x) :
    (l.foldl (fun m x => if take m x then x else m) a) ∈ a :: l ∧ ∀ b ∈ a :: l, le b (l.foldl (fun m x => if take m x then x else m) a) := by
  induction l generalizing a with
  | nil => exact ⟨List.mem_cons_self, fun b hb => List.mem_singleton.mp hb ▸ hle.refl a (hp a List.mem_cons_self)⟩
  | cons y l ih =>
    have ha := hp a List.mem_cons_self
    have hy := hp y (List.mem_cons_of_mem _ List.mem_cons_self)
    have hl : ∀ x ∈ l, p x := fun x hx => hp x (List.mem_cons_of_mem _ (List.mem_cons_of_mem _ hx))
    have hc : ∃ c, (if take a y then y else a) = c ∧ (c = a ∨ c = y) ∧ p c ∧ le a c ∧ le y c := by
      have ht := h a y ha hy
      by_cases hty : take a y
      · rw [if_pos hty] at ht
        exact ⟨y, if_pos hty, .inr rfl, hy, ht, hle.refl y hy⟩
      · rw [if_neg hty] at ht
        exact ⟨a, if_neg hty, .inl rfl, ha, hle.refl a ha, ht⟩
    obtain ⟨c, hce, hcm, hpc, hac, hyc⟩ := hc
    have hpl : ∀ x ∈ c :: l, p x := List.forall_mem_cons.mpr ⟨hpc, hl⟩
    obtain ⟨hin, hup⟩ := ih c hpl
    have htop := hup c List.mem_cons_self
    rw [List.foldl_cons, hce]
    refine ⟨?_, fun b hb => ?_⟩
    · obtain h1 | h1 := List.mem_cons.mp hin
      · rw [h1]
        obtain rfl | rfl := hcm
        · exact List.mem_cons_self
        · exact List.mem_cons_of_mem _ List.mem_cons_self
      · exact List.mem_cons_of_mem _ (List.mem_cons_of_mem _ h1)
    · have hpr := hpl _ hin
      obtain rfl | hb := List.mem_cons.mp hb
      · exact hle.trans _ _ _ ha hpc hpr hac htop
      · obtain rfl | hb := List.mem_cons.mp hb
        · exact hle.trans _ _ _ hy hpc hpr hyc htop
        · exact hup b (List.mem_cons_of_mem _ hb)

/-- The same for the fold that a reduction does over a list that is not empty. -/
theorem exists_foldl_pick {p : Nat → Prop} {le : Nat → Nat → Prop} (hle : Ranks p le) (take : Nat → Nat → Prop)
    [∀ m x, Decidable (take m x)] (h : ∀ m x, p m → p x → if take m x then le m x else le x m) {l : List Nat} (hl : l ≠ [])
    (hp : ∀ x ∈ l, p x) :
    ∃ a ∈ l, l.tail.foldl (fun m x => if take m x then x else m) (l.headD 0) = a ∧ ∀ b ∈ l, le b a := by
  cases l with
  | nil => exact absurd rfl hl
  | cons a l => obtain ⟨hin, hup⟩ := foldl_pick hle take h l a hp; exact ⟨_, hin, rfl, hup⟩

/-! ### Reductions of integers -/

section
variable {w : Nat} {sg : Bool}

/-- An exact integer, clamped where the instruction saturates, as the statement gives it (07 R136, R145). -/
theorem clamp_eq_intResult (w : Nat) (sg sat : Bool) (x : Int) :
    (intBits w (if sat then clampInt x (intLo w sg) (intHi w sg) else x),
      if (if sat then clampInt x (intLo w sg) (intHi w sg) else x) = x then (0 : Flags) else Fl.sat) = intResult w sg sat x := by
  have hlo : intLo w sg = tyMin w sg := by rw [intLo, tyMin, Int.natCast_pow]; rfl
  have hhi : intHi w sg = tyMax w sg := by rw [intHi, tyMax, Int.natCast_pow, Int.natCast_pow]; rfl
  have hb : ∀ y, intBits w y = lowBits w y := fun y => (BitVec.toNat_ofInt ..).symm
  rw [hlo, hhi, hb, intResult]
  cases sat with
  | false => simp only [Bool.false_eq_true, if_false, false_and, if_true]
  | true =>
    simp only [if_true, true_and, clampInt]
    split
    · next h => rw [if_neg (Int.ne_of_gt h)]
    · split
      · next h => rw [if_neg (Int.ne_of_lt h)]
      · rw [if_pos rfl]

/-- SUM of integers is their exact sum as a result of their type. -/
theorem vred_int_sum (hw : 0 < w) (sat : Bool) (r : Rnd) {l : List Nat} (hr : ∀ a ∈ l, a < 2 ^ w) :
    VRed.elem .sum (.int w sg) sat r l = intResult w sg sat ((l.map (asInt w sg)).sum) := by
  have hs : (l.map (bitsInt w sg)).foldl (· + ·) 0 = (l.map (asInt w sg)).sum := by
    rw [← List.sum_eq_foldl]
    exact congrArg _ (List.map_congr_left fun a ha => bitsInt_eq_asInt sg hw (hr a ha))
  rw [← clamp_eq_intResult, ← hs]; rfl

/-- MAX of integers is an element that no other exceeds. -/
theorem vred_int_max (hw : 0 < w) (sat : Bool) (r : Rnd) {l : List Nat} (hl : l ≠ []) (hr : ∀ a ∈ l, a < 2 ^ w) :
    ∃ a ∈ l, VRed.elem .max (.int w sg) sat r l = (a, 0) ∧ ∀ b ∈ l, asInt w sg b ≤ asInt w sg a := by
  have hle : Ranks (· < 2 ^ w) fun m x => asInt w sg m ≤ asInt w sg x := ⟨fun _ _ => Int.le_refl _, fun _ _ _ _ _ _ => Int.le_trans⟩
  obtain ⟨a, ha, he, hup⟩ := exists_foldl_pick hle
    (fun m x => decide (bitsInt w sg m < bitsInt w sg x) = decide (VRed.max = .max)) (fun m x hm hx => by
      rw [bitsInt_eq_asInt sg hw hm, bitsInt_eq_asInt sg hw hx]
      split
      · next h => exact Int.le_of_lt (of_decide_eq_true h)
      · next h => exact Int.not_lt.mp fun hlt => h (decide_eq_true hlt)) hl hr
  exact ⟨a, ha, Prod.ext he rfl, hup⟩

/-- MIN of integers is an element that exceeds no other. -/
theorem vred_int_min (hw : 0 < w) (sat : Bool) (r : Rnd) {l : List Nat} (hl : l ≠ []) (hr : ∀ a ∈ l, a < 2 ^ w) :
    ∃ a ∈ l, VRed.elem .min (.int w sg) sat r l = (a, 0) ∧ ∀ b ∈ l, asInt w sg a ≤ asInt w sg b := by
  have hle : Ranks (· < 2 ^ w) fun m x => asInt w sg x ≤ asInt w sg m :=
    ⟨fun _ _ => Int.le_refl _, fun _ _ _ _ _ _ h h' => Int.le_trans h' h⟩
  obtain ⟨a, ha, he, hup⟩ := exists_foldl_pick hle
    (fun m x => decide (bitsInt w sg m < bitsInt w sg x) = decide (VRed.min = .max)) (fun m x hm hx => by
      rw [bitsInt_eq_asInt sg hw hm, bitsInt_eq_asInt sg hw hx]
      split
      · next h => exact Int.not_lt.mp (of_decide_eq_false h)
      · next h => exact Int.le_of_lt (Decidable.byContradiction fun hn => h (decide_eq_false hn))) hl hr
  exact ⟨a, ha, Prod.ext he rfl, hup⟩

end

/-! ### The exact sum of a list of floats -/

/-- The sign of an exact zero sum: zeros of one sign keep it, else the mode gives it. -/
def zeroSign (rdn : Bool) (xs : List Num) : Bool :=
  if ∀ x ∈ xs, x = .zero true then true else if ∀ x ∈ xs, x = .zero false then false else rdn

/-- A value that is no zero leaves the sign to the mode. -/
theorem zeroSign_of_ne {rdn : Bool} {xs : List Num} {x : Num} (hx : x ∈ xs) (h : x.isZero = false) : zeroSign rdn xs = rdn := by
  have hn : ∀ n, ¬ ∀ y ∈ xs, y = .zero n := fun n ha => by rw [ha x hx] at h; cases h
  rw [zeroSign, if_neg (hn true), if_neg (hn false)]

/-- Zeros of both signs leave the sign to the mode. -/
theorem zeroSign_of_both {rdn : Bool} {xs : List Num} {n : Bool} (h : .zero n ∈ xs) (h' : .zero (!n) ∈ xs) : zeroSign rdn xs = rdn := by
  have hn : ∀ p, ¬ ∀ y ∈ xs, y = .zero p := fun p ha => by
    have h1 := (ha _ h).trans (ha _ h').symm
    cases n <;> cases h1
  rw [zeroSign, if_neg (hn true), if_neg (hn false)]

/-- A first zero of the mode's sign leaves the sign to the mode. -/
theorem zeroSign_mode_cons (rdn : Bool) (l : List Num) : zeroSign rdn (.zero rdn :: l) = rdn := by
  cases rdn <;>
    simp only [zeroSign, List.forall_mem_cons, Num.zero.injEq, Bool.false_eq_true, Bool.true_eq_false, false_and, if_false, ite_self]

/-- Adding the first two values does not change the sign of a zero sum. -/
theorem zeroSign_add {a x : Num} (ha : realNum a) (hx : realNum x) (rdn : Bool) (l : List Num) :
    zeroSign rdn (a.add x rdn :: l) = zeroSign rdn (a :: x :: l) := by
  cases a with
  | inf n => exact ha.elim
  | nan n fr sg => exact ha.elim
  | zero p =>
    cases x with
    | inf n => exact hx.elim
    | nan n fr sg => exact hx.elim
    | zero q =>
      rw [Num.add]
      by_cases h : p = q
      · subst h
        rw [if_pos rfl]
        simp only [zeroSign, List.forall_mem_cons, and_self_left]
      · rw [if_neg h, zeroSign_mode_cons, zeroSign_of_both (n := p) List.mem_cons_self]
        rw [Bool.eq_not.mpr (Ne.symm h)]
        exact List.mem_cons_of_mem _ List.mem_cons_self
    | fin n m d e =>
      have hz : ∀ l : List Num, .fin n m d e ∈ l → zeroSign rdn l = rdn := fun l h => zeroSign_of_ne h rfl
      exact (hz _ List.mem_cons_self).trans (hz _ (List.mem_cons_of_mem _ List.mem_cons_self)).symm
  | fin n m d e =>
    rw [zeroSign_of_ne (xs := .fin n m d e :: x :: l) List.mem_cons_self rfl]
    cases hz : Num.add (.fin n m d e) x rdn with
    | zero z => rw [Num.sign_of_cancel hz rfl, zeroSign_mode_cons]
    | _ => exact zeroSign_of_ne List.mem_cons_self rfl

/-- The exact sum of a list of values, the first in hand. -/
def sumFrom (rdn : Bool) (a : Num) (l : List Num) : Num := l.foldl (fun a x => a.add x rdn) a

/-- The exact sum of real values is real and exact, a zero with the sign that the rule gives. -/
theorem sumFrom_real (rdn : Bool) {a : Num} {l : List Num} (h : ∀ x ∈ a :: l, realNum x) :
    realNum (sumFrom rdn a l) ∧ ratVal (sumFrom rdn a l) = ((a :: l).map ratVal).foldr (fun p q => p + q) 0 ∧
      (ratVal (sumFrom rdn a l) = 0 → sumFrom rdn a l = .zero (zeroSign rdn (a :: l))) := by
  induction l generalizing a with
  | nil =>
    have ha := h a List.mem_cons_self
    refine ⟨ha, (Rat.add_zero _).symm, fun h0 => ?_⟩
    obtain ⟨n, rfl⟩ := eq_zero_of_ratVal ha h0
    cases n <;> rfl
  | cons x l ih =>
    have ha := h a List.mem_cons_self
    have hx := h x (List.mem_cons_of_mem _ List.mem_cons_self)
    have hl : ∀ y ∈ l, realNum y := fun y hy => h y (List.mem_cons_of_mem _ (List.mem_cons_of_mem _ hy))
    obtain ⟨hr, hv⟩ := Num.add_real ha hx rdn
    obtain ⟨h1, h2, h3⟩ := ih (a := a.add x rdn) (List.forall_mem_cons.mpr ⟨hr, hl⟩)
    refine ⟨h1, h2.trans ?_, fun h0 => (h3 h0).trans (by rw [zeroSign_add ha hx])⟩
    simp only [List.map_cons, List.foldr_cons, hv, Rat.add_assoc]

/-- Infinities of one sign among real values make the sum that infinity. -/
theorem sumFrom_inf (rdn : Bool) {n : Bool} {a : Num} {l : List Num} (h : ∀ x ∈ a :: l, x = .inf n ∨ realNum x) (hi : .inf n ∈ a :: l) :
    sumFrom rdn a l = .inf n := by
  induction l generalizing a with
  | nil => exact (List.mem_singleton.mp hi).symm
  | cons x l ih =>
    have hx := h x (List.mem_cons_of_mem _ List.mem_cons_self)
    have hl : ∀ y ∈ l, y = .inf n ∨ realNum y := fun y hy => h y (List.mem_cons_of_mem _ (List.mem_cons_of_mem _ hy))
    have hstep : ∀ y : Num, (y = .inf n ∨ realNum y) → .inf n ∈ y :: l → sumFrom rdn y l = .inf n := fun y hy =>
      ih (List.forall_mem_cons.mpr ⟨hy, hl⟩)
    change sumFrom rdn (a.add x rdn) l = .inf n
    obtain rfl | ha := h a List.mem_cons_self
    · rw [Num.inf_add rdn hx]; exact hstep _ (.inl rfl) List.mem_cons_self
    · obtain rfl | hx := hx
      · rw [Num.add_inf n rdn ha]; exact hstep _ (.inl rfl) List.mem_cons_self
      · have hne : ∀ y : Num, realNum y → Num.inf n ≠ y := fun y hy he => by rw [← he] at hy; exact hy
        have hil : .inf n ∈ l := List.mem_of_ne_of_mem (hne x hx) (List.mem_of_ne_of_mem (hne a ha) hi)
        exact hstep _ (.inr (Num.add_real ha hx rdn).1) (List.mem_cons_of_mem _ hil)

/-- The model's step of a sum is the sum of two values: a zero that cancelling leaves has the mode's sign. -/
theorem sum_step_eq_add (a x : Num) (rdn : Bool) :
    (match a.add x rdn with
      | .zero z => if a.isZero && x.isZero then .zero z else .zero rdn
      | y => y) = a.add x rdn := by
  cases h : a.add x rdn with
  | zero z =>
    cases hz : a.isZero && x.isZero with
    | true => rfl
    | false => exact congrArg Num.zero (Num.sign_of_cancel h hz).symm
  | _ => rfl

/-! ### Reductions of floats -/

section
variable {f : FFmt} {l : List Nat} (sat : Bool) (r : Rnd)

/-- A list has no NaN where none of its members is one. -/
theorem any_isNan_eq_false {xs : List Num} (h : ∀ x ∈ xs, x.isNan = false) : xs.any Num.isNan = false :=
  List.any_eq_false.mpr fun x hx => Bool.eq_false_iff.mp (h x hx)

/-- An infinity that is no member is not found. -/
theorem any_inf_eq_false {xs : List Num} {n : Bool} (h : .inf n ∉ xs) : xs.any (· = .inf n) = false :=
  List.any_eq_false.mpr fun _ hx he => h (of_decide_eq_true he ▸ hx)

/-- Floats without a NaN rank by the order with -0 below +0, upwards. -/
theorem ranks_flt_up : Ranks (fun n => (f.decode n).ordered) fun m x => ¬ belowVal (f.decode x) (f.decode m) :=
  ⟨fun _ hx h => belowVal_asymm hx hx h h, fun _ _ _ hx hy hz h h' hb => (belowVal_or hz hy hx hb).elim h' h⟩

/-- They rank by it downwards too. -/
theorem ranks_flt_down : Ranks (fun n => (f.decode n).ordered) fun m x => ¬ belowVal (f.decode m) (f.decode x) :=
  ⟨fun _ hx h => belowVal_asymm hx hx h h, fun _ _ _ hx hy hz h h' hb => (belowVal_or hx hy hz hb).elim h h'⟩

/-- MAX of floats without a NaN is an element that no other exceeds. -/
theorem vred_flt_max (hl : l ≠ []) (hn : ∀ a ∈ l, (f.decode a).isNan = false) :
    ∃ a ∈ l, VRed.elem .max (.flt f) sat r l = (a, 0) ∧ ∀ b ∈ l, ¬ belowVal (f.decode a) (f.decode b) := by
  obtain ⟨a, ha, he, hup⟩ := exists_foldl_pick (ranks_flt_up (f := f)) (fun m x => (f.decode m).ltz (f.decode x) = true)
    (fun m x hm hx => by
      have hz := Num.ltz_iff hm hx
      split
      · next h => exact belowVal_asymm hm hx (hz.mp h)
      · next h => exact fun hb => h (hz.mpr hb)) hl fun a ha => Num.ordered_decode (hn a ha)
  refine ⟨a, ha, ?_, hup⟩
  rw [← he]
  simp only [VRed.elem, any_isNan_eq_false (List.forall_mem_map.mpr hn)]
  rfl

/-- MIN of floats without a NaN is an element that exceeds no other. -/
theorem vred_flt_min (hl : l ≠ []) (hn : ∀ a ∈ l, (f.decode a).isNan = false) :
    ∃ a ∈ l, VRed.elem .min (.flt f) sat r l = (a, 0) ∧ ∀ b ∈ l, ¬ belowVal (f.decode b) (f.decode a) := by
  obtain ⟨a, ha, he, hup⟩ := exists_foldl_pick (ranks_flt_down (f := f)) (fun m x => (f.decode x).ltz (f.decode m) = true)
    (fun m x hm hx => by
      have hz := Num.ltz_iff hx hm
      split
      · next h => exact belowVal_asymm hx hm (hz.mp h)
      · next h => exact fun hb => h (hz.mpr hb)) hl fun a ha => Num.ordered_decode (hn a ha)
  refine ⟨a, ha, ?_, hup⟩
  rw [← he]
  simp only [VRed.elem, any_isNan_eq_false (List.forall_mem_map.mpr hn)]
  rfl

/-- A reduction of floats with a NaN among them gives the first, quieted (05 R108). -/
theorem vred_flt_nan (o : VRed) (h : ∃ x ∈ l.map f.decode, x.isNan = true) :
    nanOf f (if o = .sum then r else .rne) (l.map f.decode) (o.elem (.flt f) sat r l) := by
  have ha : (l.map f.decode).any Num.isNan = true := List.any_eq_true.mpr h
  obtain ⟨x, hx⟩ := Option.isSome_iff_exists.mp (List.find?_isSome.mpr h)
  have hp : pickNan (l.map f.decode) = x.quiet := by rw [pickNan, hx]; rfl
  refine ⟨x, hx, ?_⟩
  cases o <;> simp only [VRed.elem, ha, if_true, hp] <;> rfl

/-- SUM of floats, neither a NaN nor both infinities among them, is their exact sum encoded once. -/
theorem vred_flt_sum {x : Num} {xs : List Num} (hl : l.map f.decode = x :: xs) (hn : ∀ y ∈ x :: xs, y.isNan = false) {n : Bool}
    (hi : .inf n ∉ x :: xs) : VRed.elem .sum (.flt f) sat r l = f.encode (sumFrom (decide (r.rm = 2)) x xs) r := by
  have hb : ((x :: xs).any (· = .inf false) && (x :: xs).any (· = .inf true)) = false := by
    cases n with
    | false => rw [any_inf_eq_false hi, Bool.false_and]
    | true => rw [any_inf_eq_false hi, Bool.and_false]
  simp only [VRed.elem, hl, any_isNan_eq_false hn, hb, Bool.false_eq_true, if_false, List.tail_cons, List.headD_cons, sumFrom]
  congr 2
  funext a y
  exact sum_step_eq_add a y _

/-- SUM of floats with both infinities among them is invalid. -/
theorem vred_flt_invalid (hn : ∀ x ∈ l.map f.decode, x.isNan = false) (ht : .inf true ∈ l.map f.decode) (hf : .inf false ∈ l.map f.decode) :
    invalidOf f r (VRed.elem .sum (.flt f) sat r l) := by
  have h : ∀ n, Num.inf n ∈ l.map f.decode → (l.map f.decode).any (· = .inf n) = true := fun n h =>
    List.any_eq_true.mpr ⟨_, h, decide_eq_true rfl⟩
  simp only [VRed.elem, any_isNan_eq_false hn, h _ ht, h _ hf, Bool.and_self, Bool.false_eq_true, if_false, if_true]
  rfl

/-- SUM of finite floats is their exact sum rounded once. -/
theorem vred_flt_sum_finite (hl : l ≠ []) (h : ∀ x ∈ l.map f.decode, isFinite x) :
    roundedOnce f r (((l.map f.decode).map ratVal).foldr (fun p q => p + q) 0) (zeroSign (decide (r.rm = 2)) (l.map f.decode))
      (VRed.elem .sum (.flt f) sat r l) := by
  obtain ⟨a, l, rfl⟩ := List.exists_cons_of_ne_nil hl
  have hr : ∀ x ∈ f.decode a :: l.map f.decode, realNum x :=
    List.forall_mem_map (l := a :: l).mpr fun b hb => realNum_of_isFinite (h _ (List.mem_map_of_mem hb))
  obtain ⟨h1, h2, h3⟩ := sumFrom_real (decide (r.rm = 2)) hr
  refine ⟨_, isFinite_of_realNum h1, h2, fun h0 => h3 (h2.trans h0), ?_⟩
  exact vred_flt_sum sat r rfl (fun x hx => (h x hx).1) (n := true) fun hi => hr _ hi

/-- SUM of floats with infinities of one sign among them is that infinity. -/
theorem vred_flt_sum_inf {n : Bool} (hn : ∀ x ∈ l.map f.decode, x.isNan = false) (hi : .inf n ∈ l.map f.decode)
    (hi' : .inf (!n) ∉ l.map f.decode) : VRed.elem .sum (.flt f) sat r l = f.encode (.inf n) r := by
  cases l with
  | nil => cases hi
  | cons a l =>
    have hr : ∀ x ∈ f.decode a :: l.map f.decode, x = .inf n ∨ realNum x := List.forall_mem_map (l := a :: l).mpr fun b hb => by
      obtain ⟨m, hm⟩ | hr := Num.ordered_decode (hn _ (List.mem_map_of_mem hb))
      · have hmn : m = n := Decidable.byContradiction fun hne => by
          rw [Bool.eq_not.mpr hne] at hm
          exact hi' (hm ▸ List.mem_map_of_mem hb)
        exact .inl (hmn ▸ hm)
      · exact .inr hr
    rw [vred_flt_sum sat r rfl hn hi', sumFrom_inf _ hr hi]

end

end Sys2Proof.Machine

namespace Sys2Proof.Spec

open Sys2Proof.Machine

/-! ### The issue of a reduction -/

/-- The elements that the reduction of destination element e takes: its column's, or its row's. -/
def redSource (s : State) (a : BitVec 4) (down : Bool) (e : Nat) : List Nat :=
  if down then (List.range s.me.rows).map fun j => velem s a s.me.ew (j * s.me.cols + e % s.me.cols)
  else (List.range s.me.cols).map fun j => velem s a s.me.ew (e / s.me.cols * s.me.cols + j)

/-- The model takes these elements out of the list of all elements in use. -/
theorem redSource_eq (s : State) (a : BitVec 4) (down : Bool) {e : Nat} (he : e < s.me.elems) :
    (if down then (List.range s.me.rows).map fun j => (elemsOf (s.me.vreg a).bits s.me.ew s.me.elems).getD (j * s.me.cols + e % s.me.cols) 0
      else (List.range s.me.cols).map fun j => (elemsOf (s.me.vreg a).bits s.me.ew s.me.elems).getD (e / s.me.cols * s.me.cols + j) 0) =
    redSource s a down e := by
  cases down with
  | true => exact List.map_congr_left fun j hj => elemsOf_getD_velem s a _ (Core.index_lt (List.mem_range.mp hj) (Core.col_lt he))
  | false => exact List.map_congr_left fun j hj => elemsOf_getD_velem s a _ (Core.index_lt (Core.row_lt he) (List.mem_range.mp hj))

/-- The tag check of a reduction (06 R128): SUM down the columns carries the common tag, the others need unrotated operands. -/
theorem redTags_ok {o : VRed} {down : Bool} {x y tag : Tag} (hx : x = tag) (hy : y = tag) (h : (o ≠ .sum ∨ down = false) → tag = {}) :
    (if (decide (o = .sum) && down) = true then carryTags [x, y] else (plainTags [x, y]).map fun _ => {}) = .ok tag := by
  subst hx hy
  split
  · exact carryTags_ok (forall_mem_pair rfl rfl) fun h => nomatch h
  · next hc =>
    have h0 : y = {} := h (by
      rw [Bool.and_eq_true, decide_eq_true_eq, Decidable.not_and_iff_not_or_not, Bool.not_eq_true] at hc
      exact hc)
    rw [plainTags_ok (forall_mem_pair h0 h0), h0]; rfl

/-- Every reduction is the one of its form. -/
theorem redForm_spec {i : Instr} {f : RedForm} (h : redForm i = some f) (s : State) :
    exec i s = runSlot f.g (vecRed f.op f.v f.a f.t f.k f.down f.sat) s := by
  cases i with
  | vredSum | vredMax | vredMin => cases h; rfl
  | _ => cases h

/-- Equal elements and equal flags make equal results. -/
theorem raiseVec_writeVec_congr {s : State} {v : BitVec 4} {l w n : Nat} {x y : List (Option Nat)} {tag : Tag} {p q : List Flags} (h : x = y)
    (h' : p = q) : (s.writeVec v l w x tag).raiseVec l p n = (s.writeVec v l w y tag).raiseVec l q n := by rw [h, h']

section
variable {f : RedForm} {s : State} {el : Elem} {tag : Tag} {r : Nat → Nat × Flags}

/-- The effect of a reduction whose checks pass. -/
theorem vecRed_body {u : State} (hm : u.me = s.me) (hrnd : ∀ sat, u.rndFor false sat = s.rndFor false sat) (hel : el = tyElem f.t.toNat)
    (hw : el.width = s.me.ew) (ha : (s.me.vreg f.a).tag = tag) (hv : (s.me.vreg f.v).tag = tag)
    (ht : (f.op ≠ .sum ∨ f.down = false) → tag = {})
    (hr : ∀ e, r e = f.op.elem el f.sat (s.rndFor false (if el.isFloat then s.me.sys.fpstat.getLsbD 11 else f.sat) e) (redSource s f.a f.down e)) :
    (vecRed f.op f.v f.a f.t f.k f.down f.sat).body u = .ok (((u.occupy s.me.passes).writeVec f.v (5 + s.me.passes) s.me.ew
      ((List.range s.me.elems).map fun e =>
        if (if f.down then e / s.me.cols else e % s.me.cols) = 0 ∧ s.me.kbit f.k e = true then some (r e).1 else none) tag).raiseVec
      (5 + s.me.passes) ((List.range s.me.elems).map fun e =>
        if (if f.down then e / s.me.cols else e % s.me.cols) = 0 ∧ s.me.kbit f.k e = true then (r e).2 else 0) s.me.cols) := by
  subst hel
  simp only [vecRed, hm, hw, State.needWidth_ew hm, ok_bind, ite_bind, redTags_ok ha hv ht, List.map_map, hrnd]
  refine congrArg Except.ok (raiseVec_writeVec_congr ?_ ?_) <;>
  · refine List.map_congr_left fun e he => ?_
    simp only [Function.comp, redSource_eq s f.a f.down (List.mem_range.mp he), hr, Bool.and_eq_true, decide_eq_true_eq]
    generalize (if f.down = true then e / s.me.cols else e % s.me.cols) = z
    by_cases hp : z = 0 ∧ s.me.kbit f.k e = true
    · simp only [if_pos hp, Option.map_some]
    · simp only [if_neg hp, Option.map_none]

/-- A reduction issues with its first column, or row, on the way. -/
theorem exec_redForm {i : Instr} (hf : redForm i = some f) (hs : s.ready f.g) (hel : el = tyElem f.t.toNat) (hw : el.width = s.me.ew)
    (ha : (s.me.vreg f.a).tag = tag) (hv : (s.me.vreg f.v).tag = tag) (ht : (f.op ≠ .sum ∨ f.down = false) → tag = {})
    (hr : ∀ e, r e = f.op.elem el f.sat (s.rndFor false (if el.isFloat then s.me.sys.fpstat.getLsbD 11 else f.sat) e) (redSource s f.a f.down e)) :
    exec i s = .next ((((s.opened f.g false false []).occupy s.me.passes).writeVec f.v (5 + s.me.passes) s.me.ew
      ((List.range s.me.elems).map fun e =>
        if (if f.down then e / s.me.cols else e % s.me.cols) = 0 ∧ s.me.kbit f.k e = true then some (r e).1 else none) tag).raiseVec
      (5 + s.me.passes) ((List.range s.me.elems).map fun e =>
        if (if f.down then e / s.me.cols else e % s.me.cols) = 0 ∧ s.me.kbit f.k e = true then (r e).2 else 0) s.me.cols).commit :=
  exec_of_body (redForm_spec hf s) hs (vecRed_body (opened_me s f.g) (fun _ => opened_rndFor s f.g _ _) hel hw ha hv ht hr)
    (by simp only [State.raiseVec_latch, State.writeVec_latch, State.occupy_latch])

end

/-- Settles O32: the issue of a reduction, then what it computes on integers and on floats. -/
theorem reductionResult : Obligations.ReductionResult := by
  unfold Obligations.ReductionResult
  refine ⟨fun i f s el tag r => exec_redForm, fun w sg sat r l hw hl hr => ?_, fun t f sat r l xs _ hl _ hxs => ?_⟩
  · exact ⟨vred_int_sum hw sat r hr, vred_int_max hw sat r hl hr, vred_int_min hw sat r hl hr⟩
  · subst hxs
    refine ⟨vred_flt_sum_finite sat r hl, fun hn => ⟨vred_flt_invalid sat r hn, fun n => vred_flt_sum_inf sat r hn, ?_, ?_⟩, fun h => ?_⟩
    · exact vred_flt_max sat r hl (List.forall_mem_map.mp hn)
    · exact vred_flt_min sat r hl (List.forall_mem_map.mp hn)
    · exact ⟨vred_flt_nan sat r .sum h, vred_flt_nan sat r .max h, vred_flt_nan sat r .min h⟩

end Sys2Proof.Spec
end

section
/-! Compares, mask operations and band masks (07 R140, R151, R152). -/

namespace Sys2Proof.Machine

open Sys2Proof.Spec

/-! ### Conditions on floats -/

/-- Flags of signalling NaNs among two operands (05 R108). -/
theorem sigFlags_two (x y : Num) : sigFlags [x, y] = if x.isSig || y.isSig then Fl.nv else 0 := by
  rw [sigFlags, List.any_cons, List.any_cons, List.any_nil, Bool.or_false]

/-- What a condition says of two floats that are no NaN. -/
def condHolds : VCond → Num → Num → Prop
  | .eq, x, y => ¬ lessVal x y ∧ ¬ lessVal y x
  | .ne, x, y => lessVal x y ∨ lessVal y x
  | .lt, x, y | .ltu, x, y => lessVal x y
  | .ge, x, y | .geu, x, y => ¬ lessVal x y

/-- A compare of two floats that are no NaN. -/
theorem vcond_ordered {f : FFmt} {a b : Nat} (o : VCond) (hx : (f.decode a).isNan = false) (hy : (f.decode b).isNan = false) :
    ((o.elem (.flt f) a b).1 = true ↔ condHolds o (f.decode a) (f.decode b)) ∧ (o.elem (.flt f) a b).2 = 0 := by
  have hl := Num.cmp_eq_lt_iff (Num.ordered_decode hx) (Num.ordered_decode hy)
  have he := Num.cmp_eq_eq_iff (Num.ordered_decode hx) (Num.ordered_decode hy)
  have hn : ((f.decode a).isNan || (f.decode b).isNan) = false := by rw [hx, hy]; rfl
  simp only [VCond.elem, hn, Bool.false_eq_true, if_false, and_true]
  cases o <;> simp only [condHolds, decide_eq_true_eq, ne_eq, hl, he, Classical.not_and_iff_not_or_not, Classical.not_not]

/-- A compare of two floats of which one is a NaN. -/
theorem vcond_nan {f : FFmt} {a b : Nat} (o : VCond) (h : (f.decode a).isNan = true ∨ (f.decode b).isNan = true) :
    o.elem (.flt f) a b = (decide (o = .ne ∨ o = .ltu ∨ o = .geu),
      if o = .lt ∨ o = .ge then Fl.nv else if (f.decode a).isSig || (f.decode b).isSig then Fl.nv else 0) := by
  have hn : ((f.decode a).isNan || (f.decode b).isNan) = true := by rw [Bool.or_eq_true]; exact h
  simp only [VCond.elem, hn, if_true, decide_eq_true_eq, sigFlags_two]

end Sys2Proof.Machine

namespace Sys2Proof.Spec

open Sys2Proof.Machine

/-! ### The issue of a compare -/

/-- The form of a compare of a register with a second source. -/
def cmpSrc (o : VCond) (g : Guard) (d : BitVec 3) (a : BitVec 4) (b : VSrc) (t : BitVec 4) (k : BitVec 3) : VCmpForm :=
  ⟨g, d, t, k, srcCodes b, a :: srcRegs b, fun s xs e => o.elem (tyElem t.toNat) (velem s a s.me.ew e) (srcElem b s xs e)⟩

/-- A compare of the table is the compare of its sources under its condition. -/
theorem vcmpForm_spec {i : Instr} {f : VCmpForm} (h : vcmpForm i = some f) :
    ∃ o a b, f = cmpSrc o f.g f.d a b f.t f.k ∧ ∀ s, exec i s = runSlot f.g (vecCmp o f.d a b f.t.toNat f.k.toNat) s := by
  cases i with
  | vcmpEq g d a b | vcmpNe g d a b | vcmpLt g d a b | vcmpLtu g d a b | vcmpGe g d a b | vcmpGeu g d a b =>
    cases h; exact ⟨_, a, .reg b, rfl, fun _ => rfl⟩
  | vcmpEqScalar g d a x | vcmpNeScalar g d a x | vcmpLtScalar g d a x | vcmpLtuScalar g d a x | vcmpGeScalar g d a x
  | vcmpGeuScalar g d a x => cases h; exact ⟨_, a, .scalar x, rfl, fun _ => rfl⟩
  | _ => cases h

/-- The effect of a compare whose checks pass. -/
theorem vecCmp_body {o : VCond} {g : Guard} {d : BitVec 3} {a : BitVec 4} {b : VSrc} {t : BitVec 4} {k : BitVec 3} {f : VCmpForm}
    {s u u' : State} {xs : List Word} (hf : f = cmpSrc o g d a b t k) (hm : u.me = s.me) (hw : (tyElem t.toNat).width = s.me.ew)
    (hr : u.readAll (srcCodes b) = .ok (xs, u')) (ht : ∀ r ∈ a :: srcRegs b, (s.me.vreg r).tag = {}) :
    (vecCmp o d a b t.toNat k.toNat).body u = .ok (((u'.occupy s.me.passes).writeK d (2 + s.me.passes)
      ((List.range s.me.elems).map fun e => if s.me.kbit k e then some (f.value s xs e).1 else none)).raiseVec (2 + s.me.passes)
      (flagsUnder s k fun e => (f.value s xs e).2) s.me.cols) := by
  subst hf
  have hp := plainTags_ok (forall_mem_map_tag ht)
  rw [List.map_cons] at hp
  simp only [vecCmp, hm, hw, State.needWidth_ew hm, ok_bind, vsrc_ok hm hr, hp, elemsOf_eq_map_velem s, List.zip_map', List.map_map,
    Function.comp_def, zipIdx_map_range, Core.masked_map_range, BitVec.ofNat_toNat, BitVec.setWidth_eq]
  rfl

/-- A compare issues with its mask bits and flags on the way. -/
theorem exec_vcmpForm {i : Instr} {f : VCmpForm} {s s' : State} {xs : List Word} (hf : vcmpForm i = some f) (hs : s.ready f.g)
    (hw : (tyElem f.t.toNat).width = s.me.ew) (hr : (s.opened f.g false false []).readAll f.srcs = .ok (xs, s'))
    (ht : ∀ r ∈ f.regs, (s.me.vreg r).tag = {}) :
    exec i s = .next (((s'.occupy s.me.passes).writeK f.d (2 + s.me.passes)
      ((List.range s.me.elems).map fun e => if s.me.kbit f.k e then some (f.value s xs e).1 else none)).raiseVec (2 + s.me.passes)
      (flagsUnder s f.k fun e => (f.value s xs e).2) s.me.cols).commit := by
  obtain ⟨o, a, b, he, hi⟩ := vcmpForm_spec hf
  have hr' : (s.opened f.g false false []).readAll (srcCodes b) = .ok (xs, s') := by rw [he] at hr; exact hr
  have ht' : ∀ r ∈ a :: srcRegs b, (s.me.vreg r).tag = {} := by rw [he] at ht; exact ht
  exact exec_of_body (hi s) hs (vecCmp_body he (opened_me s f.g) hw hr' ht')
    (by simp only [State.raiseVec_latch, State.writeK_latch, State.occupy_latch, State.readAll_latch hr])

/-! ### The issue of mask operations and of KWIN -/

/-- A mask operation issues with every mask bit in use on the way (07 R151). -/
theorem exec_maskForm {i : Instr} {g : Guard} {d : BitVec 3} {f : State → Nat → Bool} {s : State} (hf : maskForm i = some (g, d, f))
    (hs : s.ready g) : exec i s =
      .next (((s.opened g false false []).occupy 1).writeK d 2 ((List.range s.me.elems).map fun e => some (f s e))).commit := by
  have hm := opened_me s g
  cases i with
  | kand | kor | knot => cases hf; exact exec_of_body rfl hs (by simp only [hm]) rfl
  | _ => cases hf

/-- KWIN issues with its band on the way (07 R152). -/
theorem exec_kwin {g : Guard} {d : BitVec 3} {x : BitVec 5} {k : BitVec 3} {s s' : State} {z : Word} (hs : s.ready g)
    (hr : (s.opened g false false []).readS x.toNat = .ok (z, s')) :
    exec (.kwin g d x k) s = .next ((s'.occupy 1).writeK d 2 ((List.range s.me.elems).map fun e =>
      if s.me.kbit k e then some (decide
        ((BitVec.ofNat 24 z.toNat).toInt + (BitVec.ofNat 16 (z.toNat / 2 ^ 48)).toInt * (e / s.me.cols : Nat) ≤ (e % s.me.cols : Nat) ∧
         ((e % s.me.cols : Nat) : Int) < (BitVec.ofNat 24 (z.toNat / 2 ^ 24)).toInt +
           (BitVec.ofNat 16 (z.toNat / 2 ^ 48)).toInt * (e / s.me.cols : Nat))) else none)).commit := by
  have hsl : bitsInt 16 true (z.toNat / 2 ^ 48) = (BitVec.ofNat 16 (z.toNat / 2 ^ 48)).toInt :=
    bitsInt_eq_asInt true (by decide) (Nat.div_lt_of_lt_mul z.isLt)
  refine exec_of_body rfl hs ?_ (by simp only [State.writeK_latch, State.occupy_latch, State.readS_latch hr])
  simp only [opened_me, hr, ok_bind, bitsInt_mod (w := 24) (by decide), hsl, Core.masked_map_range]
  rfl

/-- Settles O29: the issue of the compares, the mask operations and KWIN, then the conditions on integers and on floats. -/
theorem maskResult : Obligations.MaskResult := by
  unfold Obligations.MaskResult
  refine ⟨fun i f s s' xs => exec_vcmpForm, fun i g d f s => exec_maskForm, fun g d x k s s' z => exec_kwin,
    fun w sg a b hw ha hb => ?_, fun t f a b x y nv _ _ _ hx hy hnv => ?_⟩
  · simp only [VCond.elem, bitsInt_eq_asInt sg hw ha, bitsInt_eq_asInt sg hw hb, and_self]
  · subst hx hy hnv
    refine ⟨fun hx hy => ?_, fun h => ?_⟩
    · have hc := fun o => (vcond_ordered o hx hy).1
      exact ⟨hc .eq, hc .ne, hc .lt, hc .ltu, hc .ge, hc .geu, fun o => (vcond_ordered o hx hy).2⟩
    · have hc := fun o => vcond_nan o h
      exact ⟨hc .eq, hc .ne, hc .lt, hc .ltu, hc .ge, hc .geu⟩

end Sys2Proof.Spec
end

section
/-! The layout instructions (07 R141, R146 to R150): each issues once its checks pass. -/

namespace Sys2Proof.Spec

open Sys2Proof.Machine

section
variable {g : Guard} {s : State}

/-- VSEL issues with every element in use on the way (07 R141). -/
theorem exec_vsel {v a b t : BitVec 4} {k : BitVec 3} (hs : s.ready g) (hw : (tyElem t.toNat).width = s.me.ew)
    (ht : (s.me.vreg b).tag = (s.me.vreg a).tag) :
    exec (.vsel g v a b t k) s = .next (((s.opened g false false []).occupy s.me.passes).writeVec v (2 + s.me.passes) s.me.ew
      ((List.range s.me.elems).map fun e => some (if s.me.kbit k e then velem s a s.me.ew e else velem s b s.me.ew e))
      (s.me.vreg a).tag).commit := by
  have hm := opened_me s g
  have hc : carryTags [(s.me.vreg a).tag, (s.me.vreg b).tag] = .ok (s.me.vreg a).tag := 
    carryTags_ok (forall_mem_pair rfl ht) fun h => nomatch h
  refine exec_of_body rfl hs ?_ (by simp only [State.writeVec_latch, State.occupy_latch])
  simp only [hm, hw, State.needWidth_ew hm, ok_bind, hc, elemsOf_eq_map_velem s, List.zip_map', zipIdx_map_range, List.map_map,
    Function.comp_def]
  rfl

/-- VTRN issues with the transposed elements on the way (07 R146). -/
theorem exec_vtrn {v a t : BitVec 4} {k : BitVec 3} (hs : s.ready g) (hw : (tyElem t.toNat).width = s.me.ew) (hcols : s.me.cols ≤ 64)
    (ht : ∀ r ∈ [a] ++ kept k v, (s.me.vreg r).tag = {}) :
    exec (.vtrn g v a t k) s = .next (((s.opened g false false []).occupy s.me.passes).writeVec v (4 + s.me.passes) s.me.ew
      (under s k fun e => velem s a s.me.ew (e % s.me.rows * s.me.cols + e / s.me.rows)) {}).commit := by
  have hm := opened_me s g
  have hp : plainTags ((s.me.vreg a).tag :: (kept k v).map fun r => (s.me.vreg r).tag) = .ok () := plainTags_ok (forall_mem_map_tag ht)
  have he : ((List.range s.me.elems).map fun e =>
      (elemsOf (s.me.vreg a).bits s.me.ew s.me.elems).getD (e % s.me.rows * s.me.cols + e / s.me.rows) 0) =
      (List.range s.me.elems).map fun e => velem s a s.me.ew (e % s.me.rows * s.me.cols + e / s.me.rows) :=
    List.map_congr_left fun e h => elemsOf_getD_velem s a _ (Core.index_lt (Nat.mod_lt _ (Core.rows_pos (List.mem_range.mp h)))
      (Nat.div_lt_of_lt_mul (List.mem_range.mp h)))
  refine exec_of_body rfl hs ?_ (by simp only [State.writeVec_latch, State.occupy_latch])
  simp only [hm, hw, State.needWidth_ew hm, ok_bind, if_neg (Nat.not_lt.mpr hcols), kept_tags, hp, he, Core.masked_map_range]
  rfl

/-- The tag check of VBCAST (06 R128): its source counts in the broadcast forms alone. -/
theorem vbcastTags_ok {c : Core} {v a : BitVec 4} {k : BitVec 3} {f : BitVec 1} {tag : Tag}
    (ht : ∀ r ∈ (if f = 1 then [] else [a]) ++ kept k v, (c.vreg r).tag = tag) (h0 : f = 1 → k = 0 → tag = {}) :
    carryTags ((if f = 1 then [] else [(c.vreg a).tag]) ++ (kept k v).map fun r => (c.vreg r).tag) = .ok tag := by
  have hl : ((if f = 1 then [] else [(c.vreg a).tag]) ++ (kept k v).map fun r => (c.vreg r).tag) =
      ((if f = 1 then [] else [a]) ++ kept k v).map fun r => (c.vreg r).tag := by
    rw [List.map_append, apply_ite (List.map _)]; rfl
  rw [hl]
  refine carryTags_ok (forall_mem_map_tag ht) fun hnil => ?_
  obtain ⟨hf, hk⟩ := List.append_eq_nil_iff.mp (List.map_eq_nil_iff.mp hnil)
  exact h0 (Decidable.byContradiction fun h => by rw [if_neg h] at hf; cases hf)
    (Decidable.byContradiction fun h => by rw [kept, if_neg h] at hk; cases hk)

/-- VBCAST issues with its row, column or scalar repeated on the way (07 R147). -/
theorem exec_vbcast {v a : BitVec 4} {x : BitVec 5} {t : BitVec 4} {k : BitVec 3} {f : BitVec 1} {s' : State} {z : Word} {tag : Tag}
    (hs : s.ready g) (hw : (tyElem t.toNat).width = s.me.ew) (hr : (s.opened g false false []).readS x.toNat = .ok (z, s'))
    (ht : ∀ r ∈ (if f = 1 then [] else [a]) ++ kept k v, (s.me.vreg r).tag = tag) (h0 : f = 1 → k = 0 → tag = {})
    (hi : f = 0 → z.toNat % 65536 < if z.getLsbD 16 then s.me.cols else s.me.rows) :
    exec (.vbcast g v a x t k f) s = .next ((s'.occupy s.me.passes).writeVec v (2 + s.me.passes) s.me.ew
      (under s k fun e => if f = 1 then z.toNat % 2 ^ s.me.ew
        else if z.getLsbD 16 then velem s a s.me.ew (e / s.me.cols * s.me.cols + z.toNat % 65536)
        else velem s a s.me.ew (z.toNat % 65536 * s.me.cols + e % s.me.cols)) tag).commit := by
  have hm := opened_me s g
  have hg : ¬ (decide (f = 0) && decide ((if z.getLsbD 16 then s.me.cols else s.me.rows) ≤ z.toNat % 65536)) = true := by
    rw [Bool.and_eq_true, decide_eq_true_eq, decide_eq_true_eq, not_and, Nat.not_le]; exact hi
  refine exec_of_body rfl hs ?_ (by simp only [State.writeVec_latch, State.occupy_latch, State.readS_latch hr])
  simp only [hm, hw, State.needWidth_ew hm, ok_bind, hr, kept_tags, vbcastTags_ok ht h0, if_neg hg, Core.masked_map_range]
  refine congrArg (fun l => Except.ok (State.writeVec _ _ _ _ l _)) (List.map_congr_left fun e he => ?_)
  have he := List.mem_range.mp he
  obtain rfl | rfl := BitVec.eq_zero_or_eq_one f
  · have hi := hi rfl
    cases hz : z.getLsbD 16 <;> rw [hz] at hi
    · rw [elemsOf_getD_velem s a _ (Core.index_lt hi (Core.col_lt he))]; rfl
    · rw [elemsOf_getD_velem s a _ (Core.index_lt (Core.row_lt he) hi)]; rfl
  · rfl

/-- VIOTA issues with its count on the way (07 R148). -/
theorem exec_viota {v : BitVec 4} {x : BitVec 5} {t : BitVec 4} {k : BitVec 3} {f : BitVec 1} {s' : State} {z : Word} (hs : s.ready g)
    (hw : (tyElem t.toNat).width = s.me.ew) (hr : (s.opened g false false []).readS x.toNat = .ok (z, s')) :
    exec (.viota g v x t k f) s = .next ((s'.occupy s.me.passes).writeVec v (2 + s.me.passes) s.me.ew
      (under s k fun e => (z.toNat + if f = 1 then e % s.me.cols else e) % 2 ^ s.me.ew) {}).commit := by
  have hm := opened_me s g
  refine exec_of_body rfl hs ?_ (by simp only [State.writeVec_latch, State.occupy_latch, State.readS_latch hr])
  simp only [hm, hw, State.needWidth_ew hm, ok_bind, hr, Core.masked_map_range]
  rfl

/-- VEXT issues with its element pushed (07 R149). -/
theorem exec_vext {q : BitVec 3} {a : BitVec 4} {x : BitVec 5} {f : BitVec 1} {s' t : State} {z : Word} (hs : s.ready g)
    (hr : (s.opened g false false []).readS x.toNat = .ok (z, s')) (hz : z.toNat < s.me.elems)
    (hq : (s'.occupy 1).pushQ q 3 (if f = 1 then (BitVec.ofNat s.me.ew (velem s a s.me.ew z.toNat)).signExtend 64
      else BitVec.ofNat 64 (velem s a s.me.ew z.toNat)) = .ok t) : exec (.vext g q a x f) s = .next t.commit := by
  have hx : BitVec.ofInt 64 (bitsInt s.me.ew true (velem s a s.me.ew z.toNat)) =
      (BitVec.ofNat s.me.ew (velem s a s.me.ew z.toNat)).signExtend 64 := by
    rw [bitsInt_eq_asInt true s.me.ew_pos (velem_lt ..)]; rfl
  have hl : t.latch = (s'.occupy 1).latch := State.writeS_latch ((State.pushQ_eq_writeS ..).symm.trans hq)
  refine exec_of_body rfl hs ?_ (by rw [hl, State.occupy_latch, State.readS_latch hr])
  rw [← hx] at hq
  simp only [opened_me, hr, ok_bind, if_neg (Nat.not_le.mpr hz)]
  exact hq

/-- VINS issues with its element on the way, under its register's tag (07 R149). -/
theorem exec_vins {v : BitVec 4} {x : BitVec 5} {s' : State} {z : Word} (hs : s.ready g)
    (hr : (s.opened g false false []).readS x.toNat = .ok (z, s')) (hz : z.toNat / 2 ^ 32 % 16384 < s.me.elems) :
    exec (.vins g v x) s = .next ((s'.occupy 1).writeVec v 3 s.me.ew
      (List.replicate (z.toNat / 2 ^ 32 % 16384) none ++ [some (z.toNat % 2 ^ s.me.ew)]) (s.me.vreg v).tag).commit := by
  refine exec_of_body rfl hs ?_ (by simp only [State.writeVec_latch, State.occupy_latch, State.readS_latch hr])
  simp only [opened_me, hr, ok_bind, BitVec.toNat_ushiftRight, Nat.shiftRight_eq_div_pow, if_neg (Nat.not_le.mpr hz)]
  rfl

/-- VSHP of a legal shape issues with the shape on the way (07 R150). -/
theorem exec_vshp {x : BitVec 5} {s' : State} {z : Word} (hs : s.ready g)
    (hr : (s.opened g false false []).readS x.toNat = .ok (z, s')) (hz : shapeOk z = true) :
    exec (.vshp g x) s = .next ((s'.occupy 1).addPend 1 (.vshape z)).commit := by
  refine exec_of_body rfl hs ?_ (by simp only [State.addPend_latch, State.occupy_latch, State.readS_latch hr])
  simp only [hr, ok_bind, hz, if_true]
  rfl

end

/-- Settles O30: the issue of each layout instruction. -/
theorem vectorLayout : Obligations.VectorLayout := by
  unfold Obligations.VectorLayout
  exact ⟨fun g v a b t k s => exec_vsel, fun g v a t k s => exec_vtrn, fun g v a x t k f s s' z tag => exec_vbcast,
    fun g v x t k f s s' z => exec_viota, fun g q a x f s s' t z => exec_vext, fun g v x s s' z => exec_vins,
    fun g x s s' z => exec_vshp⟩

end Sys2Proof.Spec
end
